-- ==== Sys2Proof/Syntax.lean ====
section
/-!
DEFINITION. The syntax of every step of the Torale 9600: one constructor of `Instr` per row of spec/opcode_table.json.
Rows 0 to 271 are the words of the four streams. Each carries the operand fields of its layout (04 R86 to R95).
Rows 272 to 372 are the steps of the engines, the memory machine, the hub, firmware, the host and the links.
Each of those carries the data that the acting agent brings.
-/
namespace Sys2Proof

/-- The four instruction streams of a context (02 R21). -/
inductive Stream where
  | s | v | m | x
  deriving DecidableEq, Repr, Inhabited

/-- The two context banks of a cell (02 R21). -/
inductive Bank where
  | a | b
  deriving DecidableEq, Repr, Inhabited

/-- One context: a cell number (01 R8) and a bank. -/
structure CtxRef where
  cell : Nat
  bank : Bank
  deriving DecidableEq, Repr, Inhabited

/-- The four domain registers (02 R34). -/
inductive DomScope where
  | t | d | p | s
  deriving DecidableEq, Repr, Inhabited

/-- A node of a launch: partition, launch number, node index (21 R381). -/
structure NodeRef where
  part   : Nat
  launch : Nat
  node   : Nat
  deriving DecidableEq, Repr, Inhabited

/-- Where the sorting office puts a node: member contexts in ascending cell order, and the second team of a dual run
(21 R399, R402). -/
structure Placement where
  members : List CtxRef
  second  : List CtxRef
  domain  : BitVec 32
  deriving DecidableEq, Repr, Inhabited

/-- A peer transfer as the receiving hub sees it (16 R316, R318): the package, the context and the rank that sent it, the Giuth port that
it comes in by, the target. `marks` are the poisoned offsets in the data. -/
structure PeerTransfer where
  srcPkg : Nat
  sender : CtxRef
  rank   : Nat
  port   : Nat
  cell   : Nat
  space  : BitVec 2
  off    : Nat
  data   : List (BitVec 8)
  marks  : List Nat
  deriving DecidableEq, Repr, Inhabited

/-- A superstep transfer that a member of another package has posted to a member here (02 R37, 16 R314, R315): the sender, its rank
in the sender's order, the member address, the element type of a reduction, the data with their poisoned offsets. -/
structure MemberTransfer where
  sender : CtxRef
  rank   : Nat
  target : BitVec 64
  red    : Option Nat
  data   : List (BitVec 8)
  marks  : List Nat
  deriving DecidableEq, Repr, Inhabited

/-- What the hub of another package says of a domain (02 R37 to R41, 16 R313): members have arrived; a transfer comes for a member here;
a transfer of a context of this package was dropped there, at a halted member or not; a member has halted, or its register has been
rewritten since. -/
inductive BarrierCargo where
  | arrived (members : Nat)
  | transfer (t : MemberTransfer)
  | dropped (c : CtxRef) (rank : Nat) (halted : Bool)
  | halted (c : CtxRef) (on : Bool)
  deriving DecidableEq, Repr, Inhabited

/-- A barrier token: from which package and by which port, for which domain and which superstep of it, and what it says (02 R37, 20
R366). -/
structure BarrierToken where
  pkg     : Nat
  port    : Nat
  part    : Nat
  dom     : BitVec 32
  step    : Nat
  cargo   : BarrierCargo
  deriving DecidableEq, Repr, Inhabited

/-- What firmware records of a domain in the hub: its parent and its members, each with its package (02 R36, 21 R381). -/
structure DomainEntry where
  parent  : Option (BitVec 32)
  members : List (Nat × CtxRef)
  deriving DecidableEq, Repr, Inhabited

/-- A firmware write of a domain register: the value, and the record of the domain that goes with it, if any. -/
structure DomainWrite where
  value : BitVec 64
  entry : Option DomainEntry
  deriving DecidableEq, Repr, Inhabited

/-- A reward message of 32 bytes and the port that it comes in by (20 R380, 23 R420). -/
structure PortMessage where
  port : Nat
  msg  : BitVec 256
  deriving DecidableEq, Repr, Inhabited

/-- What an access does at its home (18 R344; 07 R163). -/
inductive AmoOp where
  | add | and | or | xor | min | max | minu | maxu | swap | fadd
  deriving DecidableEq, Repr, Inhabited

/-- The kind of a page (17 R327): unordered, release consistent, strongly ordered. -/
inductive PageKind where
  | uo | rc | so
  deriving DecidableEq, Repr, Inhabited

/-- What a peer's flit does (17 R332, 18 R361); the bytes of a store come with their poison (14 R272). -/
inductive PeerOp where
  | load  (len : Nat)
  | store (data : List (BitVec 8 × Bool))
  | amo   (len : Nat) (op : AmoOp) (operand : BitVec 64)
  | cas   (len : Nat) (expect new : BitVec 64)
  deriving DecidableEq, Repr, Inhabited

/-- A load, store or atomic that an agent of a peer package sends to this package's HBM, with the kind of its page there (18 R342,
R361). -/
structure PeerAccess where
  pkg   : Nat
  agent : Nat
  page  : PageKind
  addr  : Nat
  op    : PeerOp
  deriving DecidableEq, Repr, Inhabited

/-- What a bad flit carried (27 R465). -/
inductive FlitCargo where
  | lsa (acc : Nat)
  | reward
  | xpeer (c : CtxRef) (op : Nat)
  | barrier
  deriving DecidableEq, Repr, Inhabited

/-- A flit received bad on a Giuth port, after `tries` retries (27 R465). -/
structure FlitEvent where
  port  : Nat
  tries : Nat
  cargo : FlitCargo
  deriving DecidableEq, Repr, Inhabited

/-- A write to the hub register window (27 R459). `host` is false for a write by firmware. -/
structure HubWrite where
  off  : Nat
  val  : BitVec 64
  host : Bool
  deriving DecidableEq, Repr, Inhabited

/-- What the configuration record and the firmware image verify to at reset (01 R19, 27 R466, R473). -/
structure DeviceConfig where
  recordOk   : Bool
  firmwareOk : Bool
  disabled   : List Nat
  droop      : List (BitVec 10)
  package    : Nat
  domain     : Nat
  keepHbm    : Bool
  deriving DecidableEq, Repr, Inhabited

/-- A debug token (27 R469). -/
structure DebugToken where
  part  : Nat
  cells : BitVec 256
  nonce : BitVec 128
  sig   : BitVec 768
  deriving DecidableEq, Repr, Inhabited

/-- A partition that firmware creates (27 R466). -/
structure PartitionSpec where
  part     : Nat
  cells    : List Nat
  tenant   : Bool
  imageOk  : Bool
  deriving DecidableEq, Repr, Inhabited

/-! ## Operand layouts -/

/-- S register format (R86). -/
structure SR where
  j : Bool
  d : BitVec 5
  a : BitVec 5
  b : BitVec 5
  ka : Bool
  kb : Bool
  g : BitVec 4
  deriving DecidableEq, Repr, Inhabited

/-- S immediate format (R86). -/
structure SI where
  j : Bool
  d : BitVec 5
  a : BitVec 5
  ka : Bool
  g : BitVec 4
  imm : BitVec 10
  deriving DecidableEq, Repr, Inhabited

/-- S long-immediate format (R86). -/
structure SL where
  j : Bool
  d : BitVec 5
  g : BitVec 4
  imm : BitVec 16
  deriving DecidableEq, Repr, Inhabited

/-- S branch format (R86). -/
structure SB where
  j : Bool
  g : BitVec 4
  off : BitVec 21
  deriving DecidableEq, Repr, Inhabited

/-- S branch-on-zero format (R86). -/
structure SBZ where
  j : Bool
  a : BitVec 5
  ka : Bool
  off : BitVec 19
  deriving DecidableEq, Repr, Inhabited

/-- S memory format (R86). -/
structure SM where
  j : Bool
  d : BitVec 5
  a : BitVec 5
  ka : Bool
  kd : Bool
  sz : BitVec 2
  ord : BitVec 2
  obs : BitVec 5
  g : BitVec 4
  deriving DecidableEq, Repr, Inhabited

/-- S SYS format without SUB (R86, R88). -/
structure SX where
  j : Bool
  d : BitVec 5
  a : BitVec 5
  b : BitVec 5
  ka : Bool
  kb : Bool
  deriving DecidableEq, Repr, Inhabited

/-- FENCE fields: SUB is the observer mask (R88). -/
structure SF where
  j : Bool
  obs : BitVec 5
  deriving DecidableEq, Repr, Inhabited

/-- S control-register format (R86). -/
structure SC where
  j : Bool
  d : BitVec 5
  a : BitVec 5
  ka : Bool
  csr : BitVec 12
  deriving DecidableEq, Repr, Inhabited

/-- LOOP format (R86). -/
structure SLP where
  j : Bool
  lv : Bool
  a : BitVec 5
  ka : Bool
  last : BitVec 18
  deriving DecidableEq, Repr, Inhabited

/-- LOOPI format (R86). -/
structure SLI where
  j : Bool
  lv : Bool
  count : BitVec 10
  last : BitVec 14
  deriving DecidableEq, Repr, Inhabited

/-- LOOPM format (R86): `ii` holds II - 1, `stages` holds stages - 1. -/
structure SLM where
  j : Bool
  ii : BitVec 4
  stages : BitVec 3
  rb : Bool
  a : BitVec 5
  ka : Bool
  deriving DecidableEq, Repr, Inhabited

/-- V register format (R90). -/
structure VR where
  j : Bool
  d : BitVec 4
  a : BitVec 4
  b : BitVec 4
  ka : Bool
  kb : Bool
  gm : BitVec 4
  et : BitVec 2
  deriving DecidableEq, Repr, Inhabited

/-- V immediate format (R90). -/
structure VI where
  j : Bool
  d : BitVec 4
  a : BitVec 4
  ka : Bool
  gm : BitVec 4
  et : BitVec 2
  imm : BitVec 10
  deriving DecidableEq, Repr, Inhabited

/-- V memory format (R90). -/
structure VM where
  j : Bool
  d : BitVec 4
  a : BitVec 4
  ka : Bool
  kd : Bool
  gm : BitVec 4
  et : BitVec 2
  sp : BitVec 2
  off : BitVec 7
  deriving DecidableEq, Repr, Inhabited

/-- AOP format of V, M and X (R90, R95). -/
structure VA where
  j : Bool
  d : BitVec 4
  a : BitVec 4
  ka : Bool
  imm : BitVec 12
  deriving DecidableEq, Repr, Inhabited

/-- Coder format (R90). -/
structure VC where
  j : Bool
  e : BitVec 5
  fr : BitVec 4
  x : BitVec 4
  kx : Bool
  gm : BitVec 4
  mode : BitVec 7
  deriving DecidableEq, Repr, Inhabited

/-- Window format (R90). -/
structure VW where
  j : Bool
  d : BitVec 4
  a : BitVec 4
  ka : Bool
  wd : BitVec 2
  gm : BitVec 4
  et : BitVec 2
  mode : BitVec 8
  deriving DecidableEq, Repr, Inhabited

/-- Format of the M and X instructions (R93). -/
structure MA where
  j : Bool
  a : BitVec 4
  b : BitVec 4
  c : BitVec 4
  k1 : Bool
  k2 : Bool
  k3 : Bool
  g : BitVec 4
  mode : BitVec 6
  deriving DecidableEq, Repr, Inhabited

/-- M and X SYS words: AQ1 only, G = 0 (R94, R302, R325). -/
structure MS where
  j : Bool
  a : BitVec 4
  deriving DecidableEq, Repr, Inhabited

/-- The EXT word of AMO and CAS (R86). -/
structure Ext where
  obs : BitVec 5
  ord : BitVec 2
  c : BitVec 5
  kc : Bool
  deriving DecidableEq, Repr, Inhabited

/-- Every step of the device: one constructor per row of the opcode table, in the table's order. -/
inductive Instr where
  | nop (j : Bool) (g : BitVec 4)
  | illegalWord (w : BitVec 32)
  | halt
  | trap (o : SX)
  | tret (o : SX)
  | gfence (o : SX)
  | bsync (o : SX)
  | tstamp (o : SX)
  | rngd (o : SX)
  | cntr (o : SX)
  | nlaunch (o : SX)
  | lqpop (o : SX)
  | lqpopNb (o : SX)
  | lvset (o : SX)
  | epopen (o : SX)
  | epclose (o : SX)
  | rwpost (o : SX)
  | jstat (o : SX)
  | wdld (o : SX)
  | brk (o : SX)
  | add (o : SR)
  | sub (o : SR)
  | and (o : SR)
  | or (o : SR)
  | xor (o : SR)
  | andn (o : SR)
  | shl (o : SR)
  | shr (o : SR)
  | sra (o : SR)
  | min (o : SR)
  | max (o : SR)
  | minu (o : SR)
  | maxu (o : SR)
  | seq (o : SR)
  | slt (o : SR)
  | sltu (o : SR)
  | mul (o : SR)
  | mulh (o : SR)
  | mulhu (o : SR)
  | div (o : SR)
  | divu (o : SR)
  | rem (o : SR)
  | remu (o : SR)
  | clz (o : SR)
  | ctz (o : SR)
  | popc (o : SR)
  | rol (o : SR)
  | ror (o : SR)
  | addw (o : SR)
  | subw (o : SR)
  | sel (o : SR)
  | cmpEq (o : SR)
  | cmpNe (o : SR)
  | cmpLt (o : SR)
  | cmpGe (o : SR)
  | cmpLtu (o : SR)
  | cmpGeu (o : SR)
  | pand (o : SR)
  | por (o : SR)
  | pxor (o : SR)
  | pandn (o : SR)
  | pnot (o : SR)
  | pset (o : SR)
  | pclr (o : SR)
  | addi (o : SI)
  | andi (o : SI)
  | ori (o : SI)
  | xori (o : SI)
  | shli (o : SI)
  | shri (o : SI)
  | srai (o : SI)
  | slti (o : SI)
  | muli (o : SI)
  | li (o : SL)
  | lil (o : SL)
  | liw (o : SL)
  | lix (o : SL)
  | br (o : SB)
  | bp (o : SB)
  | bnp (o : SB)
  | call (o : SB)
  | bz (o : SBZ)
  | bnz (o : SBZ)
  | jr (o : SR)
  | jrl (o : SR)
  | ld (o : SM)
  | lds (o : SM)
  | st (o : SM)
  | amoAdd (o : SR) (x : Ext)
  | amoAnd (o : SR) (x : Ext)
  | amoOr (o : SR) (x : Ext)
  | amoXor (o : SR) (x : Ext)
  | amoMin (o : SR) (x : Ext)
  | amoMax (o : SR) (x : Ext)
  | amoMinu (o : SR) (x : Ext)
  | amoMaxu (o : SR) (x : Ext)
  | amoSwap (o : SR) (x : Ext)
  | amoFadd (o : SR) (x : Ext)
  | cas (size : Bool) (o : SR) (x : Ext)
  | fenceFull (o : SF)
  | fenceLd (o : SF)
  | fenceSt (o : SF)
  | fenceEng (o : SF)
  | movxr (o : SR)
  | movxk (o : SR)
  | movxw (o : SR)
  | qcnt (o : SR)
  | qdrop (o : SR)
  | qclr (o : SR)
  | tsig (o : SR)
  | twait (o : SR)
  | tpoll (o : SR)
  | loop (o : SLP)
  | loopi (o : SLI)
  | loopm (o : SLM)
  | csrr (o : SC)
  | csrw (o : SC)
  | csrs (o : SC)
  | csrc (o : SC)
  | vHalt
  | vGfence (o : VR)
  | vTsig (o : VR)
  | vTwait (o : VR)
  | vTpoll (o : VR)
  | vBrk (o : VR)
  | vadd (o : VR)
  | vsub (o : VR)
  | vmul (o : VR)
  | vmulh (o : VR)
  | vmulhu (o : VR)
  | vmad (o : VR)
  | vmin (o : VR)
  | vmax (o : VR)
  | vminu (o : VR)
  | vmaxu (o : VR)
  | vabs (o : VR)
  | vand (o : VR)
  | vor (o : VR)
  | vxor (o : VR)
  | vandn (o : VR)
  | vshl (o : VR)
  | vshr (o : VR)
  | vsra (o : VR)
  | vfsl (o : VR)
  | vfsr (o : VR)
  | vclz (o : VR)
  | vpopc (o : VR)
  | vadds (o : VR)
  | vsubs (o : VR)
  | vaddsu (o : VR)
  | vsubsu (o : VR)
  | vavgu (o : VR)
  | vcmpEq (o : VR)
  | vcmpNe (o : VR)
  | vcmpLt (o : VR)
  | vcmpGe (o : VR)
  | vcmpLtu (o : VR)
  | vcmpGeu (o : VR)
  | vcmpFeq (o : VR)
  | vcmpFlt (o : VR)
  | vcmpFle (o : VR)
  | vcmpFun (o : VR)
  | fadd (o : VR)
  | fsub (o : VR)
  | fmul (o : VR)
  | fma (o : VR)
  | fmin (o : VR)
  | fmax (o : VR)
  | fabs (o : VR)
  | fneg (o : VR)
  | frcp (o : VR)
  | frsq (o : VR)
  | fsqrt (o : VR)
  | fexp2 (o : VR)
  | flog2 (o : VR)
  | cvt (o : VR) (code : BitVec 5)
  | radd (o : VR)
  | rfadd (o : VR)
  | rmin (o : VR)
  | rmax (o : VR)
  | rminu (o : VR)
  | rmaxu (o : VR)
  | rand (o : VR)
  | vredRor (o : VR)
  | rxor (o : VR)
  | rimax (o : VR)
  | vscan (o : VR)
  | vfscan (o : VR)
  | vperm (o : VR)
  | vslup (o : VR)
  | vsldn (o : VR)
  | vcmpr (o : VR)
  | vexpd (o : VR)
  | vsplt (o : VR)
  | vsel (o : VR)
  | vins (o : VR)
  | vext (o : VR)
  | vbcst (o : VR)
  | mand (o : VR)
  | mor (o : VR)
  | mxor (o : VR)
  | mandn (o : VR)
  | mnot (o : VR)
  | mpop (o : VR)
  | mset (o : VR)
  | mclr (o : VR)
  | mfromv (o : VR)
  | mtov (o : VR)
  | vld (o : VM)
  | vst (o : VM)
  | vstb (o : VM)
  | vgath (o : VM)
  | vscat (o : VM)
  | vwmac (o : VW)
  | vwpool (o : VW)
  | aadd (o : VA)
  | aaddi (o : VA)
  | ali (o : VA)
  | alih (o : VA)
  | afrom (o : VA)
  | ato (o : VA)
  | vaddi (o : VI)
  | vandi (o : VI)
  | vshli (o : VI)
  | vshri (o : VI)
  | vsrai (o : VI)
  | pquant (o : VC)
  | pldf (o : VC)
  | pstf (o : VC)
  | rcinit (o : VC)
  | rcenc (o : VC)
  | rcdec (o : VC)
  | rcencv (o : VC)
  | rcdecv (o : VC)
  | rcbinv (o : VC)
  | rcbinvEnc (o : VC)
  | rcflush (o : VC)
  | rcmark (o : VC)
  | rcback (o : VC)
  | rcstat (o : VC)
  | mHalt
  | mGfence (o : MS)
  | mTsig (o : MS)
  | mTwait (o : MS)
  | mBrk (o : MS)
  | mfmt (o : MA)
  | mfmtT (o : MA)
  | mldw (o : MA)
  | mswap (o : MA)
  | mstr (o : MA)
  | mwin (o : MA)
  | mzero (o : MA)
  | mout (o : MA)
  | mkat (o : MA) (sig : BitVec 32)
  | xHalt
  | xGfence (o : MS)
  | xTsig (o : MS)
  | xTwait (o : MS)
  | xBrk (o : MS)
  | xstat (o : MS)
  | xcpy (o : MA)
  | xcpy2 (o : MA)
  | xgath (o : MA)
  | xscat (o : MA)
  | xfill (o : MA)
  | xsend (o : MA)
  | xpeer (o : MA)
  | xlbw (o : MA)
  | xlbc (o : MA)
  | xred (o : MA)
  | xreds (o : MA)
  | xpref (o : MA)
  | resultDue (c : CtxRef) (tok : Nat)
  | moduloPassEnd (c : CtxRef)
  | haltBundleRetire (c : CtxRef)
  | engineOpStart (c : CtxRef) (op : Nat)
  | engineOpComplete (c : CtxRef) (op : Nat)
  | asyncFault (c : CtxRef) (op : Nat)
  | trapEntry (c : CtxRef)
  | firmwareResume (c : CtxRef)
  | firmwareFail (c : CtxRef)
  | firmwareRerun (c : CtxRef)
  | barrierRelease (part : Nat) (dom : BitVec 32)
  | post (acc : Nat)
  | perform (acc : Nat)
  | ack (acc : Nat)
  | read (acc : Nat)
  | readCacheEvict (cell : Nat) (line : Nat)
  | pageWalk (c : CtxRef) (st : Stream) (va : BitVec 64)
  | tlbPrefetchWalk (c : CtxRef) (st : Stream)
  | coderEmissionWrite (c : CtxRef) (slot : Nat)
  | coderReadAhead (c : CtxRef) (slot : Nat)
  | xpeerArrival (t : PeerTransfer)
  | xpeerAcknowledge (c : CtxRef) (op : Nat) (granted : Bool)
  | rewardMessageArrival (msg : PortMessage)
  | barrierTokenArrival (tok : BarrierToken)
  | peerAccess (a : PeerAccess)
  | flitRetry (f : FlitEvent)
  | lsaLossTimeout (acc : Nat)
  | joinMessageIntake (part : Nat)
  | openDeadline (entry : Nat)
  | closeDeadlineDrop (entry : Nat)
  | closeDeadlineFill (entry : Nat)
  | jholdExpiry (entry : Nat)
  | scanTake (part : Nat)
  | releaseRecordEntry (part : Nat)
  | scanJob (node : NodeRef)
  | lqtailWrite (part : Nat) (q : Nat) (v : BitVec 64)
  | lqstatOvrClear (part : Nat) (q : Nat) (v : BitVec 64)
  | lqerrWrite (part : Nat) (q : Nat)
  | launch (part : Nat) (q : Nat)
  | setonly (part : Nat) (q : Nat)
  | packetFence (part : Nat) (q : Nat)
  | signal (part : Nat) (q : Nat)
  | nodePlacement (node : NodeRef) (place : Placement)
  | nodeCompletion (node : NodeRef)
  | copyNode (node : NodeRef)
  | unsplicedRerun (node : NodeRef)
  | agePromotion (node : NodeRef)
  | reservation (node : NodeRef)
  | nodeBoundaryPreemption (part : Nat)
  | urgentPreemption (part : Nat)
  | urgentLimitExpiry (part : Nat)
  | shadowExchange (part : Nat)
  | preemptResume (part : Nat)
  | tlbinvGo (part : Nat) (v : BitVec 64)
  | tlbinvRejClear (part : Nat)
  | tlbinvComplete (part : Nat)
  | jownerWrite (v : BitVec 64)
  | cellmodeWrite (cell : Nat) (v : BitVec 64)
  | cellmodeHeldApply (cell : Nat)
  | domainRegisterWrite (c : CtxRef) (reg : DomScope) (v : DomainWrite)
  | grantTableLoad (entries : List (BitVec 128))
  | reliabilityStateWrite (cell : Nat) (v : BitVec 64)
  | deadLetterAck (v : BitVec 64)
  | deadLetterClear
  | registerWrite (w : HubWrite)
  | capabilityFault (part : Nat)
  | partitionReset (part : Nat)
  | cellRepartition (cell : Nat) (part : Nat)
  | deviceReset (cfg : DeviceConfig)
  | hostMemRead (addr : Nat) (len : Nat)
  | hostMemWrite (addr : Nat) (data : List (BitVec 8))
  | getVersion
  | getCapabilities
  | negotiateAlgorithms
  | getDigests
  | getCertificate (slot : Nat) (off : Nat) (len : Nat)
  | challenge (nonce : BitVec 256)
  | getMeasurements (index : Nat) (nonce : BitVec 256)
  | spdmUnsupported (code : BitVec 8)
  | debugToken (t : DebugToken)
  | debugHaltRequest (cell : Nat)
  | powerP1 (cell : Nat)
  | powerC1 (cell : Nat)
  | powerC2 (cell : Nat)
  | powerC3
  | powerWake (cell : Nat)
  | leaveTenant (cell : Nat)
  | droopAlarm (cells : List Nat)
  | droopHalfRateEnd (cell : Nat)
  | tstampTick
  | suspicionDecay
  | targetedTestStart (cell : Nat)
  | targetedTestEnd (cell : Nat) (fails : List Bool)
  | scrubPatrol (unit : Nat)
  | debugResume (cell : Nat) (stepOne : Bool)
  | debugStateSet (part : Nat) (v : BitVec 2)
  | partitionCreation (p : PartitionSpec)
  | hubLinkChecksumRetry (cell : Nat)
  | firmwareStore (addr : Nat) (v : BitVec 64)
  | pageMigrationCopy (src : Nat) (dst : Nat) (len : Nat)
  | giuthPortTraining (port : Nat) (up : Bool)
  deriving DecidableEq, Repr

end Sys2Proof
end

