-- ==== Sys2Proof/WellFormed.lean ====
section
/-!
DEFINITION. Well-formed instructions: the value rules of 04 (R84, R87, R88, R91, R92, R93) and the fields that a word
leaves unused, which must be zero (R96). A word that breaks one of them is an illegal word.
-/
namespace Sys2Proof

/-- A guard field that cannot hold a lane mask or a predicate p1 to p7: 0, or ps0 to ps7 (R83, R84). -/
def guardOnly (g : BitVec 4) : Bool := g == 0#4 || decide (8 ≤ g.toNat)

/-- The integer element widths (R91). -/
def etInt (e : BitVec 2) : Bool := e != 3#2

/-- The count of a vector shift by an immediate is below the element width, and IMM[9:5] is zero (09 R199). -/
def vcountOk (e : BitVec 2) (imm : BitVec 10) : Bool := decide (imm.toNat < 8 * 2 ^ e.toNat)

/-- The floating-point element formats (R91). -/
def etFp (e : BitVec 2) : Bool := e != 0#2

/-- END of LOOP and LOOPI is at least 1 (R87). -/
def lastOk {n : Nat} (x : BitVec n) : Bool := decide (0 < x.toInt)

/-- Plain ORD has no observer, every other ORD names one (R87). -/
def ordOk (ord : BitVec 2) (obs : BitVec 5) : Bool := (ord == 0#2) == (obs == 0#5)

/-- A plane format code of R281 that MFMT accepts (R285). -/
def fmtOk (f : BitVec 6) : Bool := decide (1 ≤ f.toNat) && decide (f.toNat ≤ 7)

/-- An output format of MOUT (R299). -/
def outFmtOk (f : BitVec 6) : Bool := decide (1 ≤ f.toNat) && decide (f.toNat ≤ 8)

/-- The loop registers LC, LS, LE of both levels and the four streams (R176). -/
def csrLoop (n : BitVec 12) : Bool :=
  decide (0x20 ≤ n.toNat) && decide (n.toNat < 0x40) && decide (n.toNat % 8 < 6)

/-- A control register that a context may write (R140). -/
def csrWritable (n : BitVec 12) : Bool :=
  let k := n.toNat
  k == 0x000 || k == 0x008 || (0x010 ≤ k && k ≤ 0x013) || csrLoop n || k == 0x040 || k == 0x041 ||
  (0x070 ≤ k && k ≤ 0x072) || (0x078 ≤ k && k ≤ 0x07A) || k == 0x081 || k == 0x0A0

/-- A number that names a control register (R140). -/
def csrKnown (n : BitVec 12) : Bool :=
  let k := n.toNat
  csrWritable n || (0x001 ≤ k && k ≤ 0x004) || (0x009 ≤ k && k ≤ 0x00C) || (0x014 ≤ k && k ≤ 0x017) ||
  (0x050 ≤ k && k ≤ 0x057) || (0x060 ≤ k && k ≤ 0x068) || k == 0x080 || k == 0x0F0

/-- The EXT word of an AMO: EXT.C[0] is the size, the rest of C and KC are zero (R87). -/
def amoExtOk (x : Ext) : Bool := x.c &&& 30#5 == 0#5 && x.kc == false && ordOk x.ord x.obs

/-- A well-formed instruction: the fate of every other term is R96's. -/
def Instr.wf : Instr → Bool
  | .nop _ g => guardOnly g
  | .illegalWord _ => true
  | .halt => true
  | .trap o => (o.d == 0#5) && (o.a == 0#5) && (o.ka == false) && (o.kb == false)
  | .tret o => (o.d == 0#5) && (o.a == 0#5) && (o.b == 0#5) && (o.ka == false) && (o.kb == false)
  | .gfence o => (o.d == 0#5) && (o.a == 0#5) && (o.b == 0#5) && (o.ka == false) && (o.kb == false)
  | .bsync o => (o.d == 0#5) && (o.a == 0#5) && (o.b &&& 28#5 == 0#5) && (o.ka == false) && (o.kb == false)
  | .tstamp o => (o.a == 0#5) && (o.b == 0#5) && (o.ka == false) && (o.kb == false)
  | .rngd o => (o.a == 0#5) && (o.b == 0#5) && (o.ka == false) && (o.kb == false)
  | .cntr o => (o.a == 0#5) && (o.b &&& 16#5 == 0#5) && (o.ka == false) && (o.kb == false)
  | .nlaunch o => (o.d == 0#5) && (o.a == 0#5) && (o.b &&& 24#5 == 0#5) && (o.ka == false) && (o.kb == false)
  | .lqpop o => (o.a == 0#5) && (o.b == 0#5) && (o.ka == false) && (o.kb == false)
  | .lqpopNb o => (o.a == 0#5) && (o.b == 1#5) && (o.ka == false) && (o.kb == false)
  | .lvset o => (o.d == 0#5) && (o.b == 0#5) && (o.kb == false)
  | .epopen _ => true
  | .epclose _ => true
  | .rwpost o => (o.d == 0#5) && (o.b == 0#5) && (o.kb == false)
  | .jstat o => (o.a == 0#5) && (o.ka == false) && (o.kb == false) && decide (o.b.toNat < 22)
  | .wdld o => (o.d == 0#5) && (o.b &&& 28#5 == 0#5) && (o.kb == false)
  | .brk o => (o.d == 0#5) && (o.a == 0#5) && (o.ka == false) && (o.kb == false)
  | .add _ => true
  | .sub _ => true
  | .and _ => true
  | .or _ => true
  | .xor _ => true
  | .andn _ => true
  | .shl _ => true
  | .shr _ => true
  | .sra _ => true
  | .min _ => true
  | .max _ => true
  | .minu _ => true
  | .maxu _ => true
  | .seq _ => true
  | .slt _ => true
  | .sltu _ => true
  | .mul _ => true
  | .mulh _ => true
  | .mulhu _ => true
  | .div _ => true
  | .divu _ => true
  | .rem _ => true
  | .remu _ => true
  | .clz o => (o.b == 0#5) && (o.kb == false)
  | .ctz o => (o.b == 0#5) && (o.kb == false)
  | .popc o => (o.b == 0#5) && (o.kb == false)
  | .rol _ => true
  | .ror _ => true
  | .addw _ => true
  | .subw _ => true
  | .sel _ => true
  | .cmpEq o => (o.d &&& 24#5 == 0#5) && (o.d != 0#5)
  | .cmpNe o => (o.d &&& 24#5 == 0#5) && (o.d != 0#5)
  | .cmpLt o => (o.d &&& 24#5 == 0#5) && (o.d != 0#5)
  | .cmpGe o => (o.d &&& 24#5 == 0#5) && (o.d != 0#5)
  | .cmpLtu o => (o.d &&& 24#5 == 0#5) && (o.d != 0#5)
  | .cmpGeu o => (o.d &&& 24#5 == 0#5) && (o.d != 0#5)
  | .pand o => (o.d &&& 24#5 == 0#5) && (o.a &&& 24#5 == 0#5) && (o.b &&& 24#5 == 0#5) && (o.ka == false) && (o.kb == false) && (o.d != 0#5)
  | .por o => (o.d &&& 24#5 == 0#5) && (o.a &&& 24#5 == 0#5) && (o.b &&& 24#5 == 0#5) && (o.ka == false) && (o.kb == false) && (o.d != 0#5)
  | .pxor o => (o.d &&& 24#5 == 0#5) && (o.a &&& 24#5 == 0#5) && (o.b &&& 24#5 == 0#5) && (o.ka == false) && (o.kb == false) && (o.d != 0#5)
  | .pandn o => (o.d &&& 24#5 == 0#5) && (o.a &&& 24#5 == 0#5) && (o.b &&& 24#5 == 0#5) && (o.ka == false) && (o.kb == false) && (o.d != 0#5)
  | .pnot o => (o.d &&& 24#5 == 0#5) && (o.a &&& 24#5 == 0#5) && (o.b == 0#5) && (o.ka == false) && (o.kb == false) && (o.d != 0#5)
  | .pset o => (o.d &&& 24#5 == 0#5) && (o.a == 0#5) && (o.b == 0#5) && (o.ka == false) && (o.kb == false) && (o.d != 0#5)
  | .pclr o => (o.d &&& 24#5 == 0#5) && (o.a == 0#5) && (o.b == 0#5) && (o.ka == false) && (o.kb == false) && (o.d != 0#5)
  | .addi _ => true
  | .andi _ => true
  | .ori _ => true
  | .xori _ => true
  | .shli o => (o.imm &&& 960#10 == 0#10)
  | .shri o => (o.imm &&& 960#10 == 0#10)
  | .srai o => (o.imm &&& 960#10 == 0#10)
  | .slti _ => true
  | .muli _ => true
  | .li _ => true
  | .lil _ => true
  | .liw _ => true
  | .lix _ => true
  | .br o => (o.g == 0#4)
  | .bp _ => true
  | .bnp _ => true
  | .call _ => true
  | .bz _ => true
  | .bnz _ => true
  | .jr o => (o.d == 0#5) && (o.b == 0#5) && (o.kb == false)
  | .jrl o => (o.b == 0#5) && (o.kb == false)
  | .ld o => (o.kd == false) && (ordOk o.ord o.obs && (o.ord == 0#2 || o.ord == 1#2))
  | .lds o => (o.kd == false) && (ordOk o.ord o.obs && (o.ord == 0#2 || o.ord == 1#2))
  | .st o => (ordOk o.ord o.obs && (o.ord == 0#2 || o.ord == 2#2))
  | .amoAdd _ x => amoExtOk x
  | .amoAnd _ x => amoExtOk x
  | .amoOr _ x => amoExtOk x
  | .amoXor _ x => amoExtOk x
  | .amoMin _ x => amoExtOk x
  | .amoMax _ x => amoExtOk x
  | .amoMinu _ x => amoExtOk x
  | .amoMaxu _ x => amoExtOk x
  | .amoSwap _ x => amoExtOk x
  | .amoFadd _ x => amoExtOk x && (x.c == 0#5)
  | .cas _ _ x => ordOk x.ord x.obs
  | .fenceFull o => (o.obs != 0#5)
  | .fenceLd o => (o.obs != 0#5)
  | .fenceSt o => (o.obs != 0#5)
  | .fenceEng o => (o.obs != 0#5)
  | .movxr o => (o.b == 0#5) && (o.kb == false)
  | .movxk o => (o.b == 0#5) && (o.kb == false)
  | .movxw o => (o.d == 0#5)
  | .qcnt o => (o.a == 0#5) && (o.ka == false) && (o.kb == false)
  | .qdrop o => (o.d == 0#5) && (o.a == 0#5) && (o.ka == false) && (o.kb == false)
  | .qclr o => (o.d == 0#5) && (o.a == 0#5) && (o.ka == false) && (o.kb == false)
  | .tsig o => (o.d == 0#5) && (o.a == 0#5) && (o.b &&& 16#5 == 0#5) && (o.ka == false) && (o.kb == false)
  | .twait o => (o.d == 0#5) && (o.a == 0#5) && (o.b &&& 16#5 == 0#5) && (o.ka == false) && (o.kb == false)
  | .tpoll o => (o.a == 0#5) && (o.b &&& 16#5 == 0#5) && (o.ka == false) && (o.kb == false)
  | .loop o => lastOk o.last
  | .loopi o => lastOk o.last
  | .loopm _ => true
  | .csrr o => (o.a == 0#5) && (o.ka == false) && csrKnown o.csr
  | .csrw o => csrWritable o.csr
  | .csrs o => csrWritable o.csr
  | .csrc o => csrWritable o.csr
  | .vHalt => true
  | .vGfence o => (o.d == 0#4) && (o.a == 0#4) && (o.b == 0#4) && (o.ka == false) && (o.kb == false) && (o.et == 0#2) && guardOnly o.gm
  | .vTsig o => (o.d == 0#4) && (o.b == 0#4) && (o.ka == false) && (o.kb == false) && (o.et == 0#2) && guardOnly o.gm
  | .vTwait o => (o.d == 0#4) && (o.b == 0#4) && (o.ka == false) && (o.kb == false) && (o.et == 0#2) && guardOnly o.gm
  | .vTpoll o => (o.b == 0#4) && (o.ka == false) && (o.kb == false) && (o.et == 0#2) && guardOnly o.gm
  | .vBrk o => (o.d == 0#4) && (o.a == 0#4) && (o.ka == false) && (o.kb == false) && (o.et == 0#2) && guardOnly o.gm
  | .vadd o => etInt o.et
  | .vsub o => etInt o.et
  | .vmul o => etInt o.et
  | .vmulh o => etInt o.et
  | .vmulhu o => etInt o.et
  | .vmad o => etInt o.et
  | .vmin o => etInt o.et
  | .vmax o => etInt o.et
  | .vminu o => etInt o.et
  | .vmaxu o => etInt o.et
  | .vabs o => (o.b == 0#4) && (o.kb == false) && etInt o.et
  | .vand o => etInt o.et
  | .vor o => etInt o.et
  | .vxor o => etInt o.et
  | .vandn o => etInt o.et
  | .vshl o => etInt o.et
  | .vshr o => etInt o.et
  | .vsra o => etInt o.et
  | .vfsl o => etInt o.et
  | .vfsr o => etInt o.et
  | .vclz o => (o.b == 0#4) && (o.kb == false) && etInt o.et
  | .vpopc o => (o.b == 0#4) && (o.kb == false) && etInt o.et
  | .vadds o => etInt o.et
  | .vsubs o => etInt o.et
  | .vaddsu o => etInt o.et
  | .vsubsu o => etInt o.et
  | .vavgu o => etInt o.et
  | .vcmpEq o => (o.d &&& 8#4 == 0#4) && etInt o.et && (o.d != 0#4)
  | .vcmpNe o => (o.d &&& 8#4 == 0#4) && etInt o.et && (o.d != 0#4)
  | .vcmpLt o => (o.d &&& 8#4 == 0#4) && etInt o.et && (o.d != 0#4)
  | .vcmpGe o => (o.d &&& 8#4 == 0#4) && etInt o.et && (o.d != 0#4)
  | .vcmpLtu o => (o.d &&& 8#4 == 0#4) && etInt o.et && (o.d != 0#4)
  | .vcmpGeu o => (o.d &&& 8#4 == 0#4) && etInt o.et && (o.d != 0#4)
  | .vcmpFeq o => (o.d &&& 8#4 == 0#4) && etFp o.et && (o.d != 0#4)
  | .vcmpFlt o => (o.d &&& 8#4 == 0#4) && etFp o.et && (o.d != 0#4)
  | .vcmpFle o => (o.d &&& 8#4 == 0#4) && etFp o.et && (o.d != 0#4)
  | .vcmpFun o => (o.d &&& 8#4 == 0#4) && etFp o.et && (o.d != 0#4)
  | .fadd o => etFp o.et
  | .fsub o => etFp o.et
  | .fmul o => etFp o.et
  | .fma o => etFp o.et
  | .fmin o => etFp o.et
  | .fmax o => etFp o.et
  | .fabs o => (o.b == 0#4) && (o.kb == false) && etFp o.et
  | .fneg o => (o.b == 0#4) && (o.kb == false) && etFp o.et
  | .frcp o => (o.b == 0#4) && (o.kb == false) && etFp o.et
  | .frsq o => (o.b == 0#4) && (o.kb == false) && etFp o.et
  | .fsqrt o => (o.b == 0#4) && (o.kb == false) && etFp o.et
  | .fexp2 o => (o.b == 0#4) && (o.kb == false) && etFp o.et
  | .flog2 o => (o.b == 0#4) && (o.kb == false) && etFp o.et
  | .cvt o code => (o.b == 0#4) && (o.kb == false) && (o.et == 0#2) && decide (code.toNat < 28)
  | .radd o => (o.b == 0#4) && (o.kb == false) && etInt o.et
  | .rfadd o => (o.b == 0#4) && (o.kb == false) && etFp o.et
  | .rmin o => (o.b == 0#4) && (o.kb == false) && etInt o.et
  | .rmax o => (o.b == 0#4) && (o.kb == false) && etInt o.et
  | .rminu o => (o.b == 0#4) && (o.kb == false) && etInt o.et
  | .rmaxu o => (o.b == 0#4) && (o.kb == false) && etInt o.et
  | .rand o => (o.b == 0#4) && (o.kb == false) && etInt o.et
  | .vredRor o => (o.b == 0#4) && (o.kb == false) && etInt o.et
  | .rxor o => (o.b == 0#4) && (o.kb == false) && etInt o.et
  | .rimax o => (o.b == 0#4) && (o.kb == false) && etInt o.et
  | .vscan o => (o.b == 0#4) && (o.kb == false) && etInt o.et
  | .vfscan o => (o.b == 0#4) && (o.kb == false) && etFp o.et
  | .vperm o => etInt o.et
  | .vslup o => etInt o.et
  | .vsldn o => etInt o.et
  | .vcmpr o => (o.b &&& 8#4 == 0#4) && (o.kb == false) && etInt o.et
  | .vexpd o => (o.b &&& 8#4 == 0#4) && (o.kb == false) && etInt o.et
  | .vsplt o => etInt o.et
  | .vsel o => etInt o.et
  | .vins o => (o.b &&& 8#4 == 0#4) && etInt o.et
  | .vext o => (o.d &&& 8#4 == 0#4) && guardOnly o.gm && etInt o.et
  | .vbcst o => (o.b == 0#4) && (o.kb == false) && etInt o.et
  | .mand o => (o.d &&& 8#4 == 0#4) && (o.a &&& 8#4 == 0#4) && (o.b &&& 8#4 == 0#4) && (o.ka == false) && (o.kb == false) && (o.et == 0#2) && (o.d != 0#4)
  | .mor o => (o.d &&& 8#4 == 0#4) && (o.a &&& 8#4 == 0#4) && (o.b &&& 8#4 == 0#4) && (o.ka == false) && (o.kb == false) && (o.et == 0#2) && (o.d != 0#4)
  | .mxor o => (o.d &&& 8#4 == 0#4) && (o.a &&& 8#4 == 0#4) && (o.b &&& 8#4 == 0#4) && (o.ka == false) && (o.kb == false) && (o.et == 0#2) && (o.d != 0#4)
  | .mandn o => (o.d &&& 8#4 == 0#4) && (o.a &&& 8#4 == 0#4) && (o.b &&& 8#4 == 0#4) && (o.ka == false) && (o.kb == false) && (o.et == 0#2) && (o.d != 0#4)
  | .mnot o => (o.d &&& 8#4 == 0#4) && (o.a &&& 8#4 == 0#4) && (o.b == 0#4) && (o.ka == false) && (o.kb == false) && (o.et == 0#2) && (o.d != 0#4)
  | .mpop o => (o.a &&& 8#4 == 0#4) && (o.b == 0#4) && (o.ka == false) && (o.kb == false) && (o.et == 0#2)
  | .mset o => (o.d &&& 8#4 == 0#4) && (o.a == 0#4) && (o.b == 0#4) && (o.ka == false) && (o.kb == false) && (o.et == 0#2) && (o.d != 0#4)
  | .mclr o => (o.d &&& 8#4 == 0#4) && (o.a == 0#4) && (o.b == 0#4) && (o.ka == false) && (o.kb == false) && (o.et == 0#2) && (o.d != 0#4)
  | .mfromv o => (o.d &&& 8#4 == 0#4) && (o.b == 0#4) && (o.kb == false) && (o.et == 0#2) && (o.d != 0#4)
  | .mtov o => (o.a &&& 8#4 == 0#4) && (o.b == 0#4) && (o.ka == false) && (o.kb == false) && (o.et == 0#2)
  | .vld o => (o.kd == false) && etInt o.et
  | .vst o => etInt o.et
  | .vstb o => (o.et == 0#2)
  | .vgath o => etInt o.et
  | .vscat o => (o.kd == false) && etInt o.et
  | .vwmac o => (o.mode &&& 128#8 == 0#8)
  | .vwpool o => (o.a == 0#4) && (o.ka == false) && (o.mode &&& 192#8 == 0#8)
  | .aadd o => (o.imm &&& 4080#12 == 0#12)
  | .aaddi _ => true
  | .ali o => (o.a == 0#4) && (o.ka == false)
  | .alih _ => true
  | .afrom o => (o.a &&& 8#4 == 0#4) && (o.imm == 0#12)
  | .ato o => (o.d &&& 8#4 == 0#4) && (o.imm == 0#12)
  | .vaddi o => etInt o.et
  | .vandi o => etInt o.et
  | .vshli o => etInt o.et && vcountOk o.et o.imm
  | .vshri o => etInt o.et && vcountOk o.et o.imm
  | .vsrai o => etInt o.et && vcountOk o.et o.imm
  | .pquant o => (o.e == 0#5) && (o.mode &&& 32#7 == 0#7)
  | .pldf o => (o.e == 0#5) && (o.mode &&& 124#7 == 0#7) && guardOnly o.gm
  | .pstf o => (o.e == 0#5) && (o.mode &&& 124#7 == 0#7) && guardOnly o.gm
  | .rcinit o => (o.fr == 0#4) && (o.mode == 0#7) && guardOnly o.gm
  | .rcenc o => (o.mode == 0#7) && guardOnly o.gm
  | .rcdec o => (o.kx == false) && (o.mode == 0#7) && guardOnly o.gm
  | .rcencv o => (o.mode &&& 126#7 == 0#7) && (decide (o.e.toNat ≤ 16) && (o.mode &&& 1#7 != 0#7 || o.fr == 0#4))
  | .rcdecv o => (o.kx == false) && (o.mode &&& 126#7 == 0#7) && (decide (o.e.toNat ≤ 16) && (o.mode &&& 1#7 != 0#7 || o.fr == 0#4))
  | .rcbinv o => (o.fr == 0#4) && (o.mode &&& 96#7 == 0#7) && (decide (o.e.toNat + (o.mode &&& 31#7).toNat + 1 ≤ 32))
  | .rcbinvEnc o => (o.fr == 0#4) && (o.mode &&& 96#7 == 64#7) && (decide (o.e.toNat + (o.mode &&& 31#7).toNat + 1 ≤ 32))
  | .rcflush o => (o.fr == 0#4) && (o.x == 0#4) && (o.kx == false) && (o.mode == 0#7) && guardOnly o.gm
  | .rcmark o => (o.fr == 0#4) && (o.x == 0#4) && (o.kx == false) && (o.mode == 0#7) && guardOnly o.gm
  | .rcback o => (o.fr == 0#4) && (o.x == 0#4) && (o.kx == false) && (o.mode == 0#7) && guardOnly o.gm
  | .rcstat o => (o.fr == 0#4) && (o.x &&& 8#4 == 0#4) && (o.kx == false) && (o.mode == 0#7) && guardOnly o.gm
  | .mHalt => true
  | .mGfence o => (o.a == 0#4)
  | .mTsig _ => true
  | .mTwait _ => true
  | .mBrk _ => true
  | .mfmt o => (o.a == 0#4) && (o.b == 0#4) && (o.c == 0#4) && (o.k1 == false) && (o.k2 == false) && (o.k3 == false) && (o.mode &&& 48#6 == 0#6) && guardOnly o.g && (fmtOk (o.mode &&& 15#6))
  | .mfmtT o => (o.a == 0#4) && (o.b == 0#4) && (o.c == 0#4) && (o.k1 == false) && (o.k2 == false) && (o.k3 == false) && (o.mode &&& 48#6 == 16#6) && guardOnly o.g && (fmtOk (o.mode &&& 15#6))
  | .mldw o => (o.c == 0#4) && (o.k3 == false) && (o.mode == 0#6) && guardOnly o.g
  | .mswap o => (o.a == 0#4) && (o.b == 0#4) && (o.c == 0#4) && (o.k1 == false) && (o.k2 == false) && (o.k3 == false) && (o.mode == 0#6) && guardOnly o.g
  | .mstr o => (o.mode &&& 62#6 == 0#6) && guardOnly o.g
  | .mwin o => (o.mode &&& 56#6 == 0#6) && guardOnly o.g
  | .mzero o => (o.c == 0#4) && (o.k3 == false) && (o.mode == 0#6) && guardOnly o.g
  | .mout o => guardOnly o.g && (outFmtOk (o.mode &&& 15#6) && (o.mode &&& 48#6 != 48#6))
  | .mkat o _ => (o.b == 0#4) && (o.c == 0#4) && (o.k2 == false) && (o.k3 == false) && (o.mode == 0#6) && guardOnly o.g
  | .xHalt => true
  | .xGfence o => (o.a == 0#4)
  | .xTsig _ => true
  | .xTwait _ => true
  | .xBrk _ => true
  | .xstat o => (o.a &&& 8#4 == 0#4)
  | .xcpy o => (o.mode &&& 48#6 == 0#6) && guardOnly o.g
  | .xcpy2 o => (o.b == 0#4) && (o.c == 0#4) && (o.k2 == false) && (o.k3 == false) && (o.mode == 0#6) && guardOnly o.g
  | .xgath o => (o.mode &&& 48#6 == 0#6) && guardOnly o.g
  | .xscat o => (o.mode &&& 48#6 == 0#6) && guardOnly o.g
  | .xfill o => (o.mode &&& 60#6 == 0#6) && guardOnly o.g
  | .xsend o => (o.mode &&& 48#6 == 0#6) && guardOnly o.g
  | .xpeer o => (o.mode &&& 51#6 == 0#6) && guardOnly o.g
  | .xlbw o => (o.c == 0#4) && (o.k3 == false) && (o.mode == 0#6) && guardOnly o.g
  | .xlbc o => (o.c == 0#4) && (o.k1 == false) && (o.k3 == false) && (o.mode == 0#6) && guardOnly o.g
  | .xred o => (o.mode &&& 16#6 == 0#6) && guardOnly o.g && (o.mode &&& 12#6 != 12#6)
  | .xreds o => (o.mode &&& 16#6 == 16#6) && guardOnly o.g && (o.mode &&& 12#6 != 12#6)
  | .xpref o => (o.c == 0#4) && (o.k3 == false) && (o.mode == 0#6) && guardOnly o.g
  | .resultDue _ _ => true
  | .moduloPassEnd _ => true
  | .haltBundleRetire _ => true
  | .engineOpStart _ _ => true
  | .engineOpComplete _ _ => true
  | .asyncFault _ _ => true
  | .trapEntry _ => true
  | .firmwareResume _ => true
  | .firmwareFail _ => true
  | .firmwareRerun _ => true
  | .barrierRelease _ _ => true
  | .post _ => true
  | .perform _ => true
  | .ack _ => true
  | .read _ => true
  | .readCacheEvict _ _ => true
  | .pageWalk _ _ _ => true
  | .tlbPrefetchWalk _ _ => true
  | .coderEmissionWrite _ _ => true
  | .coderReadAhead _ _ => true
  | .xpeerArrival _ => true
  | .xpeerAcknowledge _ _ _ => true
  | .rewardMessageArrival _ => true
  | .barrierTokenArrival _ => true
  | .peerAccess _ => true
  | .flitRetry _ => true
  | .lsaLossTimeout _ => true
  | .joinMessageIntake _ => true
  | .openDeadline _ => true
  | .closeDeadlineDrop _ => true
  | .closeDeadlineFill _ => true
  | .jholdExpiry _ => true
  | .scanTake _ => true
  | .releaseRecordEntry _ => true
  | .scanJob _ => true
  | .lqtailWrite _ _ _ => true
  | .lqstatOvrClear _ _ _ => true
  | .lqerrWrite _ _ => true
  | .launch _ _ => true
  | .setonly _ _ => true
  | .packetFence _ _ => true
  | .signal _ _ => true
  | .nodePlacement _ _ => true
  | .nodeCompletion _ => true
  | .copyNode _ => true
  | .unsplicedRerun _ => true
  | .agePromotion _ => true
  | .reservation _ => true
  | .nodeBoundaryPreemption _ => true
  | .urgentPreemption _ => true
  | .urgentLimitExpiry _ => true
  | .shadowExchange _ => true
  | .preemptResume _ => true
  | .tlbinvGo _ _ => true
  | .tlbinvRejClear _ => true
  | .tlbinvComplete _ => true
  | .jownerWrite _ => true
  | .cellmodeWrite _ _ => true
  | .cellmodeHeldApply _ => true
  | .domainRegisterWrite _ _ _ => true
  | .grantTableLoad _ => true
  | .reliabilityStateWrite _ _ => true
  | .deadLetterAck _ => true
  | .deadLetterClear => true
  | .registerWrite _ => true
  | .capabilityFault _ => true
  | .partitionReset _ => true
  | .cellRepartition _ _ => true
  | .deviceReset _ => true
  | .hostMemRead _ _ => true
  | .hostMemWrite _ _ => true
  | .getVersion => true
  | .getCapabilities => true
  | .negotiateAlgorithms => true
  | .getDigests => true
  | .getCertificate _ _ _ => true
  | .challenge _ => true
  | .getMeasurements _ _ => true
  | .spdmUnsupported _ => true
  | .debugToken _ => true
  | .debugHaltRequest _ => true
  | .powerP1 _ => true
  | .powerC1 _ => true
  | .powerC2 _ => true
  | .powerC3 => true
  | .powerWake _ => true
  | .leaveTenant _ => true
  | .droopAlarm _ => true
  | .droopHalfRateEnd _ => true
  | .tstampTick => true
  | .suspicionDecay => true
  | .targetedTestStart _ => true
  | .targetedTestEnd _ _ => true
  | .scrubPatrol _ => true
  | .debugResume _ _ => true
  | .debugStateSet _ _ => true
  | .partitionCreation _ => true
  | .hubLinkChecksumRetry _ => true
  | .firmwareStore _ _ => true
  | .pageMigrationCopy _ _ _ => true
  | .giuthPortTraining _ _ => true

end Sys2Proof
end

