-- ==== Sys2Proof/Decode.lean ====
section
/-!
DEFINITION. Decoding and encoding, from the layouts and opcode maps of 04 (R81 to R96).
`decode` is total on any bytes. A word that is no instruction decodes to `illegalWord` (R96), and bytes that end before
the word, or before the second word of a pair (R82), are rejected as `truncated`.
-/
namespace Sys2Proof

/-- Bits [lo + w - 1 : lo] of a word. -/
def field (n lo w : Nat) : BitVec w := BitVec.ofNat w (n / 2 ^ lo)

/-- Bit lo of a word. -/
def bitAt (n lo : Nat) : Bool := decide (n / 2 ^ lo % 2 = 1)

/-- The major opcode (R81). -/
def opOf (n : Nat) : Nat := n / 2 ^ 25 % 64

/-! ## Packing and unpacking of each layout (R86, R90, R93) -/

def SR.pack (op f : Nat) (o : SR) : Nat :=
  2 ^ 25 * op + f + 2 ^ 31 * o.j.toNat + 2 ^ 20 * o.d.toNat + 2 ^ 15 * o.a.toNat + 2 ^ 10 * o.b.toNat + 2 ^ 9 * o.ka.toNat + 2 ^ 8 * o.kb.toNat + 2 ^ 4 * o.g.toNat
def SR.unpack (n : Nat) : SR where
  j := bitAt n 31
  d := field n 20 5
  a := field n 15 5
  b := field n 10 5
  ka := bitAt n 9
  kb := bitAt n 8
  g := field n 4 4
def SR.fn (n : Nat) : Nat := n / 2 ^ 0 % 16

def SI.pack (op : Nat) (o : SI) : Nat :=
  2 ^ 25 * op + 2 ^ 31 * o.j.toNat + 2 ^ 20 * o.d.toNat + 2 ^ 15 * o.a.toNat + 2 ^ 14 * o.ka.toNat + 2 ^ 10 * o.g.toNat + o.imm.toNat
def SI.unpack (n : Nat) : SI where
  j := bitAt n 31
  d := field n 20 5
  a := field n 15 5
  ka := bitAt n 14
  g := field n 10 4
  imm := field n 0 10

def SL.pack (op : Nat) (o : SL) : Nat :=
  2 ^ 25 * op + 2 ^ 31 * o.j.toNat + 2 ^ 20 * o.d.toNat + 2 ^ 16 * o.g.toNat + o.imm.toNat
def SL.unpack (n : Nat) : SL where
  j := bitAt n 31
  d := field n 20 5
  g := field n 16 4
  imm := field n 0 16

def SB.pack (op : Nat) (o : SB) : Nat :=
  2 ^ 25 * op + 2 ^ 31 * o.j.toNat + 2 ^ 21 * o.g.toNat + o.off.toNat
def SB.unpack (n : Nat) : SB where
  j := bitAt n 31
  g := field n 21 4
  off := field n 0 21

def SBZ.pack (op : Nat) (o : SBZ) : Nat :=
  2 ^ 25 * op + 2 ^ 31 * o.j.toNat + 2 ^ 20 * o.a.toNat + 2 ^ 19 * o.ka.toNat + o.off.toNat
def SBZ.unpack (n : Nat) : SBZ where
  j := bitAt n 31
  a := field n 20 5
  ka := bitAt n 19
  off := field n 0 19

def SM.pack (op : Nat) (o : SM) : Nat :=
  2 ^ 25 * op + 2 ^ 31 * o.j.toNat + 2 ^ 20 * o.d.toNat + 2 ^ 15 * o.a.toNat + 2 ^ 14 * o.ka.toNat + 2 ^ 13 * o.kd.toNat + 2 ^ 11 * o.sz.toNat + 2 ^ 9 * o.ord.toNat + 2 ^ 4 * o.obs.toNat + o.g.toNat
def SM.unpack (n : Nat) : SM where
  j := bitAt n 31
  d := field n 20 5
  a := field n 15 5
  ka := bitAt n 14
  kd := bitAt n 13
  sz := field n 11 2
  ord := field n 9 2
  obs := field n 4 5
  g := field n 0 4

def SX.pack (op f : Nat) (o : SX) : Nat :=
  2 ^ 25 * op + f + 2 ^ 31 * o.j.toNat + 2 ^ 20 * o.d.toNat + 2 ^ 15 * o.a.toNat + 2 ^ 10 * o.b.toNat + 2 ^ 9 * o.ka.toNat + 2 ^ 8 * o.kb.toNat
def SX.unpack (n : Nat) : SX where
  j := bitAt n 31
  d := field n 20 5
  a := field n 15 5
  b := field n 10 5
  ka := bitAt n 9
  kb := bitAt n 8
def SX.fn (n : Nat) : Nat := n / 2 ^ 0 % 256

def SF.pack (op f : Nat) (o : SF) : Nat :=
  2 ^ 25 * op + f + 2 ^ 31 * o.j.toNat + 2 ^ 3 * o.obs.toNat
def SF.unpack (n : Nat) : SF where
  j := bitAt n 31
  obs := field n 3 5
def SF.fn (n : Nat) : Nat := n / 2 ^ 0 % 8

def SC.pack (op : Nat) (o : SC) : Nat :=
  2 ^ 25 * op + 2 ^ 31 * o.j.toNat + 2 ^ 20 * o.d.toNat + 2 ^ 15 * o.a.toNat + 2 ^ 14 * o.ka.toNat + o.csr.toNat
def SC.unpack (n : Nat) : SC where
  j := bitAt n 31
  d := field n 20 5
  a := field n 15 5
  ka := bitAt n 14
  csr := field n 0 12

def SLP.pack (op : Nat) (o : SLP) : Nat :=
  2 ^ 25 * op + 2 ^ 31 * o.j.toNat + 2 ^ 24 * o.lv.toNat + 2 ^ 19 * o.a.toNat + 2 ^ 18 * o.ka.toNat + o.last.toNat
def SLP.unpack (n : Nat) : SLP where
  j := bitAt n 31
  lv := bitAt n 24
  a := field n 19 5
  ka := bitAt n 18
  last := field n 0 18

def SLI.pack (op : Nat) (o : SLI) : Nat :=
  2 ^ 25 * op + 2 ^ 31 * o.j.toNat + 2 ^ 24 * o.lv.toNat + 2 ^ 14 * o.count.toNat + o.last.toNat
def SLI.unpack (n : Nat) : SLI where
  j := bitAt n 31
  lv := bitAt n 24
  count := field n 14 10
  last := field n 0 14

def SLM.pack (op : Nat) (o : SLM) : Nat :=
  2 ^ 25 * op + 2 ^ 31 * o.j.toNat + 2 ^ 21 * o.ii.toNat + 2 ^ 18 * o.stages.toNat + 2 ^ 17 * o.rb.toNat + 2 ^ 12 * o.a.toNat + 2 ^ 11 * o.ka.toNat
def SLM.unpack (n : Nat) : SLM where
  j := bitAt n 31
  ii := field n 21 4
  stages := field n 18 3
  rb := bitAt n 17
  a := field n 12 5
  ka := bitAt n 11

def VR.pack (op f : Nat) (o : VR) : Nat :=
  2 ^ 25 * op + f + 2 ^ 31 * o.j.toNat + 2 ^ 21 * o.d.toNat + 2 ^ 17 * o.a.toNat + 2 ^ 13 * o.b.toNat + 2 ^ 12 * o.ka.toNat + 2 ^ 11 * o.kb.toNat + 2 ^ 7 * o.gm.toNat + 2 ^ 5 * o.et.toNat
def VR.unpack (n : Nat) : VR where
  j := bitAt n 31
  d := field n 21 4
  a := field n 17 4
  b := field n 13 4
  ka := bitAt n 12
  kb := bitAt n 11
  gm := field n 7 4
  et := field n 5 2
def VR.fn (n : Nat) : Nat := n / 2 ^ 0 % 32

def VI.pack (op : Nat) (o : VI) : Nat :=
  2 ^ 25 * op + 2 ^ 31 * o.j.toNat + 2 ^ 21 * o.d.toNat + 2 ^ 17 * o.a.toNat + 2 ^ 16 * o.ka.toNat + 2 ^ 12 * o.gm.toNat + 2 ^ 10 * o.et.toNat + o.imm.toNat
def VI.unpack (n : Nat) : VI where
  j := bitAt n 31
  d := field n 21 4
  a := field n 17 4
  ka := bitAt n 16
  gm := field n 12 4
  et := field n 10 2
  imm := field n 0 10

def VM.pack (op : Nat) (o : VM) : Nat :=
  2 ^ 25 * op + 2 ^ 31 * o.j.toNat + 2 ^ 21 * o.d.toNat + 2 ^ 17 * o.a.toNat + 2 ^ 16 * o.ka.toNat + 2 ^ 15 * o.kd.toNat + 2 ^ 11 * o.gm.toNat + 2 ^ 9 * o.et.toNat + 2 ^ 7 * o.sp.toNat + o.off.toNat
def VM.unpack (n : Nat) : VM where
  j := bitAt n 31
  d := field n 21 4
  a := field n 17 4
  ka := bitAt n 16
  kd := bitAt n 15
  gm := field n 11 4
  et := field n 9 2
  sp := field n 7 2
  off := field n 0 7

def VA.pack (op f : Nat) (o : VA) : Nat :=
  2 ^ 25 * op + 2 ^ 12 * f + 2 ^ 31 * o.j.toNat + 2 ^ 21 * o.d.toNat + 2 ^ 17 * o.a.toNat + 2 ^ 16 * o.ka.toNat + o.imm.toNat
def VA.unpack (n : Nat) : VA where
  j := bitAt n 31
  d := field n 21 4
  a := field n 17 4
  ka := bitAt n 16
  imm := field n 0 12
def VA.fn (n : Nat) : Nat := n / 2 ^ 12 % 16

def VC.pack (op : Nat) (o : VC) : Nat :=
  2 ^ 25 * op + 2 ^ 31 * o.j.toNat + 2 ^ 20 * o.e.toNat + 2 ^ 16 * o.fr.toNat + 2 ^ 12 * o.x.toNat + 2 ^ 11 * o.kx.toNat + 2 ^ 7 * o.gm.toNat + o.mode.toNat
def VC.unpack (n : Nat) : VC where
  j := bitAt n 31
  e := field n 20 5
  fr := field n 16 4
  x := field n 12 4
  kx := bitAt n 11
  gm := field n 7 4
  mode := field n 0 7

def VW.pack (op : Nat) (o : VW) : Nat :=
  2 ^ 25 * op + 2 ^ 31 * o.j.toNat + 2 ^ 21 * o.d.toNat + 2 ^ 17 * o.a.toNat + 2 ^ 16 * o.ka.toNat + 2 ^ 14 * o.wd.toNat + 2 ^ 10 * o.gm.toNat + 2 ^ 8 * o.et.toNat + o.mode.toNat
def VW.unpack (n : Nat) : VW where
  j := bitAt n 31
  d := field n 21 4
  a := field n 17 4
  ka := bitAt n 16
  wd := field n 14 2
  gm := field n 10 4
  et := field n 8 2
  mode := field n 0 8

def MA.pack (op : Nat) (o : MA) : Nat :=
  2 ^ 25 * op + 2 ^ 31 * o.j.toNat + 2 ^ 21 * o.a.toNat + 2 ^ 17 * o.b.toNat + 2 ^ 13 * o.c.toNat + 2 ^ 12 * o.k1.toNat + 2 ^ 11 * o.k2.toNat + 2 ^ 10 * o.k3.toNat + 2 ^ 6 * o.g.toNat + o.mode.toNat
def MA.unpack (n : Nat) : MA where
  j := bitAt n 31
  a := field n 21 4
  b := field n 17 4
  c := field n 13 4
  k1 := bitAt n 12
  k2 := bitAt n 11
  k3 := bitAt n 10
  g := field n 6 4
  mode := field n 0 6

def MS.pack (op f : Nat) (o : MS) : Nat :=
  2 ^ 25 * op + f + 2 ^ 31 * o.j.toNat + 2 ^ 21 * o.a.toNat
def MS.unpack (n : Nat) : MS where
  j := bitAt n 31
  a := field n 21 4
def MS.fn (n : Nat) : Nat := n / 2 ^ 0 % 64

def Ext.pack (x : Ext) : Nat :=
  2 ^ 27 * x.obs.toNat + 2 ^ 25 * x.ord.toNat + 2 ^ 20 * x.c.toNat + 2 ^ 19 * x.kc.toNat
def Ext.unpack (n : Nat) : Ext where
  obs := field n 27 5
  ord := field n 25 2
  c := field n 20 5
  kc := bitAt n 19

/-! ## The encoder -/

/-- The words of an instruction in a stream, or none where the stream has no such word (R81 to R95). -/
def encodeNat (st : Stream) : Instr → Option (List Nat)
  | .nop j g => match st with
    | .s => if g = 0#4 then some [2 ^ 31 * j.toNat] else none
    | .v => some [2 ^ 31 * j.toNat + 2 ^ 7 * g.toNat]
    | _ => if g = 0#4 then some [2 ^ 31 * j.toNat] else none
  | .illegalWord _ => none
  | .halt => match st with | .s => some [0x80000008] | _ => none
  | .trap o => match st with | .s => some [o.pack 0x0 16] | _ => none
  | .tret o => match st with | .s => some [o.pack 0x0 24] | _ => none
  | .gfence o => match st with | .s => some [o.pack 0x0 32] | _ => none
  | .bsync o => match st with | .s => some [o.pack 0x0 40] | _ => none
  | .tstamp o => match st with | .s => some [o.pack 0x0 48] | _ => none
  | .rngd o => match st with | .s => some [o.pack 0x0 56] | _ => none
  | .cntr o => match st with | .s => some [o.pack 0x0 64] | _ => none
  | .nlaunch o => match st with | .s => some [o.pack 0x0 72] | _ => none
  | .lqpop o => match st with | .s => some [o.pack 0x0 80] | _ => none
  | .lqpopNb o => match st with | .s => some [o.pack 0x0 80] | _ => none
  | .lvset o => match st with | .s => some [o.pack 0x0 88] | _ => none
  | .epopen o => match st with | .s => some [o.pack 0x0 96] | _ => none
  | .epclose o => match st with | .s => some [o.pack 0x0 104] | _ => none
  | .rwpost o => match st with | .s => some [o.pack 0x0 112] | _ => none
  | .jstat o => match st with | .s => some [o.pack 0x0 120] | _ => none
  | .wdld o => match st with | .s => some [o.pack 0x0 128] | _ => none
  | .brk o => match st with | .s => some [o.pack 0x0 136] | _ => none
  | .add o => match st with | .s => some [o.pack 0x1 0] | _ => none
  | .sub o => match st with | .s => some [o.pack 0x1 1] | _ => none
  | .and o => match st with | .s => some [o.pack 0x1 2] | _ => none
  | .or o => match st with | .s => some [o.pack 0x1 3] | _ => none
  | .xor o => match st with | .s => some [o.pack 0x1 4] | _ => none
  | .andn o => match st with | .s => some [o.pack 0x1 5] | _ => none
  | .shl o => match st with | .s => some [o.pack 0x1 6] | _ => none
  | .shr o => match st with | .s => some [o.pack 0x1 7] | _ => none
  | .sra o => match st with | .s => some [o.pack 0x1 8] | _ => none
  | .min o => match st with | .s => some [o.pack 0x1 9] | _ => none
  | .max o => match st with | .s => some [o.pack 0x1 10] | _ => none
  | .minu o => match st with | .s => some [o.pack 0x1 11] | _ => none
  | .maxu o => match st with | .s => some [o.pack 0x1 12] | _ => none
  | .seq o => match st with | .s => some [o.pack 0x1 13] | _ => none
  | .slt o => match st with | .s => some [o.pack 0x1 14] | _ => none
  | .sltu o => match st with | .s => some [o.pack 0x1 15] | _ => none
  | .mul o => match st with | .s => some [o.pack 0x2 0] | _ => none
  | .mulh o => match st with | .s => some [o.pack 0x2 1] | _ => none
  | .mulhu o => match st with | .s => some [o.pack 0x2 2] | _ => none
  | .div o => match st with | .s => some [o.pack 0x2 3] | _ => none
  | .divu o => match st with | .s => some [o.pack 0x2 4] | _ => none
  | .rem o => match st with | .s => some [o.pack 0x2 5] | _ => none
  | .remu o => match st with | .s => some [o.pack 0x2 6] | _ => none
  | .clz o => match st with | .s => some [o.pack 0x2 7] | _ => none
  | .ctz o => match st with | .s => some [o.pack 0x2 8] | _ => none
  | .popc o => match st with | .s => some [o.pack 0x2 9] | _ => none
  | .rol o => match st with | .s => some [o.pack 0x2 10] | _ => none
  | .ror o => match st with | .s => some [o.pack 0x2 11] | _ => none
  | .addw o => match st with | .s => some [o.pack 0x2 12] | _ => none
  | .subw o => match st with | .s => some [o.pack 0x2 13] | _ => none
  | .sel o => match st with | .s => some [o.pack 0x2 14] | _ => none
  | .cmpEq o => match st with | .s => some [o.pack 0x3 0] | _ => none
  | .cmpNe o => match st with | .s => some [o.pack 0x3 1] | _ => none
  | .cmpLt o => match st with | .s => some [o.pack 0x3 2] | _ => none
  | .cmpGe o => match st with | .s => some [o.pack 0x3 3] | _ => none
  | .cmpLtu o => match st with | .s => some [o.pack 0x3 4] | _ => none
  | .cmpGeu o => match st with | .s => some [o.pack 0x3 5] | _ => none
  | .pand o => match st with | .s => some [o.pack 0x4 0] | _ => none
  | .por o => match st with | .s => some [o.pack 0x4 1] | _ => none
  | .pxor o => match st with | .s => some [o.pack 0x4 2] | _ => none
  | .pandn o => match st with | .s => some [o.pack 0x4 3] | _ => none
  | .pnot o => match st with | .s => some [o.pack 0x4 4] | _ => none
  | .pset o => match st with | .s => some [o.pack 0x4 5] | _ => none
  | .pclr o => match st with | .s => some [o.pack 0x4 6] | _ => none
  | .addi o => match st with | .s => some [o.pack 0x5] | _ => none
  | .andi o => match st with | .s => some [o.pack 0x6] | _ => none
  | .ori o => match st with | .s => some [o.pack 0x7] | _ => none
  | .xori o => match st with | .s => some [o.pack 0x8] | _ => none
  | .shli o => match st with | .s => some [o.pack 0x9] | _ => none
  | .shri o => match st with | .s => some [o.pack 0xa] | _ => none
  | .srai o => match st with | .s => some [o.pack 0xb] | _ => none
  | .slti o => match st with | .s => some [o.pack 0xc] | _ => none
  | .muli o => match st with | .s => some [o.pack 0xd] | _ => none
  | .li o => match st with | .s => some [o.pack 0xe] | _ => none
  | .lil o => match st with | .s => some [o.pack 0xf] | _ => none
  | .liw o => match st with | .s => some [o.pack 0x10] | _ => none
  | .lix o => match st with | .s => some [o.pack 0x11] | _ => none
  | .br o => match st with | .s => some [o.pack 0x12] | _ => none
  | .bp o => match st with | .s => some [o.pack 0x13] | _ => none
  | .bnp o => match st with | .s => some [o.pack 0x14] | _ => none
  | .call o => match st with | .s => some [o.pack 0x15] | _ => none
  | .bz o => match st with | .s => some [o.pack 0x16] | _ => none
  | .bnz o => match st with | .s => some [o.pack 0x17] | _ => none
  | .jr o => match st with | .s => some [o.pack 0x18 0] | _ => none
  | .jrl o => match st with | .s => some [o.pack 0x18 1] | _ => none
  | .ld o => match st with | .s => some [o.pack 0x19] | _ => none
  | .lds o => match st with | .s => some [o.pack 0x1a] | _ => none
  | .st o => match st with | .s => some [o.pack 0x1b] | _ => none
  | .amoAdd o x => match st with | .s => some [o.pack 0x1C 0, x.pack] | _ => none
  | .amoAnd o x => match st with | .s => some [o.pack 0x1C 1, x.pack] | _ => none
  | .amoOr o x => match st with | .s => some [o.pack 0x1C 2, x.pack] | _ => none
  | .amoXor o x => match st with | .s => some [o.pack 0x1C 3, x.pack] | _ => none
  | .amoMin o x => match st with | .s => some [o.pack 0x1C 4, x.pack] | _ => none
  | .amoMax o x => match st with | .s => some [o.pack 0x1C 5, x.pack] | _ => none
  | .amoMinu o x => match st with | .s => some [o.pack 0x1C 6, x.pack] | _ => none
  | .amoMaxu o x => match st with | .s => some [o.pack 0x1C 7, x.pack] | _ => none
  | .amoSwap o x => match st with | .s => some [o.pack 0x1C 8, x.pack] | _ => none
  | .amoFadd o x => match st with | .s => some [o.pack 0x1C 9, x.pack] | _ => none
  | .cas size o x => match st with | .s => some [o.pack 0x1D size.toNat, x.pack] | _ => none
  | .fenceFull o => match st with | .s => some [o.pack 0x1e 0] | _ => none
  | .fenceLd o => match st with | .s => some [o.pack 0x1e 1] | _ => none
  | .fenceSt o => match st with | .s => some [o.pack 0x1e 2] | _ => none
  | .fenceEng o => match st with | .s => some [o.pack 0x1e 3] | _ => none
  | .movxr o => match st with | .s => some [o.pack 0x1f 0] | _ => none
  | .movxk o => match st with | .s => some [o.pack 0x1f 1] | _ => none
  | .movxw o => match st with | .s => some [o.pack 0x1f 2] | _ => none
  | .qcnt o => match st with | .s => some [o.pack 0x1f 3] | _ => none
  | .qdrop o => match st with | .s => some [o.pack 0x1f 4] | _ => none
  | .qclr o => match st with | .s => some [o.pack 0x1f 5] | _ => none
  | .tsig o => match st with | .s => some [o.pack 0x1f 6] | _ => none
  | .twait o => match st with | .s => some [o.pack 0x1f 7] | _ => none
  | .tpoll o => match st with | .s => some [o.pack 0x1f 8] | _ => none
  | .loop o => match st with | .s => some [o.pack 0x20] | _ => none
  | .loopi o => match st with | .s => some [o.pack 0x21] | _ => none
  | .loopm o => match st with | .s => some [o.pack 0x22] | _ => none
  | .csrr o => match st with | .s => some [o.pack 0x23] | _ => none
  | .csrw o => match st with | .s => some [o.pack 0x24] | _ => none
  | .csrs o => match st with | .s => some [o.pack 0x25] | _ => none
  | .csrc o => match st with | .s => some [o.pack 0x26] | _ => none
  | .vHalt => match st with | .v => some [0x80000001] | _ => none
  | .vGfence o => match st with | .v => some [o.pack 0x0 2] | _ => none
  | .vTsig o => match st with | .v => some [o.pack 0x0 3] | _ => none
  | .vTwait o => match st with | .v => some [o.pack 0x0 4] | _ => none
  | .vTpoll o => match st with | .v => some [o.pack 0x0 5] | _ => none
  | .vBrk o => match st with | .v => some [o.pack 0x0 6] | _ => none
  | .vadd o => match st with | .v => some [o.pack 0x1 0] | _ => none
  | .vsub o => match st with | .v => some [o.pack 0x1 1] | _ => none
  | .vmul o => match st with | .v => some [o.pack 0x1 2] | _ => none
  | .vmulh o => match st with | .v => some [o.pack 0x1 3] | _ => none
  | .vmulhu o => match st with | .v => some [o.pack 0x1 4] | _ => none
  | .vmad o => match st with | .v => some [o.pack 0x1 5] | _ => none
  | .vmin o => match st with | .v => some [o.pack 0x1 6] | _ => none
  | .vmax o => match st with | .v => some [o.pack 0x1 7] | _ => none
  | .vminu o => match st with | .v => some [o.pack 0x1 8] | _ => none
  | .vmaxu o => match st with | .v => some [o.pack 0x1 9] | _ => none
  | .vabs o => match st with | .v => some [o.pack 0x1 10] | _ => none
  | .vand o => match st with | .v => some [o.pack 0x1 11] | _ => none
  | .vor o => match st with | .v => some [o.pack 0x1 12] | _ => none
  | .vxor o => match st with | .v => some [o.pack 0x1 13] | _ => none
  | .vandn o => match st with | .v => some [o.pack 0x1 14] | _ => none
  | .vshl o => match st with | .v => some [o.pack 0x1 15] | _ => none
  | .vshr o => match st with | .v => some [o.pack 0x1 16] | _ => none
  | .vsra o => match st with | .v => some [o.pack 0x1 17] | _ => none
  | .vfsl o => match st with | .v => some [o.pack 0x1 18] | _ => none
  | .vfsr o => match st with | .v => some [o.pack 0x1 19] | _ => none
  | .vclz o => match st with | .v => some [o.pack 0x1 20] | _ => none
  | .vpopc o => match st with | .v => some [o.pack 0x1 21] | _ => none
  | .vadds o => match st with | .v => some [o.pack 0x1 22] | _ => none
  | .vsubs o => match st with | .v => some [o.pack 0x1 23] | _ => none
  | .vaddsu o => match st with | .v => some [o.pack 0x1 24] | _ => none
  | .vsubsu o => match st with | .v => some [o.pack 0x1 25] | _ => none
  | .vavgu o => match st with | .v => some [o.pack 0x1 26] | _ => none
  | .vcmpEq o => match st with | .v => some [o.pack 0x2 0] | _ => none
  | .vcmpNe o => match st with | .v => some [o.pack 0x2 1] | _ => none
  | .vcmpLt o => match st with | .v => some [o.pack 0x2 2] | _ => none
  | .vcmpGe o => match st with | .v => some [o.pack 0x2 3] | _ => none
  | .vcmpLtu o => match st with | .v => some [o.pack 0x2 4] | _ => none
  | .vcmpGeu o => match st with | .v => some [o.pack 0x2 5] | _ => none
  | .vcmpFeq o => match st with | .v => some [o.pack 0x2 6] | _ => none
  | .vcmpFlt o => match st with | .v => some [o.pack 0x2 7] | _ => none
  | .vcmpFle o => match st with | .v => some [o.pack 0x2 8] | _ => none
  | .vcmpFun o => match st with | .v => some [o.pack 0x2 9] | _ => none
  | .fadd o => match st with | .v => some [o.pack 0x3 0] | _ => none
  | .fsub o => match st with | .v => some [o.pack 0x3 1] | _ => none
  | .fmul o => match st with | .v => some [o.pack 0x3 2] | _ => none
  | .fma o => match st with | .v => some [o.pack 0x3 3] | _ => none
  | .fmin o => match st with | .v => some [o.pack 0x3 4] | _ => none
  | .fmax o => match st with | .v => some [o.pack 0x3 5] | _ => none
  | .fabs o => match st with | .v => some [o.pack 0x3 6] | _ => none
  | .fneg o => match st with | .v => some [o.pack 0x3 7] | _ => none
  | .frcp o => match st with | .v => some [o.pack 0x4 0] | _ => none
  | .frsq o => match st with | .v => some [o.pack 0x4 1] | _ => none
  | .fsqrt o => match st with | .v => some [o.pack 0x4 2] | _ => none
  | .fexp2 o => match st with | .v => some [o.pack 0x4 3] | _ => none
  | .flog2 o => match st with | .v => some [o.pack 0x4 4] | _ => none
  | .cvt o code => match st with | .v => some [o.pack 0x5 code.toNat] | _ => none
  | .radd o => match st with | .v => some [o.pack 0x6 0] | _ => none
  | .rfadd o => match st with | .v => some [o.pack 0x6 1] | _ => none
  | .rmin o => match st with | .v => some [o.pack 0x6 2] | _ => none
  | .rmax o => match st with | .v => some [o.pack 0x6 3] | _ => none
  | .rminu o => match st with | .v => some [o.pack 0x6 4] | _ => none
  | .rmaxu o => match st with | .v => some [o.pack 0x6 5] | _ => none
  | .rand o => match st with | .v => some [o.pack 0x6 6] | _ => none
  | .vredRor o => match st with | .v => some [o.pack 0x6 7] | _ => none
  | .rxor o => match st with | .v => some [o.pack 0x6 8] | _ => none
  | .rimax o => match st with | .v => some [o.pack 0x6 9] | _ => none
  | .vscan o => match st with | .v => some [o.pack 0x6 16] | _ => none
  | .vfscan o => match st with | .v => some [o.pack 0x6 17] | _ => none
  | .vperm o => match st with | .v => some [o.pack 0x7 0] | _ => none
  | .vslup o => match st with | .v => some [o.pack 0x7 1] | _ => none
  | .vsldn o => match st with | .v => some [o.pack 0x7 2] | _ => none
  | .vcmpr o => match st with | .v => some [o.pack 0x7 3] | _ => none
  | .vexpd o => match st with | .v => some [o.pack 0x7 4] | _ => none
  | .vsplt o => match st with | .v => some [o.pack 0x7 5] | _ => none
  | .vsel o => match st with | .v => some [o.pack 0x7 6] | _ => none
  | .vins o => match st with | .v => some [o.pack 0x8 0] | _ => none
  | .vext o => match st with | .v => some [o.pack 0x8 1] | _ => none
  | .vbcst o => match st with | .v => some [o.pack 0x8 2] | _ => none
  | .mand o => match st with | .v => some [o.pack 0x9 0] | _ => none
  | .mor o => match st with | .v => some [o.pack 0x9 1] | _ => none
  | .mxor o => match st with | .v => some [o.pack 0x9 2] | _ => none
  | .mandn o => match st with | .v => some [o.pack 0x9 3] | _ => none
  | .mnot o => match st with | .v => some [o.pack 0x9 4] | _ => none
  | .mpop o => match st with | .v => some [o.pack 0x9 5] | _ => none
  | .mset o => match st with | .v => some [o.pack 0x9 6] | _ => none
  | .mclr o => match st with | .v => some [o.pack 0x9 7] | _ => none
  | .mfromv o => match st with | .v => some [o.pack 0x9 8] | _ => none
  | .mtov o => match st with | .v => some [o.pack 0x9 9] | _ => none
  | .vld o => match st with | .v => some [o.pack 0xa] | _ => none
  | .vst o => match st with | .v => some [o.pack 0xb] | _ => none
  | .vstb o => match st with | .v => some [o.pack 0xc] | _ => none
  | .vgath o => match st with | .v => some [o.pack 0xd] | _ => none
  | .vscat o => match st with | .v => some [o.pack 0xe] | _ => none
  | .vwmac o => match st with | .v => some [o.pack 0xf] | _ => none
  | .vwpool o => match st with | .v => some [o.pack 0x10] | _ => none
  | .aadd o => match st with | .s => none | _ => some [o.pack 0x11 0]
  | .aaddi o => match st with | .s => none | _ => some [o.pack 0x11 1]
  | .ali o => match st with | .s => none | _ => some [o.pack 0x11 2]
  | .alih o => match st with | .s => none | _ => some [o.pack 0x11 3]
  | .afrom o => match st with | .s => none | _ => some [o.pack 0x11 4]
  | .ato o => match st with | .s => none | _ => some [o.pack 0x11 5]
  | .vaddi o => match st with | .v => some [o.pack 0x12] | _ => none
  | .vandi o => match st with | .v => some [o.pack 0x13] | _ => none
  | .vshli o => match st with | .v => some [o.pack 0x14] | _ => none
  | .vshri o => match st with | .v => some [o.pack 0x15] | _ => none
  | .vsrai o => match st with | .v => some [o.pack 0x16] | _ => none
  | .pquant o => match st with | .v => some [o.pack 0x18] | _ => none
  | .pldf o => match st with | .v => some [o.pack 0x19] | _ => none
  | .pstf o => match st with | .v => some [o.pack 0x1a] | _ => none
  | .rcinit o => match st with | .v => some [o.pack 0x1b] | _ => none
  | .rcenc o => match st with | .v => some [o.pack 0x1c] | _ => none
  | .rcdec o => match st with | .v => some [o.pack 0x1d] | _ => none
  | .rcencv o => match st with | .v => some [o.pack 0x1e] | _ => none
  | .rcdecv o => match st with | .v => some [o.pack 0x1f] | _ => none
  | .rcbinv o => match st with | .v => some [o.pack 0x20] | _ => none
  | .rcbinvEnc o => match st with | .v => some [o.pack 0x20] | _ => none
  | .rcflush o => match st with | .v => some [o.pack 0x21] | _ => none
  | .rcmark o => match st with | .v => some [o.pack 0x22] | _ => none
  | .rcback o => match st with | .v => some [o.pack 0x23] | _ => none
  | .rcstat o => match st with | .v => some [o.pack 0x24] | _ => none
  | .mHalt => match st with | .m => some [0x80000001] | _ => none
  | .mGfence o => match st with | .m => some [o.pack 0x0 2] | _ => none
  | .mTsig o => match st with | .m => some [o.pack 0x0 3] | _ => none
  | .mTwait o => match st with | .m => some [o.pack 0x0 4] | _ => none
  | .mBrk o => match st with | .m => some [o.pack 0x0 5] | _ => none
  | .mfmt o => match st with | .m => some [o.pack 0x1] | _ => none
  | .mfmtT o => match st with | .m => some [o.pack 0x1] | _ => none
  | .mldw o => match st with | .m => some [o.pack 0x2] | _ => none
  | .mswap o => match st with | .m => some [o.pack 0x3] | _ => none
  | .mstr o => match st with | .m => some [o.pack 0x4] | _ => none
  | .mwin o => match st with | .m => some [o.pack 0x5] | _ => none
  | .mzero o => match st with | .m => some [o.pack 0x6] | _ => none
  | .mout o => match st with | .m => some [o.pack 0x7] | _ => none
  | .mkat o sig => match st with | .m => some [o.pack 8, sig.toNat] | _ => none
  | .xHalt => match st with | .x => some [0x80000001] | _ => none
  | .xGfence o => match st with | .x => some [o.pack 0x0 2] | _ => none
  | .xTsig o => match st with | .x => some [o.pack 0x0 3] | _ => none
  | .xTwait o => match st with | .x => some [o.pack 0x0 4] | _ => none
  | .xBrk o => match st with | .x => some [o.pack 0x0 5] | _ => none
  | .xstat o => match st with | .x => some [o.pack 0x0 6] | _ => none
  | .xcpy o => match st with | .x => some [o.pack 0x1] | _ => none
  | .xcpy2 o => match st with | .x => some [o.pack 0x2] | _ => none
  | .xgath o => match st with | .x => some [o.pack 0x3] | _ => none
  | .xscat o => match st with | .x => some [o.pack 0x4] | _ => none
  | .xfill o => match st with | .x => some [o.pack 0x5] | _ => none
  | .xsend o => match st with | .x => some [o.pack 0x6] | _ => none
  | .xpeer o => match st with | .x => some [o.pack 0x7] | _ => none
  | .xlbw o => match st with | .x => some [o.pack 0x8] | _ => none
  | .xlbc o => match st with | .x => some [o.pack 0x9] | _ => none
  | .xred o => match st with | .x => some [o.pack 0xa] | _ => none
  | .xreds o => match st with | .x => some [o.pack 0xa] | _ => none
  | .xpref o => match st with | .x => some [o.pack 0xb] | _ => none
  | .resultDue _ _ => none
  | .moduloPassEnd _ => none
  | .haltBundleRetire _ => none
  | .engineOpStart _ _ => none
  | .engineOpComplete _ _ => none
  | .asyncFault _ _ => none
  | .trapEntry _ => none
  | .firmwareResume _ => none
  | .firmwareFail _ => none
  | .firmwareRerun _ => none
  | .barrierRelease _ _ => none
  | .post _ => none
  | .perform _ => none
  | .ack _ => none
  | .read _ => none
  | .readCacheEvict _ _ => none
  | .pageWalk _ _ _ => none
  | .tlbPrefetchWalk _ _ => none
  | .coderEmissionWrite _ _ => none
  | .coderReadAhead _ _ => none
  | .xpeerArrival _ => none
  | .xpeerAcknowledge _ _ _ => none
  | .rewardMessageArrival _ => none
  | .barrierTokenArrival _ => none
  | .peerAccess _ => none
  | .flitRetry _ => none
  | .lsaLossTimeout _ => none
  | .joinMessageIntake _ => none
  | .openDeadline _ => none
  | .closeDeadlineDrop _ => none
  | .closeDeadlineFill _ => none
  | .jholdExpiry _ => none
  | .scanTake _ => none
  | .releaseRecordEntry _ => none
  | .scanJob _ => none
  | .lqtailWrite _ _ _ => none
  | .lqstatOvrClear _ _ _ => none
  | .lqerrWrite _ _ => none
  | .launch _ _ => none
  | .setonly _ _ => none
  | .packetFence _ _ => none
  | .signal _ _ => none
  | .nodePlacement _ _ => none
  | .nodeCompletion _ => none
  | .copyNode _ => none
  | .unsplicedRerun _ => none
  | .agePromotion _ => none
  | .reservation _ => none
  | .nodeBoundaryPreemption _ => none
  | .urgentPreemption _ => none
  | .urgentLimitExpiry _ => none
  | .shadowExchange _ => none
  | .preemptResume _ => none
  | .tlbinvGo _ _ => none
  | .tlbinvRejClear _ => none
  | .tlbinvComplete _ => none
  | .jownerWrite _ => none
  | .cellmodeWrite _ _ => none
  | .cellmodeHeldApply _ => none
  | .domainRegisterWrite _ _ _ => none
  | .grantTableLoad _ => none
  | .reliabilityStateWrite _ _ => none
  | .deadLetterAck _ => none
  | .deadLetterClear => none
  | .registerWrite _ => none
  | .capabilityFault _ => none
  | .partitionReset _ => none
  | .cellRepartition _ _ => none
  | .deviceReset _ => none
  | .hostMemRead _ _ => none
  | .hostMemWrite _ _ => none
  | .getVersion => none
  | .getCapabilities => none
  | .negotiateAlgorithms => none
  | .getDigests => none
  | .getCertificate _ _ _ => none
  | .challenge _ => none
  | .getMeasurements _ _ => none
  | .spdmUnsupported _ => none
  | .debugToken _ => none
  | .debugHaltRequest _ => none
  | .powerP1 _ => none
  | .powerC1 _ => none
  | .powerC2 _ => none
  | .powerC3 => none
  | .powerWake _ => none
  | .leaveTenant _ => none
  | .droopAlarm _ => none
  | .droopHalfRateEnd _ => none
  | .tstampTick => none
  | .suspicionDecay => none
  | .targetedTestStart _ => none
  | .targetedTestEnd _ _ => none
  | .scrubPatrol _ => none
  | .debugResume _ _ => none
  | .debugStateSet _ _ => none
  | .partitionCreation _ => none
  | .hubLinkChecksumRetry _ => none
  | .firmwareStore _ _ => none
  | .pageMigrationCopy _ _ _ => none
  | .giuthPortTraining _ _ => none

/-- The encoder on words. -/
def encode (st : Stream) (i : Instr) : Option (List (BitVec 32)) :=
  (encodeNat st i).map (List.map (BitVec.ofNat 32))

/-! ## The decoder

Each candidate function reads the opcode map of one stream. What it finds stands only if it is well formed and the
encoder gives the word back, so no bit of a word is ignored (R96). -/

def candS (n : Nat) (second : Nat) : Instr :=
  match opOf n with
  | 0x0 => match SX.fn n with
    | 0 => .nop (bitAt n 31) 0#4
    | 8 => .halt
    | 16 => .trap (.unpack n)
    | 24 => .tret (.unpack n)
    | 32 => .gfence (.unpack n)
    | 40 => .bsync (.unpack n)
    | 48 => .tstamp (.unpack n)
    | 56 => .rngd (.unpack n)
    | 64 => .cntr (.unpack n)
    | 72 => .nlaunch (.unpack n)
    | 80 => if (Instr.lqpop (.unpack n)).wf then .lqpop (.unpack n) else .lqpopNb (.unpack n)
    | 88 => .lvset (.unpack n)
    | 96 => .epopen (.unpack n)
    | 104 => .epclose (.unpack n)
    | 112 => .rwpost (.unpack n)
    | 120 => .jstat (.unpack n)
    | 128 => .wdld (.unpack n)
    | 136 => .brk (.unpack n)
    | _ => .illegalWord (BitVec.ofNat 32 n)
  | 0x1 => match SR.fn n with
    | 0 => .add (.unpack n)
    | 1 => .sub (.unpack n)
    | 2 => .and (.unpack n)
    | 3 => .or (.unpack n)
    | 4 => .xor (.unpack n)
    | 5 => .andn (.unpack n)
    | 6 => .shl (.unpack n)
    | 7 => .shr (.unpack n)
    | 8 => .sra (.unpack n)
    | 9 => .min (.unpack n)
    | 10 => .max (.unpack n)
    | 11 => .minu (.unpack n)
    | 12 => .maxu (.unpack n)
    | 13 => .seq (.unpack n)
    | 14 => .slt (.unpack n)
    | 15 => .sltu (.unpack n)
    | _ => .illegalWord (BitVec.ofNat 32 n)
  | 0x2 => match SR.fn n with
    | 0 => .mul (.unpack n)
    | 1 => .mulh (.unpack n)
    | 2 => .mulhu (.unpack n)
    | 3 => .div (.unpack n)
    | 4 => .divu (.unpack n)
    | 5 => .rem (.unpack n)
    | 6 => .remu (.unpack n)
    | 7 => .clz (.unpack n)
    | 8 => .ctz (.unpack n)
    | 9 => .popc (.unpack n)
    | 10 => .rol (.unpack n)
    | 11 => .ror (.unpack n)
    | 12 => .addw (.unpack n)
    | 13 => .subw (.unpack n)
    | 14 => .sel (.unpack n)
    | _ => .illegalWord (BitVec.ofNat 32 n)
  | 0x3 => match SR.fn n with
    | 0 => .cmpEq (.unpack n)
    | 1 => .cmpNe (.unpack n)
    | 2 => .cmpLt (.unpack n)
    | 3 => .cmpGe (.unpack n)
    | 4 => .cmpLtu (.unpack n)
    | 5 => .cmpGeu (.unpack n)
    | _ => .illegalWord (BitVec.ofNat 32 n)
  | 0x4 => match SR.fn n with
    | 0 => .pand (.unpack n)
    | 1 => .por (.unpack n)
    | 2 => .pxor (.unpack n)
    | 3 => .pandn (.unpack n)
    | 4 => .pnot (.unpack n)
    | 5 => .pset (.unpack n)
    | 6 => .pclr (.unpack n)
    | _ => .illegalWord (BitVec.ofNat 32 n)
  | 0x5 => .addi (.unpack n)
  | 0x6 => .andi (.unpack n)
  | 0x7 => .ori (.unpack n)
  | 0x8 => .xori (.unpack n)
  | 0x9 => .shli (.unpack n)
  | 0xa => .shri (.unpack n)
  | 0xb => .srai (.unpack n)
  | 0xc => .slti (.unpack n)
  | 0xd => .muli (.unpack n)
  | 0xe => .li (.unpack n)
  | 0xf => .lil (.unpack n)
  | 0x10 => .liw (.unpack n)
  | 0x11 => .lix (.unpack n)
  | 0x12 => .br (.unpack n)
  | 0x13 => .bp (.unpack n)
  | 0x14 => .bnp (.unpack n)
  | 0x15 => .call (.unpack n)
  | 0x16 => .bz (.unpack n)
  | 0x17 => .bnz (.unpack n)
  | 0x18 => match SR.fn n with
    | 0 => .jr (.unpack n)
    | 1 => .jrl (.unpack n)
    | _ => .illegalWord (BitVec.ofNat 32 n)
  | 0x19 => .ld (.unpack n)
  | 0x1a => .lds (.unpack n)
  | 0x1b => .st (.unpack n)
  | 0x1c => match SR.fn n with
    | 0 => .amoAdd (.unpack n) (.unpack second)
    | 1 => .amoAnd (.unpack n) (.unpack second)
    | 2 => .amoOr (.unpack n) (.unpack second)
    | 3 => .amoXor (.unpack n) (.unpack second)
    | 4 => .amoMin (.unpack n) (.unpack second)
    | 5 => .amoMax (.unpack n) (.unpack second)
    | 6 => .amoMinu (.unpack n) (.unpack second)
    | 7 => .amoMaxu (.unpack n) (.unpack second)
    | 8 => .amoSwap (.unpack n) (.unpack second)
    | 9 => .amoFadd (.unpack n) (.unpack second)
    | _ => .illegalWord (BitVec.ofNat 32 n)
  | 0x1d => match SR.fn n with
    | 0 => .cas false (.unpack n) (.unpack second)
    | 1 => .cas true (.unpack n) (.unpack second)
    | _ => .illegalWord (BitVec.ofNat 32 n)
  | 0x1e => match SF.fn n with
    | 0 => .fenceFull (.unpack n)
    | 1 => .fenceLd (.unpack n)
    | 2 => .fenceSt (.unpack n)
    | 3 => .fenceEng (.unpack n)
    | _ => .illegalWord (BitVec.ofNat 32 n)
  | 0x1f => match SR.fn n with
    | 0 => .movxr (.unpack n)
    | 1 => .movxk (.unpack n)
    | 2 => .movxw (.unpack n)
    | 3 => .qcnt (.unpack n)
    | 4 => .qdrop (.unpack n)
    | 5 => .qclr (.unpack n)
    | 6 => .tsig (.unpack n)
    | 7 => .twait (.unpack n)
    | 8 => .tpoll (.unpack n)
    | _ => .illegalWord (BitVec.ofNat 32 n)
  | 0x20 => .loop (.unpack n)
  | 0x21 => .loopi (.unpack n)
  | 0x22 => .loopm (.unpack n)
  | 0x23 => .csrr (.unpack n)
  | 0x24 => .csrw (.unpack n)
  | 0x25 => .csrs (.unpack n)
  | 0x26 => .csrc (.unpack n)
  | _ => .illegalWord (BitVec.ofNat 32 n)

def candV (n : Nat) (_second : Nat) : Instr :=
  match opOf n with
  | 0x0 => match VR.fn n with
    | 0 => .nop (bitAt n 31) (field n 7 4)
    | 1 => .vHalt
    | 2 => .vGfence (.unpack n)
    | 3 => .vTsig (.unpack n)
    | 4 => .vTwait (.unpack n)
    | 5 => .vTpoll (.unpack n)
    | 6 => .vBrk (.unpack n)
    | _ => .illegalWord (BitVec.ofNat 32 n)
  | 0x1 => match VR.fn n with
    | 0 => .vadd (.unpack n)
    | 1 => .vsub (.unpack n)
    | 2 => .vmul (.unpack n)
    | 3 => .vmulh (.unpack n)
    | 4 => .vmulhu (.unpack n)
    | 5 => .vmad (.unpack n)
    | 6 => .vmin (.unpack n)
    | 7 => .vmax (.unpack n)
    | 8 => .vminu (.unpack n)
    | 9 => .vmaxu (.unpack n)
    | 10 => .vabs (.unpack n)
    | 11 => .vand (.unpack n)
    | 12 => .vor (.unpack n)
    | 13 => .vxor (.unpack n)
    | 14 => .vandn (.unpack n)
    | 15 => .vshl (.unpack n)
    | 16 => .vshr (.unpack n)
    | 17 => .vsra (.unpack n)
    | 18 => .vfsl (.unpack n)
    | 19 => .vfsr (.unpack n)
    | 20 => .vclz (.unpack n)
    | 21 => .vpopc (.unpack n)
    | 22 => .vadds (.unpack n)
    | 23 => .vsubs (.unpack n)
    | 24 => .vaddsu (.unpack n)
    | 25 => .vsubsu (.unpack n)
    | 26 => .vavgu (.unpack n)
    | _ => .illegalWord (BitVec.ofNat 32 n)
  | 0x2 => match VR.fn n with
    | 0 => .vcmpEq (.unpack n)
    | 1 => .vcmpNe (.unpack n)
    | 2 => .vcmpLt (.unpack n)
    | 3 => .vcmpGe (.unpack n)
    | 4 => .vcmpLtu (.unpack n)
    | 5 => .vcmpGeu (.unpack n)
    | 6 => .vcmpFeq (.unpack n)
    | 7 => .vcmpFlt (.unpack n)
    | 8 => .vcmpFle (.unpack n)
    | 9 => .vcmpFun (.unpack n)
    | _ => .illegalWord (BitVec.ofNat 32 n)
  | 0x3 => match VR.fn n with
    | 0 => .fadd (.unpack n)
    | 1 => .fsub (.unpack n)
    | 2 => .fmul (.unpack n)
    | 3 => .fma (.unpack n)
    | 4 => .fmin (.unpack n)
    | 5 => .fmax (.unpack n)
    | 6 => .fabs (.unpack n)
    | 7 => .fneg (.unpack n)
    | _ => .illegalWord (BitVec.ofNat 32 n)
  | 0x4 => match VR.fn n with
    | 0 => .frcp (.unpack n)
    | 1 => .frsq (.unpack n)
    | 2 => .fsqrt (.unpack n)
    | 3 => .fexp2 (.unpack n)
    | 4 => .flog2 (.unpack n)
    | _ => .illegalWord (BitVec.ofNat 32 n)
  | 0x5 => .cvt (.unpack n) (field n 0 5)
  | 0x6 => match VR.fn n with
    | 0 => .radd (.unpack n)
    | 1 => .rfadd (.unpack n)
    | 2 => .rmin (.unpack n)
    | 3 => .rmax (.unpack n)
    | 4 => .rminu (.unpack n)
    | 5 => .rmaxu (.unpack n)
    | 6 => .rand (.unpack n)
    | 7 => .vredRor (.unpack n)
    | 8 => .rxor (.unpack n)
    | 9 => .rimax (.unpack n)
    | 16 => .vscan (.unpack n)
    | 17 => .vfscan (.unpack n)
    | _ => .illegalWord (BitVec.ofNat 32 n)
  | 0x7 => match VR.fn n with
    | 0 => .vperm (.unpack n)
    | 1 => .vslup (.unpack n)
    | 2 => .vsldn (.unpack n)
    | 3 => .vcmpr (.unpack n)
    | 4 => .vexpd (.unpack n)
    | 5 => .vsplt (.unpack n)
    | 6 => .vsel (.unpack n)
    | _ => .illegalWord (BitVec.ofNat 32 n)
  | 0x8 => match VR.fn n with
    | 0 => .vins (.unpack n)
    | 1 => .vext (.unpack n)
    | 2 => .vbcst (.unpack n)
    | _ => .illegalWord (BitVec.ofNat 32 n)
  | 0x9 => match VR.fn n with
    | 0 => .mand (.unpack n)
    | 1 => .mor (.unpack n)
    | 2 => .mxor (.unpack n)
    | 3 => .mandn (.unpack n)
    | 4 => .mnot (.unpack n)
    | 5 => .mpop (.unpack n)
    | 6 => .mset (.unpack n)
    | 7 => .mclr (.unpack n)
    | 8 => .mfromv (.unpack n)
    | 9 => .mtov (.unpack n)
    | _ => .illegalWord (BitVec.ofNat 32 n)
  | 0xa => .vld (.unpack n)
  | 0xb => .vst (.unpack n)
  | 0xc => .vstb (.unpack n)
  | 0xd => .vgath (.unpack n)
  | 0xe => .vscat (.unpack n)
  | 0xf => .vwmac (.unpack n)
  | 0x10 => .vwpool (.unpack n)
  | 0x11 => match VA.fn n with
    | 0 => .aadd (.unpack n)
    | 1 => .aaddi (.unpack n)
    | 2 => .ali (.unpack n)
    | 3 => .alih (.unpack n)
    | 4 => .afrom (.unpack n)
    | 5 => .ato (.unpack n)
    | _ => .illegalWord (BitVec.ofNat 32 n)
  | 0x12 => .vaddi (.unpack n)
  | 0x13 => .vandi (.unpack n)
  | 0x14 => .vshli (.unpack n)
  | 0x15 => .vshri (.unpack n)
  | 0x16 => .vsrai (.unpack n)
  | 0x18 => .pquant (.unpack n)
  | 0x19 => .pldf (.unpack n)
  | 0x1a => .pstf (.unpack n)
  | 0x1b => .rcinit (.unpack n)
  | 0x1c => .rcenc (.unpack n)
  | 0x1d => .rcdec (.unpack n)
  | 0x1e => .rcencv (.unpack n)
  | 0x1f => .rcdecv (.unpack n)
  | 0x20 => if (Instr.rcbinv (.unpack n)).wf then .rcbinv (.unpack n) else .rcbinvEnc (.unpack n)
  | 0x21 => .rcflush (.unpack n)
  | 0x22 => .rcmark (.unpack n)
  | 0x23 => .rcback (.unpack n)
  | 0x24 => .rcstat (.unpack n)
  | _ => .illegalWord (BitVec.ofNat 32 n)

noncomputable section
-- The decoder builds terms of an inductive type with more constructors than Lean's code generator can tag. The kernel
-- evaluates these definitions all the same.

def candM (n : Nat) (second : Nat) : Instr :=
  match opOf n with
  | 0x0 => match MS.fn n with
    | 0 => .nop (bitAt n 31) 0#4
    | 1 => .mHalt
    | 2 => .mGfence (.unpack n)
    | 3 => .mTsig (.unpack n)
    | 4 => .mTwait (.unpack n)
    | 5 => .mBrk (.unpack n)
    | _ => .illegalWord (BitVec.ofNat 32 n)
  | 0x1 => if (Instr.mfmt (.unpack n)).wf then .mfmt (.unpack n) else .mfmtT (.unpack n)
  | 0x2 => .mldw (.unpack n)
  | 0x3 => .mswap (.unpack n)
  | 0x4 => .mstr (.unpack n)
  | 0x5 => .mwin (.unpack n)
  | 0x6 => .mzero (.unpack n)
  | 0x7 => .mout (.unpack n)
  | 0x8 => .mkat (.unpack n) (BitVec.ofNat 32 second)
  | 0x11 => match VA.fn n with
    | 0 => .aadd (.unpack n)
    | 1 => .aaddi (.unpack n)
    | 2 => .ali (.unpack n)
    | 3 => .alih (.unpack n)
    | 4 => .afrom (.unpack n)
    | 5 => .ato (.unpack n)
    | _ => .illegalWord (BitVec.ofNat 32 n)
  | _ => .illegalWord (BitVec.ofNat 32 n)

def candX (n : Nat) (_second : Nat) : Instr :=
  match opOf n with
  | 0x0 => match MS.fn n with
    | 0 => .nop (bitAt n 31) 0#4
    | 1 => .xHalt
    | 2 => .xGfence (.unpack n)
    | 3 => .xTsig (.unpack n)
    | 4 => .xTwait (.unpack n)
    | 5 => .xBrk (.unpack n)
    | 6 => .xstat (.unpack n)
    | _ => .illegalWord (BitVec.ofNat 32 n)
  | 0x1 => .xcpy (.unpack n)
  | 0x2 => .xcpy2 (.unpack n)
  | 0x3 => .xgath (.unpack n)
  | 0x4 => .xscat (.unpack n)
  | 0x5 => .xfill (.unpack n)
  | 0x6 => .xsend (.unpack n)
  | 0x7 => .xpeer (.unpack n)
  | 0x8 => .xlbw (.unpack n)
  | 0x9 => .xlbc (.unpack n)
  | 0xa => if (Instr.xred (.unpack n)).wf then .xred (.unpack n) else .xreds (.unpack n)
  | 0xb => .xpref (.unpack n)
  | 0x11 => match VA.fn n with
    | 0 => .aadd (.unpack n)
    | 1 => .aaddi (.unpack n)
    | 2 => .ali (.unpack n)
    | 3 => .alih (.unpack n)
    | 4 => .afrom (.unpack n)
    | 5 => .ato (.unpack n)
    | _ => .illegalWord (BitVec.ofNat 32 n)
  | _ => .illegalWord (BitVec.ofNat 32 n)

/-- What the opcode maps say of a first word and the word after it (R89, R92, R94). -/
def cand (st : Stream) (n second : Nat) : Instr :=
  match st with
  | .s => candS n second
  | .v => candV n second
  | .m => candM n second
  | .x => candX n second

/-- A first word that needs a second one: AMO and CAS in S, MKAT in M (R82). -/
def isPair (st : Stream) (n : Nat) : Bool :=
  match st with
  | .s => opOf n == 0x1C && decide (SR.fn n < 10) || opOf n == 0x1D && decide (SR.fn n < 2)
  | .m => opOf n == 8
  | _ => false

/-- The instruction of a first word and, for a pair, its second word (R82, R96). -/
def decodeWords (st : Stream) (w second : BitVec 32) : Instr :=
  let i := cand st w.toNat second.toNat
  if i.wf && encode st i == some (if isPair st w.toNat then [w, second] else [w]) then i else .illegalWord w

/-- How many words an instruction has (R82). -/
def Instr.words : Instr → Nat
  | .nop _ _ => 1
  | .illegalWord _ => 1
  | .halt => 1
  | .trap _ => 1
  | .tret _ => 1
  | .gfence _ => 1
  | .bsync _ => 1
  | .tstamp _ => 1
  | .rngd _ => 1
  | .cntr _ => 1
  | .nlaunch _ => 1
  | .lqpop _ => 1
  | .lqpopNb _ => 1
  | .lvset _ => 1
  | .epopen _ => 1
  | .epclose _ => 1
  | .rwpost _ => 1
  | .jstat _ => 1
  | .wdld _ => 1
  | .brk _ => 1
  | .add _ => 1
  | .sub _ => 1
  | .and _ => 1
  | .or _ => 1
  | .xor _ => 1
  | .andn _ => 1
  | .shl _ => 1
  | .shr _ => 1
  | .sra _ => 1
  | .min _ => 1
  | .max _ => 1
  | .minu _ => 1
  | .maxu _ => 1
  | .seq _ => 1
  | .slt _ => 1
  | .sltu _ => 1
  | .mul _ => 1
  | .mulh _ => 1
  | .mulhu _ => 1
  | .div _ => 1
  | .divu _ => 1
  | .rem _ => 1
  | .remu _ => 1
  | .clz _ => 1
  | .ctz _ => 1
  | .popc _ => 1
  | .rol _ => 1
  | .ror _ => 1
  | .addw _ => 1
  | .subw _ => 1
  | .sel _ => 1
  | .cmpEq _ => 1
  | .cmpNe _ => 1
  | .cmpLt _ => 1
  | .cmpGe _ => 1
  | .cmpLtu _ => 1
  | .cmpGeu _ => 1
  | .pand _ => 1
  | .por _ => 1
  | .pxor _ => 1
  | .pandn _ => 1
  | .pnot _ => 1
  | .pset _ => 1
  | .pclr _ => 1
  | .addi _ => 1
  | .andi _ => 1
  | .ori _ => 1
  | .xori _ => 1
  | .shli _ => 1
  | .shri _ => 1
  | .srai _ => 1
  | .slti _ => 1
  | .muli _ => 1
  | .li _ => 1
  | .lil _ => 1
  | .liw _ => 1
  | .lix _ => 1
  | .br _ => 1
  | .bp _ => 1
  | .bnp _ => 1
  | .call _ => 1
  | .bz _ => 1
  | .bnz _ => 1
  | .jr _ => 1
  | .jrl _ => 1
  | .ld _ => 1
  | .lds _ => 1
  | .st _ => 1
  | .amoAdd _ _ => 2
  | .amoAnd _ _ => 2
  | .amoOr _ _ => 2
  | .amoXor _ _ => 2
  | .amoMin _ _ => 2
  | .amoMax _ _ => 2
  | .amoMinu _ _ => 2
  | .amoMaxu _ _ => 2
  | .amoSwap _ _ => 2
  | .amoFadd _ _ => 2
  | .cas _ _ _ => 2
  | .fenceFull _ => 1
  | .fenceLd _ => 1
  | .fenceSt _ => 1
  | .fenceEng _ => 1
  | .movxr _ => 1
  | .movxk _ => 1
  | .movxw _ => 1
  | .qcnt _ => 1
  | .qdrop _ => 1
  | .qclr _ => 1
  | .tsig _ => 1
  | .twait _ => 1
  | .tpoll _ => 1
  | .loop _ => 1
  | .loopi _ => 1
  | .loopm _ => 1
  | .csrr _ => 1
  | .csrw _ => 1
  | .csrs _ => 1
  | .csrc _ => 1
  | .vHalt => 1
  | .vGfence _ => 1
  | .vTsig _ => 1
  | .vTwait _ => 1
  | .vTpoll _ => 1
  | .vBrk _ => 1
  | .vadd _ => 1
  | .vsub _ => 1
  | .vmul _ => 1
  | .vmulh _ => 1
  | .vmulhu _ => 1
  | .vmad _ => 1
  | .vmin _ => 1
  | .vmax _ => 1
  | .vminu _ => 1
  | .vmaxu _ => 1
  | .vabs _ => 1
  | .vand _ => 1
  | .vor _ => 1
  | .vxor _ => 1
  | .vandn _ => 1
  | .vshl _ => 1
  | .vshr _ => 1
  | .vsra _ => 1
  | .vfsl _ => 1
  | .vfsr _ => 1
  | .vclz _ => 1
  | .vpopc _ => 1
  | .vadds _ => 1
  | .vsubs _ => 1
  | .vaddsu _ => 1
  | .vsubsu _ => 1
  | .vavgu _ => 1
  | .vcmpEq _ => 1
  | .vcmpNe _ => 1
  | .vcmpLt _ => 1
  | .vcmpGe _ => 1
  | .vcmpLtu _ => 1
  | .vcmpGeu _ => 1
  | .vcmpFeq _ => 1
  | .vcmpFlt _ => 1
  | .vcmpFle _ => 1
  | .vcmpFun _ => 1
  | .fadd _ => 1
  | .fsub _ => 1
  | .fmul _ => 1
  | .fma _ => 1
  | .fmin _ => 1
  | .fmax _ => 1
  | .fabs _ => 1
  | .fneg _ => 1
  | .frcp _ => 1
  | .frsq _ => 1
  | .fsqrt _ => 1
  | .fexp2 _ => 1
  | .flog2 _ => 1
  | .cvt _ _ => 1
  | .radd _ => 1
  | .rfadd _ => 1
  | .rmin _ => 1
  | .rmax _ => 1
  | .rminu _ => 1
  | .rmaxu _ => 1
  | .rand _ => 1
  | .vredRor _ => 1
  | .rxor _ => 1
  | .rimax _ => 1
  | .vscan _ => 1
  | .vfscan _ => 1
  | .vperm _ => 1
  | .vslup _ => 1
  | .vsldn _ => 1
  | .vcmpr _ => 1
  | .vexpd _ => 1
  | .vsplt _ => 1
  | .vsel _ => 1
  | .vins _ => 1
  | .vext _ => 1
  | .vbcst _ => 1
  | .mand _ => 1
  | .mor _ => 1
  | .mxor _ => 1
  | .mandn _ => 1
  | .mnot _ => 1
  | .mpop _ => 1
  | .mset _ => 1
  | .mclr _ => 1
  | .mfromv _ => 1
  | .mtov _ => 1
  | .vld _ => 1
  | .vst _ => 1
  | .vstb _ => 1
  | .vgath _ => 1
  | .vscat _ => 1
  | .vwmac _ => 1
  | .vwpool _ => 1
  | .aadd _ => 1
  | .aaddi _ => 1
  | .ali _ => 1
  | .alih _ => 1
  | .afrom _ => 1
  | .ato _ => 1
  | .vaddi _ => 1
  | .vandi _ => 1
  | .vshli _ => 1
  | .vshri _ => 1
  | .vsrai _ => 1
  | .pquant _ => 1
  | .pldf _ => 1
  | .pstf _ => 1
  | .rcinit _ => 1
  | .rcenc _ => 1
  | .rcdec _ => 1
  | .rcencv _ => 1
  | .rcdecv _ => 1
  | .rcbinv _ => 1
  | .rcbinvEnc _ => 1
  | .rcflush _ => 1
  | .rcmark _ => 1
  | .rcback _ => 1
  | .rcstat _ => 1
  | .mHalt => 1
  | .mGfence _ => 1
  | .mTsig _ => 1
  | .mTwait _ => 1
  | .mBrk _ => 1
  | .mfmt _ => 1
  | .mfmtT _ => 1
  | .mldw _ => 1
  | .mswap _ => 1
  | .mstr _ => 1
  | .mwin _ => 1
  | .mzero _ => 1
  | .mout _ => 1
  | .mkat _ _ => 2
  | .xHalt => 1
  | .xGfence _ => 1
  | .xTsig _ => 1
  | .xTwait _ => 1
  | .xBrk _ => 1
  | .xstat _ => 1
  | .xcpy _ => 1
  | .xcpy2 _ => 1
  | .xgath _ => 1
  | .xscat _ => 1
  | .xfill _ => 1
  | .xsend _ => 1
  | .xpeer _ => 1
  | .xlbw _ => 1
  | .xlbc _ => 1
  | .xred _ => 1
  | .xreds _ => 1
  | .xpref _ => 1
  | .resultDue _ _ => 1
  | .moduloPassEnd _ => 1
  | .haltBundleRetire _ => 1
  | .engineOpStart _ _ => 1
  | .engineOpComplete _ _ => 1
  | .asyncFault _ _ => 1
  | .trapEntry _ => 1
  | .firmwareResume _ => 1
  | .firmwareFail _ => 1
  | .firmwareRerun _ => 1
  | .barrierRelease _ _ => 1
  | .post _ => 1
  | .perform _ => 1
  | .ack _ => 1
  | .read _ => 1
  | .readCacheEvict _ _ => 1
  | .pageWalk _ _ _ => 1
  | .tlbPrefetchWalk _ _ => 1
  | .coderEmissionWrite _ _ => 1
  | .coderReadAhead _ _ => 1
  | .xpeerArrival _ => 1
  | .xpeerAcknowledge _ _ _ => 1
  | .rewardMessageArrival _ => 1
  | .barrierTokenArrival _ => 1
  | .peerAccess _ => 1
  | .flitRetry _ => 1
  | .lsaLossTimeout _ => 1
  | .joinMessageIntake _ => 1
  | .openDeadline _ => 1
  | .closeDeadlineDrop _ => 1
  | .closeDeadlineFill _ => 1
  | .jholdExpiry _ => 1
  | .scanTake _ => 1
  | .releaseRecordEntry _ => 1
  | .scanJob _ => 1
  | .lqtailWrite _ _ _ => 1
  | .lqstatOvrClear _ _ _ => 1
  | .lqerrWrite _ _ => 1
  | .launch _ _ => 1
  | .setonly _ _ => 1
  | .packetFence _ _ => 1
  | .signal _ _ => 1
  | .nodePlacement _ _ => 1
  | .nodeCompletion _ => 1
  | .copyNode _ => 1
  | .unsplicedRerun _ => 1
  | .agePromotion _ => 1
  | .reservation _ => 1
  | .nodeBoundaryPreemption _ => 1
  | .urgentPreemption _ => 1
  | .urgentLimitExpiry _ => 1
  | .shadowExchange _ => 1
  | .preemptResume _ => 1
  | .tlbinvGo _ _ => 1
  | .tlbinvRejClear _ => 1
  | .tlbinvComplete _ => 1
  | .jownerWrite _ => 1
  | .cellmodeWrite _ _ => 1
  | .cellmodeHeldApply _ => 1
  | .domainRegisterWrite _ _ _ => 1
  | .grantTableLoad _ => 1
  | .reliabilityStateWrite _ _ => 1
  | .deadLetterAck _ => 1
  | .deadLetterClear => 1
  | .registerWrite _ => 1
  | .capabilityFault _ => 1
  | .partitionReset _ => 1
  | .cellRepartition _ _ => 1
  | .deviceReset _ => 1
  | .hostMemRead _ _ => 1
  | .hostMemWrite _ _ => 1
  | .getVersion => 1
  | .getCapabilities => 1
  | .negotiateAlgorithms => 1
  | .getDigests => 1
  | .getCertificate _ _ _ => 1
  | .challenge _ => 1
  | .getMeasurements _ _ => 1
  | .spdmUnsupported _ => 1
  | .debugToken _ => 1
  | .debugHaltRequest _ => 1
  | .powerP1 _ => 1
  | .powerC1 _ => 1
  | .powerC2 _ => 1
  | .powerC3 => 1
  | .powerWake _ => 1
  | .leaveTenant _ => 1
  | .droopAlarm _ => 1
  | .droopHalfRateEnd _ => 1
  | .tstampTick => 1
  | .suspicionDecay => 1
  | .targetedTestStart _ => 1
  | .targetedTestEnd _ _ => 1
  | .scrubPatrol _ => 1
  | .debugResume _ _ => 1
  | .debugStateSet _ _ => 1
  | .partitionCreation _ => 1
  | .hubLinkChecksumRetry _ => 1
  | .firmwareStore _ _ => 1
  | .pageMigrationCopy _ _ _ => 1
  | .giuthPortTraining _ _ => 1

/-- Why bytes do not decode. -/
inductive DecodeRefusal where
  | truncated
  deriving DecidableEq, Repr

/-- Four bytes, lowest address first, as one word (R81). -/
def wordOfBytes (a b c d : BitVec 8) : BitVec 32 :=
  BitVec.ofNat 32 (a.toNat + 2 ^ 8 * b.toNat + 2 ^ 16 * c.toNat + 2 ^ 24 * d.toNat)

/-- The four bytes of a word, lowest address first. -/
def bytesOfWord (w : BitVec 32) : List (BitVec 8) :=
  [field w.toNat 0 8, field w.toNat 8 8, field w.toNat 16 8, field w.toNat 24 8]

/-- Decoding of bytes in a stream: the instruction and the bytes after it. -/
def decode (st : Stream) : List (BitVec 8) → Except DecodeRefusal (Instr × List (BitVec 8))
  | a :: b :: c :: d :: rest =>
    let w := wordOfBytes a b c d
    if isPair st w.toNat then
      match rest with
      | e :: f :: g :: h :: rest' =>
        match decodeWords st w (wordOfBytes e f g h) with
        | .illegalWord _ => .ok (.illegalWord w, rest)
        | i => .ok (i, rest')
      | _ => .error .truncated
    else .ok (decodeWords st w 0, rest)
  | _ => .error .truncated

/-- The streams in slot order (R27). -/
def Stream.all : List Stream := [.s, .v, .m, .x]

/-- The longest instruction is two words (R82). -/
def tableBytes (nbits w : Nat) : List (BitVec 8) :=
  (List.range 8).map fun k => if 8 * k < nbits then field w (8 * k) 8 else 0

/-- Whether an instruction is the illegal word. -/
def Instr.isIllegal : Instr → Bool
  | .illegalWord _ => true
  | _ => false

/-- The first stream, in slot order, in which bytes are an instruction; S where they are one in none (log 3). -/
def tableStream (bytes : List (BitVec 8)) : Stream :=
  (Stream.all.find? fun st => match decode st bytes with
    | .ok (i, _) => !i.isIllegal
    | .error _ => false).getD .s

/-- A step of rows 272 to 372 of the opcode table, and no word of a stream. -/
def Instr.isEvent (i : Instr) : Bool := decide (272 ≤ i.ctorIdx)

/-- The instruction that the decoder reads from a row's word: in the first stream of the slot order S, V, M, X in which
it is one (log 3). -/
def decodeTableWord (nbits w : Nat) : Option Instr :=
  match decode (tableStream (tableBytes nbits w)) (tableBytes nbits w) with
  | .ok (i, _) => some i
  | .error _ => none

end

end Sys2Proof
end

