-- ==== Sys2Proof/Word.lean ====
section
/-!
DEFINITION. The word types of the machine and plain finite maps.
-/
namespace Sys2Proof

/-- A byte of memory (05 R107). -/
abbrev Byte := BitVec 8
/-- A scalar, an entry of an s, a or channel queue (06 R124). -/
abbrev Word := BitVec 64
/-- A vector, an entry of a v queue: 256 bytes (06 R124). -/
abbrev Vec := BitVec 2048
/-- A lane mask, one bit per byte position (04 R85). -/
abbrev Mask := BitVec 256

/-- A finite table over `Nat`: sorted keys, no key twice. A key that is not listed has the default that the reader
gives. -/
abbrev Table (α : Type) := List (Nat × α)

namespace Table

/-- The entry at a key, or the default. -/
def get {α : Type} (t : Table α) (d : α) (k : Nat) : α :=
  match t with
  | [] => d
  | (k', v) :: r => if k = k' then v else get r d k

/-- Sets the entry at a key and keeps the keys sorted. -/
def set {α : Type} (t : Table α) (k : Nat) (v : α) : Table α :=
  match t with
  | [] => [(k, v)]
  | (k', v') :: r =>
    if k = k' then (k, v) :: r
    else if k < k' then (k, v) :: (k', v') :: r
    else (k', v') :: set r k v

/-- Changes the entry at a key. -/
def modify {α : Type} (t : Table α) (d : α) (k : Nat) (f : α → α) : Table α :=
  set t k (f (get t d k))

/-- Removes the entry at a key. -/
def erase {α : Type} (t : Table α) (k : Nat) : Table α :=
  List.filter (fun p => !(p.1 == k)) t

/-- Sets the entry, or removes it where it is the default: equal tables are then equal lists. -/
def put {α : Type} [DecidableEq α] (t : Table α) (d : α) (k : Nat) (v : α) : Table α :=
  if v = d then erase t k else set t k v

end Table

end Sys2Proof
end

