-- ==== Sys2Proof/Config.lean ====
section
/-!
DEFINITION. What an implementation fixes and the free values: what the spec leaves open. A free value has no body, so
no proof can see what it is.
-/
namespace Sys2Proof

/-- A memory with ECC (14 R271): device HBM, the shared store of a die, the buffers, plane stores and shadow storage of a cell, and hub
SRAM, whose units are numbered by their place in the hub register window (log 60). -/
inductive MemRef where
  | hbm | ss (die : Nat) | ab (cell : Nat) | wb (cell : Nat) | cb (cell : Nat) | plane (cell : Nat) (one : Bool) | shadow (cell : Nat)
  | hub
  deriving DecidableEq, Repr, Inhabited

/-- A memory error that no read has found yet: one bad bit of a 64-bit unit, or a unit that cannot be corrected (14 R271, R272). -/
structure Upset where
  mem    : MemRef
  unit   : Nat
  double : Bool
  deriving DecidableEq, Repr, Inhabited

/-- What happens next. The streams, the engines, the memory machine, the hub, firmware, the host and the reference clock run side by
side, and the spec leaves their order open (02 R26, 18 R344); memory errors come at any time (14 R271). -/
inductive Pick where
  | issue (c : CtxRef) (st : Stream)   -- a stream of a context tries to issue its current word
  | happen (i : Instr)                 -- a step of rows 272 to 372 of the opcode table
  | clock                              -- the hub clock advances by one cycle
  | upset (u : Upset)                  -- a memory unit goes bad
  deriving DecidableEq, Repr, Inhabited

/-- The free choice of the next step, once the agenda of the state is used up (log 1). -/
opaque Config.freePick : Nat → Pick

/-- Which indices of the load-store domain name another package, as firmware has assigned them (17 R332). -/
opaque Config.domainHas : Nat → Bool

/-- The identity that the device derives from its PUF at the k-th reset: a value of each kind that SPDM reports (27 R467). -/
opaque Config.spdmValue : Nat → Nat → BitVec 384

/-- The signature of the identity key over an SPDM answer: the reset, the nonce and the index of what is answered (27 R467). -/
opaque Config.spdmSign : Nat → BitVec 256 → Nat → BitVec 768

/-- A byte of a certificate chain: the reset, the slot and the offset (27 R467). -/
opaque Config.certByte : Nat → Nat → Nat → Byte

/-- The 16-byte nonce that the hub issues next (27 R469). -/
opaque Config.nonce : Nat → BitVec 128

/-- Whether a signature by the tenant's key over a debug token verifies (27 R469). -/
opaque Config.tokenVerifies : DebugToken → Bool

/-- Whether a stretched cell clock ticks: the cell and the hub time (27 R473 gives the stretched cycles no length). -/
opaque Config.stretchedTick : Nat → Nat → Bool

/-- Whether firmware or the partition layout disallows a host access, a read only while a partition is in TENANT: a fresh number, the
address and the length (27 R458 leaves the allowed ranges to firmware). -/
opaque Config.hostRefuses : Nat → Nat → Nat → Bool

/-- The die whose shared store a COPY node names: the hub belongs to no die, and the spec names none (21 R383). -/
opaque Config.copyDie : Nat

/-- The random value of a stochastic COPY node: no context gives it a key (21 R383, 16 R309). -/
opaque Config.copyRandom : Nat → BitVec 16

/-- Where in device HBM firmware keeps room for the retained regions of cells that an exchange parks, 4 MiB for each cell (02 R48 names no
place). -/
opaque Config.retainBase : Nat

/-- How many transfers of the inbound peer queue meet the grant table at the end of a hub cycle (16 R318 names no time). -/
opaque Config.peerChecks : Nat → Nat

/-- Whether the k-th access of a cell to the shared store is a read that is rebuilt through parity, and whether it waits a cycle for its
bank: the spec names the arbitration of one cycle, and the order in which a die takes the requests of its cells is free (14 R266, R267). -/
opaque Config.bankRebuilt : Nat → Nat → Bool

opaque Config.bankWaits : Nat → Nat → Bool

/-- A counter that firmware clears through the hub register window at an offset that no table gives: an event counter of a cell, a counter
of the package, the retries or the drops of a Giuth port (26 R447, R450). -/
inductive CounterRef where
  | event (cell n : Nat) | package (k : Nat) | retries (port : Nat) | drops (port : Nat)
  deriving DecidableEq, Repr, Inhabited

/-- The counter that stands at an offset of the window which the tables leave out. -/
opaque Config.counterAt : Nat → Option CounterRef

end Sys2Proof
end

