-- ==== Sys2Proof/Machine/State.lean ====
section
/-!
DEFINITION. The state of the device: plain data, holding everything the spec gives the machine, and the state after
reset. INVENTORY.md lists each piece with the rule that names it.
-/
namespace Sys2Proof.Machine

/-! ## Ways to stop -/

/-- Why a step stops with a fault. -/
inductive Fault where
  /-- A term of `Instr` that no decoder gives. No meaning raises it: what the spec calls a fault is a trap, and a trap is taken
  (12 R243); an ill-formed term runs with the fields that it has. Safe. -/
  | illFormed
  deriving DecidableEq, Repr

/-- Why a step has no meaning. -/
inductive Refusal where
  /-- An instruction that the model does not give a meaning. Raised by an arm of `exec`. Safe. -/
  | notModelled (mnemonic : String)
  deriving DecidableEq, Repr

/-! ## Traps (12 R243 to R246) -/

/-- The causes of a trap (R243). -/
inductive Cause where
  | illop | qovf | qund | align | bufacc | fmtmix | zprob | rccap | looperr | rngovf | poison | swtrap | katfail | domerr
  | brkpt | pfault | prot | atompath
  deriving DecidableEq, Repr, Inhabited

/-- What an access does to a page (17 R329). -/
inductive Use where
  | read | write | fetch | atomic
  deriving DecidableEq, Repr, Inhabited

/-- The syndrome of a walk that faults (17 R336): the access type, the level at which the walk stopped, and the entry it read there. -/
structure Syndrome where
  use   : Use
  level : Nat
  entry : Word
  deriving DecidableEq, Repr, Inhabited

/-- A trap to be taken: its cause, `TADDR`, the issuing stream, whether it is asynchronous (R244); where it is not the word at the pc
that traps, the address of that word or of the word that issued the operation (22 R414); and for a translation fault the syndrome of its
walk. -/
structure Trap where
  cause : Cause
  addr  : Word
  st    : Stream
  async : Bool
  word  : Option Word := none
  syn   : Option Syndrome := none
  deriving DecidableEq, Repr, Inhabited

/-! ## Memory -/

/-- A memory in one canonical form. `cells` lists address and byte, addresses strictly rising, no byte equal to `base`;
an address that is not listed reads as `base`. `marks` lists the poisoned 64-bit units in strictly rising order
(14 R272). -/
structure Memory where
  base  : Byte
  cells : List Host.Cell
  marks : List Nat
  deriving DecidableEq, Repr, Inhabited

/-- Strictly rising keys, each at or above `lo`. -/
def risingFrom (lo : Nat) : List Nat → Bool
  | [] => true
  | a :: r => decide (lo ≤ a) && risingFrom (a + 1) r

/-- The canonical form of a memory. -/
def Memory.wf (m : Memory) : Bool :=
  risingFrom 0 (m.cells.map (·.1)) && m.cells.all (fun p => p.2 != m.base) && risingFrom 0 m.marks

/-- A memory in which every byte is `b` and no unit is poisoned. -/
def Memory.blank (b : Byte) : Memory := { base := b, cells := [], marks := [] }

/-- The spaces an engine names (16 R303, 09 R211): the typed buffers, the shared store of the die, virtual memory. -/
inductive Space where
  | ab | wb | cb | ss | vm
  deriving DecidableEq, Repr, Inhabited

/-- Where the single copy of a byte lies (18 R343): the shared store of a die, device HBM, host memory, the HBM of
another package, or the scratch pages of a dual run (21 R402). -/
inductive Home where
  | ss (die : Nat) | hbm | host | peer | scratch (n : Nat)
  deriving DecidableEq, Repr, Inhabited

/-- A range of bytes of a space: from `addr`, `len` bytes. -/
structure Seg where
  space : Space
  addr  : Nat
  len   : Nat
  deriving DecidableEq, Repr, Inhabited

/-! ## Queues and results in flight (06) -/

/-- An entry of a scalar queue, with the modulo iteration that pushed it, if any (08 R190). -/
structure Ent where
  val : Word
  it  : Option Nat
  deriving DecidableEq, Repr, Inhabited

/-- An entry of a vector queue. -/
structure VEnt where
  val : Vec
  it  : Option Nat
  deriving DecidableEq, Repr, Inhabited

/-- Where a result goes. A scalar local queue is named by its key: s n is n, V a n is 32 + n, M a n is 48 + n,
X a n is 64 + n. -/
inductive Dest where
  | dq (key : Nat) | vq (n : Nat) | chan (n : Nat) | pred (n : Nat) | mask (n : Nat) | slot (n : Nat)
  deriving DecidableEq, Repr, Inhabited

/-- A result that has issued and is not in place yet (02 R25, 06 R126, R130). `due` is the cell cycle in which it falls
due; a result with no exposed latency has none. `val` is missing while the operation that gives it has not completed. -/
structure Flight where
  tok  : Nat
  st   : Stream
  dest : Dest
  val  : Option Vec
  due  : Option Nat
  it   : Option Nat
  deriving DecidableEq, Repr, Inhabited

/-- A pop that a word of a modulo iteration made: what the rollback returns (08 R190). -/
structure PopRec where
  it   : Nat
  dest : Dest
  val  : Vec
  orig : Option Nat
  deriving DecidableEq, Repr, Inhabited

/-! ## The coder (10 R223 to R227) -/

/-- A frequency table: 32 frequencies of 13 bits and TV (R223). -/
structure FreqTable where
  f  : List (BitVec 13)
  tv : Bool
  deriving DecidableEq, Repr, Inhabited

/-- A byte of a coder window (R226): its stream offset, whether it was read with a poison mark, and the rank and the address of the
instruction that emitted it. -/
structure WinByte where
  off  : Nat
  byte : Byte
  bad  : Bool
  rank : Nat
  pc   : Word
  deriving DecidableEq, Repr, Inhabited

/-- The state of a coder slot without its checkpoint (R226). `win` holds the window: bytes emitted and not yet written, or
read ahead. -/
structure SlotState where
  bound    : Bool
  decodes  : Bool
  endtrap  : Bool
  low      : BitVec 32
  range    : BitVec 32
  cache    : Byte
  cvalid   : Bool
  pend     : BitVec 16
  code     : BitVec 32
  base     : BitVec 55
  capacity : BitVec 32
  daddr    : BitVec 55
  pos      : BitVec 32
  overrun  : Bool
  illformed : Bool
  win      : List WinByte
  deriving DecidableEq, Repr, Inhabited

/-- What an RCINIT at the head of V has read so far (R232): the descriptor, then the first bytes of a stream to decode. -/
structure InitRead where
  id   : Nat
  addr : Word
  code : Bool
  len  : Nat
  got  : Table (Byte × Bool)
  deriving DecidableEq, Repr, Inhabited

/-- A coder slot with its checkpoint (R226, R237), and the fault that has stopped its emissions (12 R244). -/
structure Slot where
  now    : SlotState
  saved  : SlotState
  marked : Bool
  stopped : Option Trap
  deriving DecidableEq, Repr, Inhabited

/-! ## Engine operations (14 R277, 16 R304, 12 R244) -/

/-- A part of an access after translation (18 R345): `pos` is its place in the whole access, in bytes; `span` is the first virtual address
and the size of the page that translates it. -/
structure Part where
  pos  : Nat
  len  : Nat
  home : Home
  addr : Nat
  va   : Word
  page : PageKind
  span : Nat × Nat := (0, 0)
  deriving DecidableEq, Repr, Inhabited

/-- The conversion of an X copy (16 R308): conversion code and rounding mode, with the key, the stream and the position of
the first random draw of a stochastic copy. -/
structure XConv where
  code : Nat
  rm   : Nat
  key  : Word
  strm : Word
  draw : Word
  deriving DecidableEq, Repr, Inhabited

/-- What an operation does once its reads are in place. Operands are captured at issue (16 R303). -/
inductive OpKind where
  /-- A scalar access to the shared store: finished with its accesses (07 R161). -/
  | scalar
  /-- V loads and gathers, stores and scatters (09 R211 to R213): the runs as position, address and length in bytes.
  `mask` holds the bytes that take part. -/
  | vread (sp : Space) (runs : List (Nat × Nat × Nat)) (mask : Mask) (tok : Option Nat)
  | vwrite (sp : Space) (runs : List (Nat × Nat × Nat)) (data : Vec) (mask : Mask)
  /-- One tap, and one pixel, of the vector window path (09 R217, R218): element type, descriptor number and contents,
  channel group; weights, accumulator or CB offset; mask, rounding mode, result. -/
  | vwmac (et : BitVec 2) (wd : Nat) (desc : BitVec 512) (g : Nat) (w acc : Vec) (cb : Option Nat) (mask : Mask)
    (rm : Nat) (tok : Option Nat)
  | vwpool (et : BitVec 2) (wd : Nat) (desc : BitVec 512) (g : Nat) (mask : Mask) (rm : Nat) (tok : Option Nat)
  /-- Table moves of the coder (10 R225). -/
  | tableLoad (f : Nat) (sp : Space) (addr : Nat)
  /-- RCFLUSH waits for the bytes of its slot and then writes POSITION (10 R236). -/
  | flush (slot : Nat) (daddr : Word) (pos : BitVec 32)
  /-- X copies of `rows` rows (16 R308 to R310): conversion, distance of the side plane, row 0, signed pitches. -/
  | copy (conv : Option XConv) (soff : Nat) (src dst : Seg) (spitch dpitch : Int) (rows : Nat)
  /-- X gathers and scatters of n rows of rb bytes (16 R311): the index list, the packed or indexed destination and source. -/
  | gather (n rb : Nat) (list dst src : Seg)
  | scatter (n rb : Nat) (list dst src : Seg)
  | fill (pat : Word) (dst : Seg)
  | send (dom : DomScope) (member : Word) (src : Seg)
  | reduce (ty : Nat) (dst src : Seg)
  | sendReduce (dom : DomScope) (ty : Nat) (member : Word) (src : Seg)
  | peer (member : Word) (src : Seg)
  | prefetch (va : Word) (count : Nat)
  /-- The M operations (15 R286 to R301). `fmt` is the format code of R281. -/
  | mldw (fmt w side : Nat)
  | mswap (act sh : BitVec 4)
  | mzero
  | mstr (acc ovf : Bool) (fmt aA aC rows pitch side klen : Nat)
  | mwin (acc ovf : Bool) (fmt wd : Nat) (desc : BitVec 512) (pix n aC slice : Nat)
  | mout (fmt act : Nat) (aC aD : Nat) (aP : Word)
  | mkat (seed sig : BitVec 32)
  deriving DecidableEq, Repr, Inhabited

/-- How far an operation has come. -/
inductive Phase where
  | held | reading | writing
  deriving DecidableEq, Repr, Inhabited

/-- A record of the range checker (14 R277): the operation, its ranges of the shared store and the typed buffers, and
its progress. `parts` are the translated parts of a V access. `buf` holds the bytes read so far, by position in the
operation's source stream, with their poison; `done` says how many rows are finished, and `pos` how many bytes of the
present row's reads or writes have issued. `pc` is the address of the word that issued it. `pending` is a fault that has stopped the operation, `owed` the POISON that it
raises once it has run to completion (14 R273). `lost` are, by control register, the bits that a younger CSR write has
overtaken (06 R143). -/
structure EngineOp where
  id      : Nat
  st      : Stream
  kind    : OpKind
  reads   : List Seg
  writes  : List Seg
  phase   : Phase
  parts   : List Part
  buf     : Table (Byte × Bool)
  done    : Nat
  pos     : Nat
  pending : Option Trap
  owed    : Option Trap
  lost    : Table Word
  it      : Option Nat
  pc      : Word := 0
  deriving DecidableEq, Repr, Inhabited

/-! ## The memory machine (18) -/

/-- Who issued an access: a stream of a context, a unit of the hub for a partition, the host, an agent of a peer package (R342). -/
inductive Agent where
  | stream (c : CtxRef) (st : Stream)
  | hub (unit part : Nat)
  | host
  | peerPkg (pkg agent : Nat)
  deriving DecidableEq, Repr, Inhabited

/-- What an access does at its home. -/
inductive AccKind where
  | read
  | write
  | amo (op : AmoOp) (operand : Word)
  | cas (expect new : Word)
  deriving DecidableEq, Repr, Inhabited

/-- Where the value of a read goes: a scalar operation, the buffer of an engine operation at a position, the window of a
coder slot, an RCINIT, the hub copy engine, or nowhere. -/
inductive Sink where
  | scalar (op : Nat) (pos : Nat)
  | engine (op : Nat) (pos : Nat)
  | coder (slot : Nat) (off : Nat)
  | init (id : Nat) (pos : Nat)
  | copy (pos : Nat)
  | none
  deriving DecidableEq, Repr, Inhabited

/-- One part of an access (R344, R345): the bytes of one 64-byte unit and one page. `data` are the bytes to write, with
`mask` the ones written, or after PERFORM of a read the bytes read, each with its poison. `stamp` numbers its PERFORM among
all those of the machine. `mixed` numbers an access of which a part lies on a page that is not SO, and `failed` that a peer has refused it or
a link has lost it, and firmware has not answered yet; `left` says that its context has stopped. -/
structure Access where
  id     : Nat
  agent  : Agent
  kind   : AccKind
  home   : Home
  addr   : Nat
  va     : Word
  data   : List (Byte × Bool)
  mask   : List Bool
  page   : PageKind
  acq    : Bool
  rel    : Bool
  obs    : BitVec 5
  sink   : Sink
  rank   : Nat
  posted : Bool
  performed : Bool
  acked  : Bool
  got    : Bool
  stamp  : Nat := 0
  span   : Nat × Nat := (0, 0)
  mixed  : Option Nat := none
  failed : Bool := false
  left   : Bool := false
  deriving DecidableEq, Repr, Inhabited

/-- A FENCE that has issued (07 R166, 18 R354): its kind, its mask and the rank it stands at. -/
structure Fence where
  kind  : Nat
  obs   : BitVec 5
  rank  : Nat
  deriving DecidableEq, Repr, Inhabited

/-- What a scalar access does with its value (07 R158 to R164, R174). -/
inductive ScalarKind where
  | load (size : Nat) (sext : Bool) (tok : Option Nat)
  | store
  | amo (size : Nat) (tok : Option Nat)
  | wdld (n : Nat)
  deriving DecidableEq, Repr, Inhabited

/-- A scalar access in progress: its parts arrive one by one. -/
structure ScalarOp where
  id    : Nat
  kind  : ScalarKind
  addr  : Word
  got   : List (Nat × Byte × Bool)
  parts : Nat
  it    : Option Nat
  pc    : Word := 0
  deriving DecidableEq, Repr, Inhabited

/-! ## Translation (17) -/

/-- A TLB entry: the translation of one page (R333). -/
structure TlbEntry where
  vpn  : Nat
  size : Nat
  phys : Nat
  home : Nat
  w    : Bool
  x    : Bool
  ac   : Bool
  page : PageKind
  deriving DecidableEq, Repr, Inhabited

/-! ## Streams, contexts, cells -/

/-- The state of one stream of a context: pc, GFENCE count, retired instructions, loop levels 0 and 1, the saved pc and
count of the trap record, the mark of a GFENCE that waits, the marks of the loop unit and of the halt bundle, and the
stream's TLB. -/
structure StreamState where
  pc    : Word
  gf    : Word
  seq   : Word
  lc0   : Word
  ls0   : Word
  le0   : Word
  lc1   : Word
  ls1   : Word
  le1   : Word
  tpc   : Word
  tseq  : Word
  gfw     : Bool
  passEnd : Bool
  halted  : Bool
  tlb     : List TlbEntry
  deriving DecidableEq, Repr, Inhabited

/-- The node that runs on a context (21 R399): its rank in the team, the splice-cache entry of fused code with the node of
its consumer (22 R412), and the number of the scratch memory that takes its writes in a dual run (21 R402). -/
structure Running where
  node     : NodeRef
  rank     : Nat
  splice   : Option Nat
  consumer : Option Nat
  scratch  : Option Nat
  deriving DecidableEq, Repr, Inhabited

/-- How a CSR instruction writes (07 R167). -/
inductive CsrOp where
  | write | set | clear
  deriving DecidableEq, Repr, Inhabited

/-- A change to a control register that stands in the order of rank (06 R143): a CSR write of the bits of a mask, a sticky flag, a count
of n more in the field of w bits at `lo`. -/
inductive CsrChange where
  | csr (op : CsrOp) (mask a : Word)
  | flags (f : Word)
  | count (lo w n : Nat)
  deriving DecidableEq, Repr, Inhabited

/-- What stops a context from issuing, besides its own words. -/
inductive Hold where
  | free           -- issues
  | firmware       -- waits for the answer to a system cause (12 R251)
  | failed         -- a double trap has halted it (12 R248)
  | finished       -- its halt bundle has retired (02 R45)
  | debug          -- halted for the debugger by BRK (07 R175)
  deriving DecidableEq, Repr, Inhabited

/-- One context (02 R21, 06 R124, R140). -/
structure Ctx where
  ss      : StreamState
  sv      : StreamState
  sm      : StreamState
  sx      : StreamState
  -- queue files, predicates, masks, tokens
  dq      : Table (List Ent)
  vq      : Table (List VEnt)
  chan    : Table (List Ent)
  tokens  : List (BitVec 4)
  preds   : BitVec 8
  masks   : Table Mask
  flights : List Flight
  pops    : List PopRec
  -- coder and windows
  tables  : Table FreqTable
  slots   : Table Slot
  initRead : Option InitRead
  wd      : Table (BitVec 512)
  -- control registers (06 R140)
  status  : Word
  part    : BitVec 4
  gen     : Word
  tvec    : Word
  tcause  : Word
  taddr   : Word
  torig   : Word
  tinfl   : Word
  lpw     : Word
  lii     : Word
  domt    : Word
  domd    : Word
  domp    : Word
  doms    : Word
  sstept  : Word
  sstepd  : Word
  sstepp  : Word
  ssteps  : Word
  param   : Table Word
  node    : Word
  rngkey  : Word
  rngstream : Word
  rngpos  : Word
  vcsr    : Word
  mcsr    : Word
  rcsr    : Word
  poisonlog : Word
  poisoncnt : Word
  xerr    : Word
  xdone   : Nat
  -- matrix engine (15 R281, R282)
  cf      : BitVec 4
  tagAct  : BitVec 4
  tagSh   : BitVec 4
  issCf   : BitVec 4
  issAct  : BitVec 4
  issSh   : BitVec 4
  ldSince : Bool
  -- work in progress
  ops     : List EngineOp
  sops    : List ScalarOp
  fences  : List Fence
  -- barrier, halt, trap, firmware
  barrier : Option DomScope
  barrierRank : Nat
  arrived : Bool
  released : Bool
  -- by scope: this context counts as arrived at every later barrier, since it has halted (02 R41)
  haltIn  : BitVec 4
  atFence : Bool
  halting : Bool
  cut     : Option Trap
  -- asynchronous causes kept while a cut is taken or a handler runs (12 R244)
  late    : List Trap
  hold    : Hold
  running : Option Running
  -- what an XCPY2, or an RWPOST, at the head of its stream has read so far (16 R310, 23 R436)
  xcpy2   : Option InitRead
  rwpost  : Option InitRead
  -- LQPOP waits for a record, and the record, or the empty result, that the hub has given it (20 R376, R377)
  lqWait  : Bool
  lqGot   : Option (Word × Word)
  -- the rank at which a word of S waits to act at the hub (23 R434)
  hubRank : Option Nat
  -- CSR writes that take effect in the next cycle (07 R168): number, bits, value
  csrPend  : List (Nat × Word × Word)
  -- the counts of POISONCNT and XERR in order of rank (06 R143): by register the value before the oldest noted change, and the changes
  -- with their ranks
  csrBase  : Table Word
  csrLog   : List (Nat × Nat × CsrChange)
  -- the walks that the stream TLBs have yet to prefetch: slot and virtual address (17 R334)
  prefetch : List (Nat × Nat)
  -- the rollback that the present cycle has detected: the lowest iteration (08 R189)
  rbNow    : Option Nat
  -- the accesses from this rank on belong to the handler (12 R248)
  hndRank  : Nat
  -- the slots that have issued in the present cycle (06 R100)
  slots0   : Nat
  -- the first iteration that may still roll back (08 R192)
  rbFloor  : Nat
  -- slots that met an interlock, or a wait outside their cluster, in the present cycle (26 R450, counters 4 and 5)
  lockSlots : Nat
  waitSlots : Nat
  -- by channel queue: the cell cycle and the slot of the last push that fell due (06 R131)
  chanLast : Table (Nat × Nat)
  deriving DecidableEq, Repr, Inhabited

/-- The power states of a cell (27 R471); C3 is `Hub.sleep`. -/
inductive Power where
  | p0 | p1 | c1 | c2
  deriving DecidableEq, Repr, Inhabited

/-- The security states of a cell (27 R468). -/
inductive Security where
  | openState | tenant | fenced
  deriving DecidableEq, Repr, Inhabited

/-- A line of the read cache (18 R347): the home, the number of its 64-byte unit, the bytes, and whether the page is RC. `stamps`
says for each byte which PERFORM gave it. -/
structure CacheLine where
  home  : Home
  unit  : Nat
  bytes : List (Byte × Bool)
  rc    : Bool
  stamps : List Nat
  deriving DecidableEq, Repr, Inhabited

/-- The image that shadow storage parks: both contexts and CB (02 R50, 12 R254, R256), with the retained regions of WB and
AB that the copy engine has written back to device HBM (02 R48): space, offset, length. `power` is true for an image parked for power
state C2. -/
structure Image where
  a     : Ctx
  b     : Ctx
  cb    : Memory
  kept  : List (Space × Nat × Nat)
  power : Bool
  deriving DecidableEq, Repr, Inhabited

/-- One cell. -/
structure Cell where
  mode    : BitVec 2
  modeHeld : Option (BitVec 2)
  cycle   : Nat
  wb      : Memory
  ab      : Memory
  cb      : Memory
  plane0  : Memory
  plane1  : Memory
  active1 : Bool
  cache   : List CacheLine
  letters : Table (BitVec 32)
  evc     : Table Word
  evNow   : Table Nat
  shadow  : Option Image
  part    : Option Nat
  -- reliability record (26 R457)
  score   : Nat
  state   : BitVec 2
  tests   : BitVec 32
  katskip : BitVec 32
  katfail : BitVec 32
  corr    : BitVec 32
  testing : Bool
  -- power, security, debug, droop (27)
  power   : Power
  powerReq : Option Power
  security : Security
  halted  : Bool
  stepping : Bool
  stretch : Nat
  halfRate : Nat
  deriving DecidableEq, Repr, Inhabited

/-- A compute die: its shared store and its droop threshold (14 R265, 27 R473). -/
structure Die where
  ss    : Memory
  droopEn : Bool
  droopLevel : BitVec 10
  deriving DecidableEq, Repr, Inhabited

/-- A fault that the hub reports to firmware: the context, the cause, the address of the word and `TADDR`, with the walk's
syndrome (12 R248, 17 R336). -/
structure FaultRec where
  c     : CtxRef
  use   : Use
  cause : Cause
  pc    : Word
  addr  : Word
  level : Nat
  entry : Word
  deriving DecidableEq, Repr, Inhabited

/-- How a node ends when it fails (21 R396): status, cause, detail, and the original node of spliced code. -/
structure Failure where
  status : Nat
  cause  : Nat
  detail : Word
  orig   : Option Nat
  deriving DecidableEq, Repr, Inhabited

/-- A superstep transfer that a sender has posted to a domain (02 R37, 16 R314, R315): the sender, its package, its rank,
the member address, the element type of a reduction, the bytes with their marks, and for one of another package its superstep. -/
structure Posted where
  part   : Nat
  dom    : Nat
  sender : CtxRef
  pkg    : Nat
  rank   : Nat
  target : Word
  red    : Option Nat
  data   : List (Byte × Bool)
  step   : Nat := 0
  deriving DecidableEq, Repr, Inhabited

/-- A message that leaves the package on a Giuth link (27 R464): an XPEER; for another hub of a domain a superstep transfer, an arrival
with its superstep, the drop of a transfer that came from there, and a member that halts or whose register is rewritten (02 R37, R41). -/
inductive OutMsg where
  | xpeer (c : CtxRef) (op : Nat) (target : Word) (data : List (Byte × Bool))
  | transfer (p : Posted)
  | arrival (part dom step : Nat)
  | dropped (pkg part dom : Nat) (sender : CtxRef) (rank : Nat) (halted : Bool)
  | halted (part dom : Nat) (c : CtxRef) (on : Bool)
  deriving DecidableEq, Repr, Inhabited

/-- The hub's record of a domain of a partition (02 R36, 21 R381): its parent, its members with their packages, the supersteps that it
has finished, and the members of other packages that have halted. -/
structure DomRec where
  part    : Nat
  id      : Nat
  parent  : Option Nat
  members : List (Nat × CtxRef)
  step    : Nat
  halted  : List (Nat × CtxRef)
  deriving DecidableEq, Repr, Inhabited

/-- What the hub copy engine works on (21 R383, 17 R339): a COPY node with its descriptor, or a page that migrates. -/
inductive CopyJob where
  | node (n : NodeRef) (desc : Nat)
  | page (src dst len : Nat)
  deriving DecidableEq, Repr, Inhabited

/-- How far the hub copy engine has come: the row, whether it writes, the bytes that it has read by their position in the row, and the
number of its first random value. -/
structure CopyRun where
  job     : CopyJob
  row     : Nat
  busy    : Bool
  writing : Bool
  buf     : Table (Byte × Bool)
  draw    : Nat
  deriving DecidableEq, Repr, Inhabited

/-! ## The sorting office (20 R366 to R374, 21) -/

/-- A launch queue (20 R368 to R374): counts, status, error, shadow registers and ring, the number of launches taken, and whether the last
packet taken was a FENCE. -/
structure LaunchQueue where
  tail    : BitVec 32
  head    : BitVec 32
  live    : Nat
  ovr     : Bool
  halt    : Bool
  errWord : BitVec 32
  reason  : Nat
  sh      : Table Word
  ring    : Table Word
  taken   : Nat
  fence   : Bool
  deriving DecidableEq, Repr, Inhabited

/-- An envelope region (21 R384). -/
structure Region where
  space     : Nat
  base      : Nat
  len       : Nat
  reads     : Bool
  writes    : Bool
  retained  : Bool
  transient : Bool
  id        : Nat
  deriving DecidableEq, Repr, Inhabited

/-- Where a node of a live launch stands (21 R387, R388): not submitted, to be submitted in the present hub cycle, waiting for derived
edges, ready, running, ended. -/
inductive NodeStatus where
  | idle | due | waiting | ready | running | ended
  deriving DecidableEq, Repr, Inhabited

/-- An explicit edge that has been applied (21 R389): the predecessor, with its regions and the cells of its team at that time. -/
structure Applied where
  node    : Nat
  regions : List Region
  cells   : Option (List Nat)
  deriving DecidableEq, Repr, Inhabited

/-- A node of a live launch: its explicit count, the slots released, the predecessors whose edges were applied, the nodes that
its derived edges wait for, its record and regions as read at submission, its place in the order of submission, the times at
which it became ready and started, the levels it has risen, the iteration of a LOOP, its teams, with the signatures and scratch memories of
a dual run, and its part in a spliced pair: the splice-cache entry, the other node, whether it is the consumer, and whether it is
not to be spliced again. `left` names the contexts of stopped runs, with the rank below which their accesses are those of the run. -/
structure NodeInfo where
  status   : NodeStatus
  count    : Nat
  released : BitVec 8
  after    : List Applied
  derived  : List NodeRef
  record   : BitVec 1024
  regions  : List Region
  order    : Nat
  readyAt  : Nat
  startAt  : Nat
  raised   : Nat
  iter     : Nat
  teams    : List (List CtxRef)
  sigs     : List Word
  scratches : List Nat
  splice   : Option Nat
  partner  : Option Nat
  consumer : Bool
  apart    : Bool
  left     : List (CtxRef × Nat)
  deriving DecidableEq, Repr, Inhabited

/-- A live launch (20 R373, R374): its queue and number, the graph, the entry node and node count, the completion word and
value, interrupt, priority cap, arguments and hint of the entry node, whether it takes no further node, and whether it
failed. -/
structure Launch where
  queue  : Nat
  number : Nat
  graph  : Word
  entry  : Nat
  nodes  : Nat
  done   : Word
  value  : Word
  irq    : Bool
  cap    : Nat
  args   : List Word
  hint   : Nat
  table  : Table NodeInfo
  ended  : Bool
  failed : Bool
  deriving DecidableEq, Repr, Inhabited

/-- A partition (02 R22): its page of the hub register window (27 R459), its launch queues and live launches, the turns of
the round-robin by level, the reservation with its contexts (21 R400), and pre-emption (02 R46 to R49): at node boundaries,
the first launch number that is not held back; the time of an urgent request; work parked in shadow storage. -/
structure Partition where
  defined   : Bool
  tenant    : Bool
  linkmode  : BitVec 2
  ageLimit  : Nat
  resLimit  : Nat
  urgLimit  : Nat
  crbase    : Word
  crsize    : Nat
  crwr      : BitVec 32
  crrd      : BitVec 32
  crovw     : Nat
  splref    : Table Nat
  spldone   : Nat
  splrerun  : Nat
  queues    : Table LaunchQueue
  launches  : Table Launch
  nextLaunch : Nat
  submits   : Nat
  turns     : Table Nat
  nodeTurns : Table Nat
  reserved  : Option NodeRef
  keptFor   : List CtxRef
  preempted : Option Nat
  urgent    : Option Nat
  parked    : Bool
  deriving DecidableEq, Repr, Inhabited

/-- An NLAUNCH on its way to the hub (21 R398): the node, the slot, the issuing context and its rank. -/
structure EarlyRelease where
  node : NodeRef
  slot : Nat
  c    : CtxRef
  rank : Nat
  deriving DecidableEq, Repr, Inhabited

/-! ## The hardware linker (22) -/

/-- A fused kernel in the splice cache (22 R413, R414): its key (the two image addresses and the LINKMODE), its place in the
splice window, and the words of each stream with the entries of the splice map; `pmask` and `tmask` say which parameters and
tokens come from P (R412). `used` orders the placements. -/
structure Fused where
  p     : Word
  c     : Word
  part  : Nat
  mode  : BitVec 2
  at_   : Nat
  code  : List (List (BitVec 32))
  map   : List (List Word)
  pair  : Bool
  pmask : Nat
  tmask : Nat
  used  : Nat
  deriving DecidableEq, Repr, Inhabited

/-! ## The join unit (23) -/

/-- The state of a join entry (23 R421). -/
inductive JoinState where
  | free | opened | closed | complete | released
  deriving DecidableEq, Repr, Inhabited

/-- A join entry (23 R421); `since` is the hub time at which it was released. -/
structure JoinEntry where
  state    : JoinState
  id       : Word
  addr     : Word
  version  : BitVec 32
  kind     : Bool
  t        : Nat
  vt       : BitVec 32
  nrec     : Nat
  oseq     : Nat
  deadline : Option Nat
  ctime    : Nat
  part_    : Bool
  filled   : Bool
  gone     : Bool
  since    : Nat
  deriving DecidableEq, Repr, Inhabited

/-- The join unit (23 R421 to R431, 20 R375 to R380): the registers of the join page, the counters of JSTAT by selector, the
table, the early pool, the inbound reward queue, the dead-letter ring, the learner queue, the hub cycle of the last message
taken, whether the message at the head is held under a full pool, the episode that the scan unit holds with its staleness, the SCAN node
that it works on, the kind that it served last (`true`: a SCAN job), how far the unit is in the order of the present hub cycle with the
last context served in it, the last RWPOST and the port of the last arrival in the cycle, and the learner records discarded. Messages
stand with their hub time of arrival. -/
structure Join where
  owner    : BitVec 4
  mode     : BitVec 2
  timeout  : Nat
  openmax  : Nat
  fill     : BitVec 32
  gamma    : BitVec 32
  glambda  : BitVec 32
  maxlag   : BitVec 32
  lv       : BitVec 32
  hold     : Nat
  stbase   : Word
  stnow    : Word
  dlwr     : BitVec 32
  dlrd     : BitVec 32
  counts   : Table Nat
  entries  : Table JoinEntry
  opens    : Nat
  pool     : List (Nat × BitVec 256)
  rewards  : List (Nat × BitVec 256)
  letters  : Table (BitVec 256)
  learner  : List (BitVec 128)
  intake   : Option Nat
  held     : Bool
  scan     : Option (Nat × BitVec 32)
  job      : Option NodeRef
  served   : Option Bool
  phase    : Nat
  lastReq  : Option Nat
  lastPost : Option Nat
  lastPort : Option Nat
  discarded : Nat
  deriving DecidableEq, Repr, Inhabited

/-! ## The rest of the hub -/

/-- The counters of the package (26 R447, 14 R270, R271, 16 R313, R315, R318, R319, 02 R29, 26 R456, 27 R469). -/
structure PkgCounts where
  uncorrected : Nat
  corrected   : Nat
  dualMiss    : Nat
  ignoredNl   : Nat
  grantDrops  : Nat
  boxOverflow : Nat
  dropped     : Nat
  hubPoison   : Nat
  fwErrors    : Nat
  testFails   : Nat
  badTokens   : Nat
  hostDrops   : Nat
  deriving DecidableEq, Repr, Inhabited

/-- The invalidation registers (17 R338): the range registers, the command that runs with the range it sampled, REJ, PART. -/
structure TlbInv where
  va    : Word
  pages : Nat
  busy  : Option (Nat × Nat × Nat)
  rej   : Bool
  part  : Nat
  deriving DecidableEq, Repr, Inhabited

/-- An error record for the host (20 R374, 27 R462). -/
inductive ErrorRec where
  | completionWrite (part : Nat) (va : Word)
  | signalWrite (part : Nat) (va : Word)
  | capability (part : Nat)
  | peerAccess (pkg : Nat) (addr : Nat)
  deriving DecidableEq, Repr, Inhabited

/-- The answer to an SPDM request (27 R467). -/
inductive SpdmReply where
  | version
  | capabilities
  | algorithms
  | digests (d : BitVec 384)
  | certificate (slot : Nat) (bytes : List Byte)
  | challengeAuth (nonce : BitVec 256) (sig : BitVec 768)
  | measurements (nonce : BitVec 256) (values : List (Nat × BitVec 384)) (sig : BitVec 768)
  | unsupported (code : BitVec 8)
  deriving DecidableEq, Repr, Inhabited

/-- What the device has sent out: interrupts by MSI-X vector (27 R458), error records, SPDM answers, host reads with CXL
poison (14 R272), and answers to peers. -/
structure Replies where
  vectors : List Nat
  errors  : List ErrorRec
  spdm    : List SpdmReply
  reads   : List (List (Byte × Bool))
  peers   : List (Nat × List (Byte × Bool))
  grants  : List (Nat × Bool)
  deriving DecidableEq, Repr, Inhabited

/-- What a flit of the class MSG carries (27 R464). -/
inductive MsgKind where
  | reward | peer | token
  deriving DecidableEq, Repr, Inhabited

/-- A Giuth port (27 R464, R465): trained, retries, drops, and the full queue at which its next MSG flit waits. -/
structure Port where
  up      : Bool
  retries : Nat
  drops   : Nat
  waits   : Option MsgKind
  deriving DecidableEq, Repr, Inhabited

/-- The hub, firmware's tables and the package counters. `sleep` is power state C3, `decays` counts the decay ticks applied, and
`lost` holds the accesses whose link traffic was lost, each with the time at which it is reported. `domains` is the domain table,
`peerQ` the inbound peer queue with `peerLast`, the rank of the last transfer that came from each context for a cell (16 R316), `copy` the hub
copy engine, and `later` the register writes that take effect in the next hub cycle. `shut` says that the submissions of the present hub
cycle are made, `decay` that a decay tick is applied at its end. -/
structure Hub where
  time    : Nat
  tstamp  : Word
  ptroot  : Table Word
  tlbs    : Table (List TlbEntry)
  tlbinv  : TlbInv
  faults  : List FaultRec
  fails   : List (NodeRef × Failure)
  parts   : Table Partition
  early   : List EarlyRelease
  cache   : Table Fused
  nextFused : Nat
  join    : Join
  grants  : Table (BitVec 128)
  posted  : List Posted
  tokens  : List BarrierToken
  outbox  : List OutMsg
  replies : Replies
  counts  : PkgCounts
  ports   : Table Port
  debug   : Table (BitVec 2)
  nonces  : Nat
  resets  : Nat
  sleep   : Bool
  decays  : Nat
  lost    : Table Nat
  domains : List DomRec
  peerQ   : List PeerTransfer
  peerLast : List ((Nat × CtxRef × Nat) × Nat)
  copy    : Option CopyRun
  later   : List HubWrite
  shut    : Bool
  decay   : Bool
  deriving DecidableEq, Repr, Inhabited

/-! ## The state -/

/-- What a word that traps on poison has consumed (14 R271, R273): the units by space, and the ranges of memories that it has read. -/
structure Consumed where
  units : List (Space × List Nat)
  reads : List (MemRef × Nat × Nat)
  deriving DecidableEq, Repr, Inhabited

/-- What the last word of the step did: the issue logic of a bundle reads it. -/
inductive Issued where
  | none | retired | waiting | trapped (t : Trap) (e : Consumed)
  deriving DecidableEq, Repr, Inhabited

/-- The state of the device. The last group of fields is the model's own: whose step comes next (log 1), the free value
counter, the number of PERFORMs, and the word that is being issued with its guard. -/
structure State where
  ctxs   : Table Ctx
  cells  : Table Cell
  dies   : Table Die
  hbm    : Memory
  hostMem : Memory
  peerMem : Memory
  scratch : Table Memory
  upsets : List Upset
  accs   : List Access
  nextId : Nat
  hub    : Hub
  cfg    : DeviceConfig
  agenda : List Pick
  pickCount : Nat
  freeCount : Nat
  performs : Nat
  cur    : CtxRef
  curSt  : Stream
  curIt  : Option Nat
  curG   : Nat
  curPc  : Option Word
  curFwd : Option Word
  inBundle : Bool
  nops   : Bool
  after  : Option Trap
  lastIssue : Issued
  deriving DecidableEq, Repr

/-! ## Reset -/

/-- A stream after reset. -/
def StreamState.init : StreamState :=
  { pc := 0, gf := 0, seq := 0, lc0 := 0, ls0 := 0, le0 := 0, lc1 := 0, ls1 := 0, le1 := 0, tpc := 0, tseq := 0,
    gfw := false, passEnd := false, halted := false, tlb := [] }

/-- A cleared coder slot (10 R226). -/
def SlotState.init : SlotState :=
  { bound := false, decodes := false, endtrap := false, low := 0, range := 0, cache := 0, cvalid := false, pend := 0,
    code := 0, base := 0, capacity := 0, daddr := 0, pos := 0, overrun := false, illformed := false, win := [] }

def Slot.init : Slot := { now := SlotState.init, saved := SlotState.init, marked := false, stopped := none }

/-- A cleared frequency table (10 R223). -/
def FreqTable.init : FreqTable := { f := List.replicate 32 0, tv := false }

/-- A context after reset: every control register at the value of R140, every queue empty (log 5). -/
def Ctx.init : Ctx :=
  { ss := StreamState.init, sv := StreamState.init, sm := StreamState.init, sx := StreamState.init,
    dq := [], vq := [], chan := [], tokens := List.replicate 16 0, preds := 1, masks := [], flights := [], pops := [],
    tables := [], slots := [], initRead := none, wd := [],
    status := 0, part := 0, gen := 0, tvec := 0, tcause := 0, taddr := 0, torig := 0, tinfl := 0, lpw := 0, lii := 0,
    domt := 0, domd := 0, domp := 0, doms := 0, sstept := 0, sstepd := 0, sstepp := 0, ssteps := 0,
    param := [], node := 0, rngkey := 0, rngstream := 0, rngpos := 0, vcsr := 0, mcsr := 0, rcsr := 0,
    poisonlog := 0, poisoncnt := 0, xerr := 0, xdone := 0,
    cf := 0, tagAct := 0, tagSh := 0, issCf := 0, issAct := 0, issSh := 0, ldSince := false,
    ops := [], sops := [], fences := [],
    barrier := none, barrierRank := 0, arrived := false, released := false, haltIn := 0, atFence := false, halting := false, cut := none, late := [], hold := .free,
    running := none, xcpy2 := none, rwpost := none, lqWait := false, lqGot := none, hubRank := none, csrPend := [], csrBase := [], csrLog := [], prefetch := [], rbNow := none, hndRank := 0, slots0 := 0, rbFloor := 0, lockSlots := 0, waitSlots := 0,
    chanLast := [] }

/-- A cell after reset (14 R476, 02 R29, 26 R457, 27 R471). -/
def Cell.init : Cell :=
  { mode := 0, modeHeld := none, cycle := 0, wb := Memory.blank 0, ab := Memory.blank 0, cb := Memory.blank 0,
    plane0 := Memory.blank 0, plane1 := Memory.blank 0, active1 := false, cache := [], letters := [], evc := [], evNow := [],
    shadow := none, part := none, score := 0, state := 0, tests := 0, katskip := 0, katfail := 0, corr := 0,
    testing := false, power := .p0, powerReq := none, security := .openState, halted := false, stepping := false,
    stretch := 0, halfRate := 0 }

/-- A die after reset: shared store cleared (R476), droop detector enabled at the configured level (R473, log 6). -/
def Die.init (level : BitVec 10) : Die := { ss := Memory.blank 0, droopEn := true, droopLevel := level }

def LaunchQueue.init : LaunchQueue :=
  { tail := 0, head := 0, live := 0, ovr := false, halt := false, errWord := 0, reason := 0, sh := [], ring := [],
    taken := 0, fence := false }

/-- A partition that does not exist yet, its registers at their reset values (22 R411, 27 R474, R475). -/
def Partition.init : Partition :=
  { defined := false, tenant := false, linkmode := 1, ageLimit := 1000, resLimit := 10000, urgLimit := 100, crbase := 0, crsize := 0,
    crwr := 0, crrd := 0, crovw := 0, splref := [], spldone := 0, splrerun := 0, queues := [], launches := [],
    nextLaunch := 0, submits := 0, turns := [], nodeTurns := [], reserved := none, keptFor := [], preempted := none,
    urgent := none, parked := false }

def NodeInfo.init : NodeInfo :=
  { status := .idle, count := 0, released := 0, after := [], derived := [], record := 0, regions := [], order := 0,
    readyAt := 0, startAt := 0, raised := 0, iter := 0, teams := [], sigs := [], scratches := [], splice := none, partner := none,
    consumer := false, apart := false, left := [] }

def JoinEntry.init : JoinEntry :=
  { state := .free, id := 0, addr := 0, version := 0, kind := false, t := 0, vt := 0, nrec := 0, oseq := 0,
    deadline := none, ctime := 0, part_ := false, filled := false, gone := false, since := 0 }

/-- The join unit after reset: the registers of 23 R423. -/
def Join.init : Join :=
  { owner := 0, mode := 0, timeout := 0, openmax := 0, fill := 0, gamma := 0, glambda := 0, maxlag := 0, lv := 0,
    hold := 1000000, stbase := 0, stnow := 0, dlwr := 0, dlrd := 0, counts := [], entries := [], opens := 0, pool := [],
    rewards := [], letters := [], learner := [], intake := none, held := false, scan := none, job := none, served := none,
    phase := 0, lastReq := none, lastPost := none, lastPort := none, discarded := 0 }

def PkgCounts.init : PkgCounts :=
  { uncorrected := 0, corrected := 0, dualMiss := 0, ignoredNl := 0, grantDrops := 0, boxOverflow := 0, dropped := 0,
    hubPoison := 0, fwErrors := 0, testFails := 0, badTokens := 0, hostDrops := 0 }

def Replies.init : Replies := { vectors := [], errors := [], spdm := [], reads := [], peers := [], grants := [] }

def Port.init : Port := { up := false, retries := 0, drops := 0, waits := none }

/-- The hub after reset. -/
def Hub.init : Hub :=
  { time := 0, tstamp := 0, ptroot := [], tlbs := [], tlbinv := { va := 0, pages := 0, busy := none, rej := false, part := 0 },
    faults := [], fails := [], parts := [], early := [], cache := [], nextFused := 0, join := Join.init, grants := [],
    posted := [], tokens := [], outbox := [], replies := Replies.init, counts := PkgCounts.init, ports := [], debug := [],
    nonces := 0, resets := 0, sleep := false, decays := 0, lost := [], domains := [], peerQ := [], peerLast := [], copy := none, later := [],
    shut := false, decay := false }

/-- The configuration that reset reads: a record and a firmware image that verify, no cell disabled, level 0, package 0,
outside any load-store domain (log 6). -/
def defaultConfig : DeviceConfig :=
  { recordOk := true, firmwareOk := true, disabled := [], droop := [0, 0, 0, 0], package := 0, domain := 0x3FF,
    keepHbm := false }

/-- The device right after reset (14 R476, 06 R140). -/
def State.reset : State :=
  { ctxs := [], cells := [], dies := [], hbm := Memory.blank 0, hostMem := Memory.blank 0, peerMem := Memory.blank 0, scratch := [],
    upsets := [], accs := [], nextId := 0, hub := Hub.init, cfg := defaultConfig, agenda := [], pickCount := 0, freeCount := 0, performs := 0,
    cur := { cell := 0, bank := .a }, curSt := .s, curIt := none, curG := 0, curPc := none, curFwd := none, inBundle := false, nops := false,
    after := none, lastIssue := .none }

end Sys2Proof.Machine
end

