-- ==== Sys2Proof/Machine/Mem.lean ====
section
/-!
DEFINITION. Operations over a memory and over bit fields.
-/
namespace Sys2Proof.Machine

/-! ## Memory (14 R272, 05 R107) -/

/-- The byte at an address. -/
def Memory.read (m : Memory) (a : Nat) : Byte := Table.get m.cells m.base a

/-- Writes one byte and keeps the canonical form. -/
def Memory.write (m : Memory) (a : Nat) (b : Byte) : Memory := { m with cells := Table.put m.cells m.base a b }

/-- Inserts a number into a strictly rising list. -/
def insertSorted (k : Nat) : List Nat → List Nat
  | [] => [k]
  | a :: r => if k = a then a :: r else if k < a then k :: a :: r else a :: insertSorted k r

/-- Whether the 64-bit unit of an address is poisoned. -/
def Memory.poisoned (m : Memory) (a : Nat) : Bool := m.marks.contains (a / 8)

/-- Marks the unit of an address as poisoned. -/
def Memory.poison (m : Memory) (a : Nat) : Memory := { m with marks := insertSorted (a / 8) m.marks }

/-- Clears the mark of the unit of an address. -/
def Memory.clean (m : Memory) (a : Nat) : Memory := { m with marks := m.marks.filter (fun u => !(u == a / 8)) }

/-- The bytes from an address, each with the mark of its unit. -/
def Memory.readP (m : Memory) (a : Nat) : Nat → List (Byte × Bool)
  | 0 => []
  | n + 1 => (m.read a, m.poisoned a) :: m.readP (a + 1) n

/-- The bytes from an address. -/
def Memory.readN (m : Memory) (a n : Nat) : List Byte := (m.readP a n).map (·.1)

/-- What a write does to the mark of one unit: a poisoned byte sets it, eight clean bytes clear it, fewer leave it
(R272). -/
def Memory.settle (m : Memory) (unit count : Nat) (bad : Bool) : Memory :=
  if bad then m.poison (8 * unit) else if count = 8 then m.clean (8 * unit) else m

/-- Writes a run of bytes from an address; a byte that is missing is masked off. `unit`, `count` and `bad` describe the
bytes already written to the present unit. -/
def Memory.storeFrom (m : Memory) (a unit count : Nat) (bad : Bool) : List (Option (Byte × Bool)) → Memory
  | [] => m.settle unit count bad
  | w :: r =>
    if a / 8 = unit then
      match w with
      | none => m.storeFrom (a + 1) unit count bad r
      | some (b, p) => (m.write a b).storeFrom (a + 1) unit (count + 1) (bad || p) r
    else
      match w with
      | none => (m.settle unit count bad).storeFrom (a + 1) (a / 8) 0 false r
      | some (b, p) => ((m.settle unit count bad).write a b).storeFrom (a + 1) (a / 8) 1 p r

/-- Writes a run of bytes with their marks. -/
def Memory.store (m : Memory) (a : Nat) (ws : List (Option (Byte × Bool))) : Memory := m.storeFrom a (a / 8) 0 false ws

/-- Bytes with no mark, all written. -/
def cleanBytes (l : List Byte) : List (Option (Byte × Bool)) := l.map fun b => some (b, false)

/-- A little-endian number as n bytes. -/
def toBytes (v : Nat) : Nat → List Byte
  | 0 => []
  | n + 1 => BitVec.ofNat 8 v :: toBytes (v / 256) n

/-- The little-endian number of bytes. -/
def ofBytes : List Byte → Nat
  | [] => 0
  | b :: r => b.toNat + 256 * ofBytes r

/-- Bits [lo + w - 1 : lo] of a number. -/
def bitsN (v lo w : Nat) : Nat := v / 2 ^ lo % 2 ^ w

/-- Puts w bits at lo into a number. -/
def putBits (v lo w x : Nat) : Nat := v - bitsN v lo w * 2 ^ lo + x % 2 ^ w * 2 ^ lo

/-- Bits [lo + w - 1 : lo] of a word. -/
def bits {n : Nat} (v : BitVec n) (lo w : Nat) : Nat := bitsN v.toNat lo w

/-- A word with w bits replaced. -/
def setBits (v : Word) (lo w x : Nat) : Word := BitVec.ofNat 64 (putBits v.toNat lo w x)

/-- One bit of a word. -/
def bitOf {n : Nat} (v : BitVec n) (k : Nat) : Bool := bits v k 1 == 1

end Sys2Proof.Machine
end

