-- ==== Sys2Proof/Machine/Walk.lean ====
section
/-!
DEFINITION. The page-table walk (17 R326 to R332).
-/
namespace Sys2Proof.Machine

/-- The device HBM addresses that hold memory end here (14 R269). -/
def hbmSize : Nat := 0xC000000000

/-- What a walk ends with: the leaf translation, or the cause of a fault, with the level at which it stopped and the
entry it read there (R336); whether that entry is poisoned, and the addresses of the entries read. -/
structure WalkEnd where
  hit   : Option TlbEntry
  cause : Cause
  level : Nat
  entry : Word
  bad   : Bool
  reads : List Nat := []
  deriving DecidableEq, Repr, Inhabited

/-- The fields of a page-table entry (R328). -/
def pteV (e : Word) : Bool := bitOf e 0
def pteLeaf (e : Word) : Bool := bitOf e 1
def pteContig (e : Word) : Bool := bitOf e 7
def ptePa (e : Word) : Nat := bits e 16 36 * 2 ^ 16

/-- Check 3 of R329 on a table entry. -/
def tableBad (e : Word) : Bool := bits e 2 14 != 0 || bits e 52 12 != 0 || decide (hbmSize ≤ ptePa e)

/-- An index of the load-store domain names a package: no index does outside any domain (R332, 27 R461 entry 0x08). -/
def State.namesPackage (s : State) (i : Nat) : Bool := s.cfg.domain != 0x3FF && (i == s.cfg.domain || Config.domainHas i)

/-- Whether a leaf's physical address lies where its HOME has memory (R332): the peer itself checks an address against its HBM. -/
def State.homeOk (s : State) (home pa : Nat) : Bool :=
  match home with
  | 0 => decide (pa < hbmSize)
  | 1 => true
  | 2 => decide (pa < 2 ^ 50) && s.namesPackage (pa / 2 ^ 40)
  | _ => false

/-- Check 3 of R329 on a leaf, but for the alignment and the home. -/
def leafBad (e : Word) : Bool :=
  bits e 12 4 != 0 || bitOf e 6 || bits e 52 12 != 0 || bits e 2 2 == 3 || bits e 8 2 == 3

/-- The kind of a page by its code (R328). -/
def pageKindOf : Nat → PageKind
  | 0 => .uo
  | 1 => .rc
  | _ => .so

/-- A page-table entry as it stands in device HBM. -/
def State.pte (s : State) (a : Nat) : Word := BitVec.ofNat 64 (ofBytes (s.hbm.readN a 8))

/-- Whether all 32 entries of a group have CONTIG = 1 (R330, R331). -/
def State.groupContig (s : State) (table first : Nat) : Bool :=
  (List.range 32).all fun k => pteContig (s.pte (table + 8 * (first + k)))

/-- The leaf at index i of a table, for pages of `size` bytes: its own page, or its group where every entry of the group is
contiguous; the alignment is that of the first entry of such a group, else its own (R330, R331). -/
def State.leaf (s : State) (table i size : Nat) (va : Word) (level : Nat) : WalkEnd :=
  let e := s.pte (table + 8 * i)
  let g := i / 32 * 32
  let grouped := pteContig e && s.groupContig table g
  let first := if grouped then s.pte (table + 8 * g) else e
  let whole := if grouped then 32 * size else size
  let pa := ptePa e
  let home := bits e 8 2
  let bad := leafBad e || ptePa first % whole != 0 || !s.homeOk home pa
  if bad then { hit := none, cause := .prot, level := level, entry := e, bad := false }
  else if bitOf e 10 then { hit := none, cause := .pfault, level := level, entry := e, bad := false }
  else
    let span := if grouped ∧ (i - g) * size ≤ pa then 32 * size else size
    let back := if grouped ∧ (i - g) * size ≤ pa then (i - g) * size else 0
    { hit := some { vpn := va.toNat / span, size := span, phys := pa - back, home := home,
                    w := bitOf e 4, x := bitOf e 5, ac := bitOf e 11, page := pageKindOf (bits e 2 2) }
      cause := .prot, level := level, entry := e, bad := false }

/-- A unit of device HBM that no read can correct: marked, or hit by an error that no read has found yet (14 R272). -/
def State.unitBad (s : State) (a : Nat) : Bool :=
  s.hbm.poisoned a || s.upsets.any fun u => u.double && u.mem == .hbm && u.unit == a / 8

/-- One level of a walk: `next` is the walk from the entry's table (R327, R329). A poisoned entry raises PROT. -/
def State.walkLevel (s : State) (table i level : Nat) (leafSize : Option Nat) (va : Word)
    (next : Nat → WalkEnd) : WalkEnd :=
  let a := table + 8 * i
  let e := s.pte a
  let stop (c : Cause) (b : Bool) : WalkEnd := { hit := none, cause := c, level := level, entry := e, bad := b }
  let w :=
    if s.unitBad a then stop .prot true
    else if !pteV e then stop .pfault false
    else if pteLeaf e then
      match leafSize with
      | none => stop .prot false
      | some size => s.leaf table i size va level
    else if level = 3 ∨ tableBad e then stop .prot false
    else next (ptePa e)
  { w with reads := a :: w.reads }

/-- The root table of a partition (R326). -/
def State.ptroot (s : State) (part : Nat) : Nat := (Table.get s.hub.ptroot 0 part).toNat

/-- The walk of a virtual address (R326 to R329, checks 1 to 4). -/
def State.walk (s : State) (part : Nat) (va : Word) : WalkEnd :=
  if bits va 55 9 ≠ 0 then { hit := none, cause := .prot, level := 0, entry := 0, bad := false }
  else
    s.walkLevel (s.ptroot part) (bits va 42 13) 1 none va fun t2 =>
      s.walkLevel t2 (bits va 29 13) 2 (some (2 ^ 29)) va fun t3 =>
        s.walkLevel t3 (bits va 16 13) 3 (some (2 ^ 16)) va fun _ =>
          { hit := none, cause := .prot, level := 3, entry := 0, bad := false }

end Sys2Proof.Machine
end

