-- ==== Sys2Proof/Machine/Ops.lean ====
section
/-!
DEFINITION. The named operations: accessors, the action monad of a word, queues and results in flight, and taking
and leaving an exception.
-/
namespace Sys2Proof.Machine

/-! ## Accessors -/

/-- The number of a bank: A 0, B 1 (06 R142). -/
def bankNo : Bank → Nat
  | .a => 0
  | .b => 1

/-- The number of a stream: S 0, V 1, M 2, X 3 (12 R245), its slot order (02 R27). -/
def slotNo : Stream → Nat
  | .s => 0
  | .v => 1
  | .m => 2
  | .x => 3

/-- The key of a context in the table of contexts. -/
def ctxKey (c : CtxRef) : Nat := 2 * c.cell + bankNo c.bank

/-- A context of the device. -/
def State.ctx (s : State) (c : CtxRef) : Ctx := Table.get s.ctxs Ctx.init (ctxKey c)

def State.setCtx (s : State) (c : CtxRef) (x : Ctx) : State := { s with ctxs := Table.set s.ctxs (ctxKey c) x }

def State.modCtx (s : State) (c : CtxRef) (f : Ctx → Ctx) : State := s.setCtx c (f (s.ctx c))

/-- A parked context of an image. -/
def Image.bank (i : Image) : Bank → Ctx
  | .a => i.a
  | .b => i.b

def Image.modBank (i : Image) (bank : Bank) (f : Ctx → Ctx) : Image :=
  match bank with
  | .a => { i with a := f i.a }
  | .b => { i with b := f i.b }

/-- A cell of the device. -/
def State.cell (s : State) (n : Nat) : Cell := Table.get s.cells Cell.init n

def State.setCell (s : State) (n : Nat) (x : Cell) : State := { s with cells := Table.set s.cells n x }

def State.modCell (s : State) (n : Nat) (f : Cell → Cell) : State := s.setCell n (f (s.cell n))

/-- The parked context of a cell whose shadow storage holds an image. -/
def State.parkedCtx (s : State) (c : CtxRef) : Option Ctx := (s.cell c.cell).shadow.map fun i => i.bank c.bank

def State.modParked (s : State) (c : CtxRef) (f : Ctx → Ctx) : State :=
  s.modCell c.cell fun l => { l with shadow := l.shadow.map fun i => i.modBank c.bank f }

/-- The cell is parked for power: shadow storage holds its contexts (27 R471). -/
def Cell.gated (l : Cell) : Bool := l.shadow.any fun i => i.power

/-- A context where it stands: in shadow storage while its cell is parked for power. -/
def State.ctxAt (s : State) (c : CtxRef) : Ctx :=
  if (s.cell c.cell).gated then (s.parkedCtx c).getD (s.ctx c) else s.ctx c

def State.modAt (s : State) (c : CtxRef) (f : Ctx → Ctx) : State :=
  if (s.cell c.cell).gated then s.modParked c f else s.modCtx c f

/-- The die of a cell (01 R8). -/
def dieOf (cell : Nat) : Nat := cell / 64

/-- A die of the device. -/
def State.die (s : State) (n : Nat) : Die := Table.get s.dies (Die.init (s.cfg.droop.getD n 0)) n

def State.modDie (s : State) (n : Nat) (f : Die → Die) : State := { s with dies := Table.set s.dies n (f (s.die n)) }

/-- The hub of the device. -/
def State.modHub (s : State) (f : Hub → Hub) : State := { s with hub := f s.hub }

def State.modCounts (s : State) (f : PkgCounts → PkgCounts) : State := s.modHub fun h => { h with counts := f h.counts }

def State.modReplies (s : State) (f : Replies → Replies) : State := s.modHub fun h => { h with replies := f h.replies }

/-- One stream of a context. -/
def Ctx.str (c : Ctx) : Stream → StreamState
  | .s => c.ss
  | .v => c.sv
  | .m => c.sm
  | .x => c.sx

def Ctx.setStr (c : Ctx) (st : Stream) (x : StreamState) : Ctx :=
  match st with
  | .s => { c with ss := x }
  | .v => { c with sv := x }
  | .m => { c with sm := x }
  | .x => { c with sx := x }

def Ctx.modStr (c : Ctx) (st : Stream) (f : StreamState → StreamState) : Ctx := c.setStr st (f (c.str st))

/-- Applies a change to each of the four streams. -/
def Ctx.eachStr (c : Ctx) (f : Stream → StreamState → StreamState) : Ctx :=
  { c with ss := f .s c.ss, sv := f .v c.sv, sm := f .m c.sm, sx := f .x c.sx }

/-- `TCAUSE.HND`: the handler is running (12 R245). -/
def Ctx.hnd (c : Ctx) : Bool := bitOf c.tcause 15

/-- `LII.ACT`, `LII.RB`, `LII.STG`, `LII.II`, `LII.PASS`, `LII.N`, `LII.RESTART`, `LII.RETRY` (08 R187). -/
def Ctx.liiAct (c : Ctx) : Bool := bitOf c.lii 8
def Ctx.liiRb (c : Ctx) : Bool := bitOf c.lii 7
def Ctx.liiStg (c : Ctx) : Nat := bits c.lii 4 3
def Ctx.liiII (c : Ctx) : Nat := bits c.lii 0 4
def Ctx.liiPass (c : Ctx) : Nat := bits c.lii 16 24
def Ctx.liiN (c : Ctx) : Nat := bits c.lii 40 24
def Ctx.liiRestart (c : Ctx) : Bool := bitOf c.lii 9
def Ctx.liiRetry (c : Ctx) : Bool := bitOf c.lii 10

/-- SOLO or PAIR (02 R29). -/
def Cell.pair (c : Cell) : Bool := c.mode == 1#2

/-- Firmware runs only where the configuration record and the firmware image have verified (01 R19, 27 R466). -/
def State.firmwareRuns (s : State) : Bool := s.cfg.recordOk && s.cfg.firmwareOk

/-- What a step of firmware does. -/
def State.byFirmware (s t : State) : State := if s.firmwareRuns then t else s

/-- A fresh number: the ids of operations, accesses and results rise in the order in which they are issued (02 R27). -/
def State.fresh (s : State) : Nat × State := (s.nextId, { s with nextId := s.nextId + 1 })

/-! ## Memory errors (14 R270 to R272, 26 R455) -/

/-- A count that saturates at 0xFFFF_FFFF. -/
def satAdd32 (a n : Nat) : Nat := min (a + n) 0xFFFFFFFF

/-- Adds to the suspicion score of a cell (26 R455). -/
def Cell.suspect (l : Cell) (k : Nat) : Cell := { l with score := min (l.score + k) 0xFFFF }

/-- A corrected error of a memory of a cell is counted at the cell (26 R457). -/
def Cell.countCorr (l : Cell) : Cell := { l with corr := BitVec.ofNat 32 (satAdd32 l.corr.toNat 1) }

def State.countCorr (s : State) (cell : Nat) : State := s.modCell cell Cell.countCorr

/-- A corrected error of the typed buffers, the plane stores or the shared store is charged to a cell's score too; one of shadow storage,
of HBM or of the hub is not (14 R271, 26 R455). -/
def State.chargeCell (s : State) (cell : Nat) : State := s.modCell cell fun l => (l.suspect 1).countCorr

/-- The unit of a memory is marked poisoned; shadow storage and hub SRAM hold no bytes that a mark could travel with (14 R272, R276,
log 60). -/
def State.poisonUnit (s : State) (m : MemRef) (unit : Nat) : State :=
  match m with
  | .hbm => { s with hbm := s.hbm.poison (8 * unit) }
  | .ss d => s.modDie d fun x => { x with ss := x.ss.poison (8 * unit) }
  | .ab n => s.modCell n fun l => { l with ab := l.ab.poison (8 * unit) }
  | .wb n => s.modCell n fun l => { l with wb := l.wb.poison (8 * unit) }
  | .cb n => s.modCell n fun l => { l with cb := l.cb.poison (8 * unit) }
  | .plane n one => s.modCell n fun l =>
    if one then { l with plane1 := l.plane1.poison (8 * unit) } else { l with plane0 := l.plane0.poison (8 * unit) }
  | .shadow _ => s
  | .hub => s

/-- A read has found an error: a single bad bit is corrected and counted, at the cell for its own memories, at the cell whose access found
it for a shared store (none where the hub copy engine did; DESIGN CHOICE, log 39), at the package for HBM and the hub; an uncorrectable unit is marked and counted (14 R271, R272, 26 R447). -/
def State.errorFound (s : State) (reader : Option Nat) (u : Upset) : State :=
  if u.double then (s.poisonUnit u.mem u.unit).modCounts fun n => { n with uncorrected := satAdd32 n.uncorrected 1 }
  else match u.mem with
    | .hbm => s.modCounts fun n => { n with corrected := satAdd32 n.corrected 1 }
    | .ss _ => match reader with
      | some n => s.chargeCell n
      | none => s
    | .ab n => s.chargeCell n
    | .wb n => s.chargeCell n
    | .cb n => s.chargeCell n
    | .plane n _ => s.chargeCell n
    | .shadow n => s.countCorr n
    | .hub => s.modCounts fun n => { n with corrected := satAdd32 n.corrected 1 }

/-- An error lies among n bytes of a memory from an address. -/
def liesIn (u : Upset) (m : MemRef) (a n : Nat) : Bool :=
  u.mem == m && decide (a < 8 * u.unit + 8) && decide (8 * u.unit < a + n)

/-- A read of n bytes of a memory finds the errors among their units; `reader` is the cell that reads. -/
def State.eccRead (s : State) (m : MemRef) (a n : Nat) (reader : Option Nat) : State :=
  (s.upsets.filter fun u => liesIn u m a n).foldl (fun t u => t.errorFound reader u)
    { s with upsets := s.upsets.filter fun u => !liesIn u m a n }

/-- The memory of a home, where it has ECC here: another package and the host look after their own. -/
def Home.memRef : Home → Option MemRef
  | .hbm => some .hbm
  | .ss d => some (.ss d)
  | _ => none

/-- A read at a home. -/
def State.eccHome (s : State) (h : Home) (a n : Nat) (reader : Option Nat) : State :=
  match h.memRef with
  | some m => s.eccRead m a n reader
  | none => s

/-- The memory that a typed buffer of a cell is, or the shared store of its die. -/
def Space.memRef (sp : Space) (cell : Nat) : MemRef :=
  match sp with
  | .ab => .ab cell
  | .wb => .wb cell
  | .cb => .cb cell
  | .ss => .ss (dieOf cell)
  | .vm => .hbm

/-! ## Poison (14 R274, R275) -/

/-- The code of a space in `POISONLOG`. -/
def spaceCode : Space → Nat
  | .vm => 0
  | .ab => 1
  | .wb => 2
  | .cb => 3
  | .ss => 4

/-- `POISONLOG` of a consumed unit or side word (R274). -/
def poisonLogOf (sp : Space) (side : Bool) (st : Stream) (addr : Nat) : Word :=
  BitVec.ofNat 64 (addr % 2 ^ 55 / (if side then 1 else 8) * (if side then 1 else 8) + 2 ^ 57 * slotNo st +
    2 ^ 59 * side.toNat + 2 ^ 60 * spaceCode sp)

/-- The value that a CSR instruction writes (07 R167). -/
def CsrOp.value (k : CsrOp) (old a : Word) : Word :=
  match k with
  | .write => a
  | .set => old ||| a
  | .clear => old &&& ~~~a

/-- Bits of a new value under a mask, the rest old. -/
def mixBits (mask old v : Word) : Word := (old &&& ~~~mask) ||| (v &&& mask)

/-- One change to a control register's value (06 R143). -/
def CsrChange.apply (x : CsrChange) (v : Word) : Word :=
  match x with
  | .csr op mask a => mixBits mask v (op.value v a)
  | .flags f => v ||| f
  | .count lo w n => setBits v lo w (min (bits v lo w + n) (2 ^ w - 1))

/-- A change in its place by rank, behind those of the same rank. -/
def insertChange (r n : Nat) (x : CsrChange) : List (Nat × Nat × CsrChange) → List (Nat × Nat × CsrChange)
  | [] => [(r, n, x)]
  | p :: l => if r < p.1 then (r, n, x) :: p :: l else p :: insertChange r n x l

/-- The value of a register after its noted changes, in order of rank. -/
def Ctx.replay (c : Ctx) (n : Nat) : Word :=
  (c.csrLog.filter fun p => p.2.1 == n).foldl (fun v p => p.2.2.apply v) (Table.get c.csrBase 0 n)

/-- POISONCNT and XERR hold counts that CSR writes and operations change in the order of their ranks (06 R143). -/
def Ctx.counted (c : Ctx) (n : Nat) : Word := if n = 0x081 then c.poisoncnt else c.xerr

def Ctx.setCounted (c : Ctx) (n : Nat) (v : Word) : Ctx := if n = 0x081 then { c with poisoncnt := v } else { c with xerr := v }

/-- A change of one of the two at a rank: where a younger CSR write is noted, it counts as made before that write (R143). -/
def Ctx.change (c : Ctx) (n rank : Nat) (x : CsrChange) : Ctx :=
  if c.csrLog.any fun p => p.2.1 == n then
    let c := { c with csrLog := insertChange rank n x c.csrLog }
    c.setCounted n (c.replay n)
  else c.setCounted n (x.apply (c.counted n))

/-- A CSR write of one of the two: it is noted, so that the effects of older operations still come before it. -/
def Ctx.noteCsr (c : Ctx) (n rank : Nat) (op : CsrOp) (mask a : Word) : Ctx :=
  let c := if c.csrLog.any fun p => p.2.1 == n then c else { c with csrBase := Table.set c.csrBase n (c.counted n) }
  let c := { c with csrLog := insertChange rank n (.csr op mask a) c.csrLog }
  c.setCounted n (c.replay n)

/-- A consumer logs and counts the units it consumed (R273): the highest-addressed one stands in the log; the count stands at the
consumer's rank (R143, R275). -/
def Ctx.logPoison (c : Ctx) (sp : Space) (side : Bool) (st : Stream) (units : List Nat) (rank : Nat) : Ctx :=
  match units.foldl (fun (m : Option Nat) u => some (max (m.getD 0) u)) none with
  | none => c
  | some top => ({ c with poisonlog := poisonLogOf sp side st top }).change 0x081 rank (.count 0 32 units.length)

/-- One consumer logs and counts the units that it consumed in several spaces: those of the last space stand in the log. -/
def Ctx.logUnits (c : Ctx) (st : Stream) (units : List (Space × List Nat)) (rank : Nat) : Ctx :=
  units.foldl (fun c p => c.logPoison p.1 false st p.2 rank) c

/-! ## The action of a word -/

/-- What a word waits for: pending pushes (R126), an event outside its cluster (a channel, a token, a letterbox, the
learner queue), a full queue or record that gives back-pressure (20 R367), or something else. -/
inductive Wait where
  | lock | outside | full | other
  deriving DecidableEq, Repr, Inhabited

/-- A context that waits for an event outside its cluster or under back-pressure does not stand at a generation fence (02 R49, 20
R367); one that meets an interlock does, until its next word issues (02 R47). -/
def Wait.leavesFence (w : Wait) : Bool := w == .outside || w == .full

/-- Why a word does not go on: it waits, it traps, it traps on poisoned units that it logs and counts (14 R273), or the
model stops. -/
inductive Stop where
  | wait (w : Wait)
  | trap (t : Trap)
  | poison (t : Trap) (e : Consumed)
  | fault (f : Fault)
  deriving DecidableEq, Repr, Inhabited

/-- An action: it reads and changes the state, or stops. -/
abbrev Act (α : Type) := StateT State (Except Stop) α

/-- The context of the word that is being issued. -/
def cx : Act Ctx := fun s => .ok (s.ctx s.cur, s)

def modCx (f : Ctx → Ctx) : Act Unit := fun s => .ok ((), s.modCtx s.cur f)

/-- The stream of the word that is being issued. -/
def curStream : Act Stream := fun s => .ok (s.curSt, s)

/-- The cell of the word that is being issued. -/
def curCell : Act Cell := fun s => .ok (s.cell s.cur.cell, s)

def modCurCell (f : Cell → Cell) : Act Unit := fun s => .ok ((), s.modCell s.cur.cell f)

def freshId : Act Nat := fun s => .ok (s.nextId, { s with nextId := s.nextId + 1 })

/-- An event counter of the cell counts from the end of the cycle on (26 R450, R451). -/
def Cell.count (l : Cell) (n k : Nat) : Cell := { l with evNow := Table.modify l.evNow 0 n (· + k) }

def countEvent (n k : Nat) : Act Unit := modCurCell fun l => l.count n k

/-- The word waits at issue. -/
def stall {α : Type} (w : Wait) : Act α := fun _ => .error (.wait w)

/-- The word traps before it issues (12 R243). -/
def trapNow {α : Type} (cause : Cause) (addr : Word) : Act α := fun s =>
  .error (.trap { cause := cause, addr := addr, st := s.curSt, async := false })

def waitIf (b : Bool) (w : Wait := .other) : Act Unit := if b then stall w else pure ()

def trapIf (b : Bool) (cause : Cause) (addr : Word) : Act Unit := if b then trapNow cause addr else pure ()

/-! ## Queues (06 R125 to R131) -/

/-- A queue that an operand names: register 0, a scalar local queue, a channel, a vector queue. -/
inductive QRef where
  | zero | loc (key : Nat) | chan (n : Nat) | vec (n : Nat)
  deriving DecidableEq, Repr, Inhabited

/-- The queue of a 5-bit S register field (04 R86). -/
def sRef (r : BitVec 5) : QRef :=
  if r.toNat = 0 then .zero else if r.toNat < 24 then .loc r.toNat else .chan (r.toNat - 24)

/-- The base of a stream's a queues among the keys of scalar queues. -/
def aBase : Stream → Nat
  | .s => 0
  | .v => 32
  | .m => 48
  | .x => 64

/-- The a queue n of a stream; a0 reads 0 (06 R124). -/
def aRef (st : Stream) (n : BitVec 4) : QRef := if n.toNat = 0 then .zero else .loc (aBase st + n.toNat)

/-- The v queue n; v0 reads 0 (06 R124). -/
def vRef (n : BitVec 4) : QRef := if n.toNat = 0 then .zero else .vec n.toNat

/-- The place of results pushed to a queue. -/
def QRef.dest : QRef → Option Dest
  | .zero => none
  | .loc k => some (.dq k)
  | .chan n => some (.chan n)
  | .vec n => some (.vq n)

/-- The file and number of a queue as `TADDR` gives them (12 R243). -/
def QRef.code : QRef → Word
  | .zero => 0
  | .loc k => if k < 32 then BitVec.ofNat 64 k else BitVec.ofNat 64 (64 + k % 16)
  | .vec n => BitVec.ofNat 64 (32 + n)
  | .chan n => BitVec.ofNat 64 (96 + n)

/-- The entries of a queue, drain entries included. -/
def Ctx.entries (c : Ctx) : QRef → Nat
  | .zero => 0
  | .loc k => (Table.get c.dq [] k).length
  | .chan n => (Table.get c.chan [] n).length
  | .vec n => (Table.get c.vq [] n).length

/-- The pending pushes to a place (06 R126). -/
def Ctx.pending (c : Ctx) (d : Dest) : Nat := (c.flights.filter fun f => f.dest == d).length

/-- The pending pushes to a queue. -/
def Ctx.pendingQ (c : Ctx) (q : QRef) : Nat :=
  match q.dest with
  | none => 0
  | some d => c.pending d

/-- How many entries the reads of an instruction need in a queue: a pop takes one away, a keep read needs one (06 R125,
R126). -/
def needOf (q : QRef) : Nat → List (QRef × Bool) → Nat
  | _, [] => 0
  | popped, (r, keep) :: rest =>
    if r = q then max (popped + 1) (needOf q (if keep then popped else popped + 1) rest) else needOf q popped rest

/-- The check of one queue: enough entries, or an interlock, or QUND; a channel waits (R126, R130). -/
def checkRead (q : QRef) (need : Nat) : Act Unit := do
  let c ← cx
  match q with
  | .zero => pure ()
  | .chan _ => waitIf (c.entries q < need) .outside
  | _ =>
    if need ≤ c.entries q then pure ()
    else if need ≤ c.entries q + c.pendingQ q then stall .lock
    else trapNow .qund q.code

/-- The checks of all reads, in field order. -/
def checkReads (all : List (QRef × Bool)) : List (QRef × Bool) → Act Unit
  | [] => pure ()
  | (q, _) :: rest => do
    checkRead q (needOf q 0 all)
    checkReads all rest

/-- The front entry of a queue, widened. -/
def Ctx.front (c : Ctx) : QRef → Vec × Option Nat
  | .zero => (0, none)
  | .loc k => match Table.get c.dq [] k with
    | e :: _ => (e.val.setWidth 2048, e.it)
    | [] => (0, none)
  | .chan n => match Table.get c.chan [] n with
    | e :: _ => (e.val.setWidth 2048, e.it)
    | [] => (0, none)
  | .vec n => match Table.get c.vq [] n with
    | e :: _ => (e.val, e.it)
    | [] => (0, none)

/-- The context without the front entry of a queue. -/
def Ctx.dropFront (c : Ctx) : QRef → Ctx
  | .zero => c
  | .loc k => { c with dq := Table.modify c.dq [] k List.tail }
  | .chan n => { c with chan := Table.modify c.chan [] n List.tail }
  | .vec n => { c with vq := Table.modify c.vq [] n List.tail }

/-- Reads an operand whose entries are present: pops it, or peeks it under the keep bit (R125). A pop by a word of a
modulo iteration is recorded for the rollback (08 R190). -/
def takeQ (q : QRef) (keep : Bool) : Act Vec := fun s =>
  let c := s.ctx s.cur
  let (v, orig) := c.front q
  if keep then .ok (v, s)
  else
    let c1 := c.dropFront q
    let c2 := match s.curIt, q.dest with
      | some i, some d => { c1 with pops := c1.pops ++ [{ it := i, dest := d, val := v, orig := orig }] }
      | _, _ => c1
    .ok (v, s.setCtx s.cur c2)

/-- Reads operands whose entries are present, in order. -/
def takeAll : List (QRef × Bool) → Act (List Vec)
  | [] => pure []
  | (q, k) :: rest => do
    let v ← takeQ q k
    let vs ← takeAll rest
    pure (v :: vs)

/-- Reads the queue operands of an instruction: all checks, then the reads (06 R125, R126). -/
def readAll (rs : List (QRef × Bool)) : Act (List Vec) := do
  checkReads rs rs
  takeAll rs

/-- One operand as a 64-bit value. -/
def read1 (q : QRef) (k : Bool) : Act Word := do
  checkRead q 1
  let v ← takeQ q k
  pure (v.setWidth 64)

/-- Two operands as 64-bit values. -/
def read2 (q1 : QRef) (k1 : Bool) (q2 : QRef) (k2 : Bool) : Act (Word × Word) := do
  checkReads [(q1, k1), (q2, k2)] [(q1, k1), (q2, k2)]
  let a ← takeQ q1 k1
  let b ← takeQ q2 k2
  pure (a.setWidth 64, b.setWidth 64)

/-- Three operands as 64-bit values. -/
def read3 (q1 : QRef) (k1 : Bool) (q2 : QRef) (k2 : Bool) (q3 : QRef) (k3 : Bool) : Act (Word × Word × Word) := do
  let rs := [(q1, k1), (q2, k2), (q3, k3)]
  checkReads rs rs
  let a ← takeQ q1 k1
  let b ← takeQ q2 k2
  let c ← takeQ q3 k3
  pure (a.setWidth 64, b.setWidth 64, c.setWidth 64)

/-- The depth of a queue (06 R124). -/
def QRef.depth : QRef → Nat
  | .vec _ => 2
  | .chan _ => 8
  | _ => 4

/-- The check of a push, after the instruction's own pops: QOVF for a local queue, a wait for a channel (06 R127,
R130). -/
def checkPush (q : QRef) : Act Unit := do
  let c ← cx
  match q with
  | .zero => pure ()
  | .chan _ => waitIf (decide (8 ≤ c.entries q + c.pendingQ q)) .outside
  | _ => trapIf (decide (q.depth < c.entries q + c.pendingQ q + 1)) .qovf q.code

/-- The cycle in which a result with latency `lat` falls due: PAIR counts the context's windows (02 R32). -/
def dueCycle (s : State) (lat : Nat) : Nat :=
  let cell := s.cell s.cur.cell
  cell.cycle + (if cell.pair then 2 * lat else lat)

/-- Puts a result in flight. -/
def launchFlight (d : Dest) (v : Option Vec) (lat : Option Nat) : Act Nat := fun s =>
  let f : Flight := { tok := s.nextId, st := s.curSt, dest := d, val := v, due := lat.map (dueCycle s), it := s.curIt }
  .ok (s.nextId, ({ s with nextId := s.nextId + 1 }).modCtx s.cur fun c => { c with flights := c.flights ++ [f] })

/-- Pushes a result with an exposed latency (04 R99). -/
def pushLat (q : QRef) (v : Vec) (lat : Nat) : Act Unit := do
  checkPush q
  match q.dest with
  | none => pure ()
  | some d => let _ ← launchFlight d (some v) (some lat); pure ()

/-- Pushes a result with no exposed latency: it comes at some later time, and its consumers interlock (04 R99). -/
def pushSoon (q : QRef) (v : Vec) : Act Unit := do
  checkPush q
  match q.dest with
  | none => pure ()
  | some d => let _ ← launchFlight d (some v) none; pure ()

/-- Reserves the push of a result that an operation gives later. The token is `none` where the result is discarded. -/
def reserve (q : QRef) : Act (Option Nat) := do
  checkPush q
  match q.dest with
  | none => pure none
  | some d => let t ← launchFlight d none none; pure (some t)

/-- A 64-bit value as a queue value. -/
def wide (w : Word) : Vec := w.setWidth 2048

/-- Puts a result in its place (06 R125, R128): at the back of its queue, or into its predicate or mask. -/
def Ctx.land (c : Ctx) (d : Dest) (v : Vec) (it : Option Nat) : Ctx :=
  match d with
  | .dq k => { c with dq := Table.modify c.dq [] k (· ++ [{ val := v.setWidth 64, it := it }]) }
  | .chan n => { c with chan := Table.modify c.chan [] n (· ++ [{ val := v.setWidth 64, it := it }]) }
  | .vq n => { c with vq := Table.modify c.vq [] n (· ++ [{ val := v, it := it }]) }
  | .pred n => { c with preds := BitVec.ofNat 8 (putBits c.preds.toNat n 1 (v.toNat % 2)) }
  | .mask n => { c with masks := Table.set c.masks n (v.setWidth 256) }
  | .slot _ => c

/-- Takes a result out of flight and puts it in its place. -/
def Ctx.landTok (c : Ctx) (tok : Nat) (v : Vec) : Ctx :=
  match c.flights.find? fun f => f.tok == tok with
  | none => c
  | some f => ({ c with flights := c.flights.filter fun g => !(g.tok == tok) }).land f.dest v f.it

/-- The value of a result in flight has come: the result takes its place by RESULT_DUE, in its order (R126, R131). -/
def Ctx.fillTok (c : Ctx) (tok : Option Nat) (v : Vec) : Ctx :=
  match tok with
  | some t => { c with flights := c.flights.map fun f => if f.tok == t then { f with val := some v } else f }
  | none => c

/-! ## Guards and masks (04 R83 to R85) -/

/-- A predicate: p0 is 1 (06 R124). -/
def Ctx.pred (c : Ctx) (n : Nat) : Bool := n == 0 || bitOf c.preds n

/-- A stage predicate: a bit of `LPW`. -/
def Ctx.ps (c : Ctx) (n : Nat) : Bool := bitOf c.lpw n

/-- A lane mask: m0 is all ones. -/
def Ctx.maskOf (c : Ctx) (n : Nat) : Mask := if n = 0 then BitVec.allOnes 256 else Table.get c.masks 0 n

/-- The value of a condition field: 0 always, 1 to 7 p1 to p7, 8 to 15 ps0 to ps7 (R83). -/
def Ctx.cond (c : Ctx) (g : Nat) : Bool := if g < 8 then c.pred g else c.ps (g - 8)

/-- A predicate whose write is pending interlocks its readers (R99). -/
def predReady (n : Nat) : Act Unit := do
  let c ← cx
  waitIf (n != 0 && n < 8 && c.pending (.pred n) != 0) .lock

/-- A mask whose write is pending interlocks its readers (R99). -/
def maskReady (n : Nat) : Act Unit := do
  let c ← cx
  waitIf (n != 0 && c.pending (.mask n) != 0) .lock

/-- The iteration that a word guarded by ps_k belongs to, in a rollback-eligible modulo loop (08 R189). A word that a CSR write of LPW or
LII lets run in a pass before its stage has no iteration, and `POISONMODE` applies to it (DESIGN CHOICE, log 92). -/
def iterOf (c : Ctx) (g : Nat) : Option Nat :=
  if 8 ≤ g ∧ c.liiAct ∧ c.liiRb ∧ g - 8 ≤ c.liiPass then some (c.liiPass - (g - 8)) else none

/-! ## Where the pc goes -/

/-- What a word does to the program counter of its stream: the next word, a taken branch, it has not retired yet, or it
has retired and has moved the pcs itself. -/
inductive Flow where
  | seq
  | jump (target : Word)
  | stay
  | done
  deriving DecidableEq, Repr, Inhabited

/-- The lowest 55 bits of a code address, word aligned (08 R177, 12 R245). -/
def codeAddr (w : Word) : Word := w &&& 0x007FFFFFFFFFFFFC#64

/-- The LC field after one pass fewer. -/
def decLc (lc : Word) : Word := setBits lc 0 32 (bits lc 0 32 - 1)

/-- The loop-back test of R179 over level 1. -/
def loopBack1 (x : StreamState) (last : Word) : StreamState :=
  if x.lc1 ≠ 0 ∧ x.le1 = last then
    if 1 < bits x.lc1 0 32 then { x with lc1 := decLc x.lc1, pc := x.ls1 } else { x with lc1 := 0, pc := last + 4 }
  else { x with pc := last + 4 }

/-- The loop-back test of R179 over both levels, for a word whose last word lies at `last`. -/
def loopBack (x : StreamState) (last : Word) : StreamState :=
  if x.lc0 ≠ 0 ∧ x.le0 = last then
    if 1 < bits x.lc0 0 32 then { x with lc0 := decLc x.lc0, pc := x.ls0 } else loopBack1 { x with lc0 := 0 } last
  else loopBack1 x last

/-- Whether an address lies in [LS, LE]. -/
def within (a ls le : Word) : Bool := ls ≤ a && a ≤ le

/-- A taken branch out of an armed body disarms the level (R181). -/
def disarm (x : StreamState) (pc target : Word) : StreamState :=
  let x := if x.lc0 ≠ 0 ∧ within pc x.ls0 x.le0 ∧ !within target x.ls0 x.le0 then { x with lc0 := 0 } else x
  if x.lc1 ≠ 0 ∧ within pc x.ls1 x.le1 ∧ !within target x.ls1 x.le1 then { x with lc1 := 0 } else x

/-- The stream after a word of `len` words that went on in sequence: in a handler only the pc moves (R192); at the end of
a pass of a modulo loop the stream waits for the other three (R184). The context leaves its generation fence (02 R47). -/
def Ctx.retireSeq (c0 : Ctx) (st : Stream) (len : Nat) : Ctx :=
  let c := { c0 with atFence := false }
  let x := c.str st
  let last := x.pc + BitVec.ofNat 64 (4 * (len - 1))
  if c.hnd then c.setStr st { x with pc := last + 4 }
  else
    let y := { x with seq := x.seq + 1 }
    if c.liiAct ∧ x.lc0 ≠ 0 ∧ x.le0 = last then c.setStr st { y with passEnd := true, pc := last + 4 }
    else c.setStr st (loopBack y last)

/-- The stream after a taken branch; a handler's words do not count (12 R245). CALL and JRL disarm nothing (R181), so they pass `call`
true. -/
def Ctx.retireJump (c0 : Ctx) (st : Stream) (target : Word) (call : Bool) : Ctx :=
  let c := { c0 with atFence := false }
  let x := c.str st
  let y := if call then x else disarm x x.pc target
  c.setStr st { y with pc := target, seq := if c.hnd then x.seq else x.seq + 1 }

/-! ## The rollback of an iteration (08 R189, R190) -/

/-- Whether a tag belongs to iteration i or a later one. -/
def tagFrom (i : Nat) : Option Nat → Bool
  | none => false
  | some j => decide (i ≤ j)

/-- The entries that a rollback of iteration i gives back to a queue: what discarded words popped and undiscarded words
had pushed, in the order of the pops (R190, step 1). -/
def Ctx.returned (c : Ctx) (i : Nat) (d : Dest) : List PopRec :=
  c.pops.filter fun p => decide (i ≤ p.it) && p.dest == d && !tagFrom i p.orig

/-- The scalar queue of a key after a rollback. -/
def Ctx.rolledDq (c : Ctx) (i k : Nat) : List Ent :=
  (c.returned i (.dq k)).map (fun p => { val := p.val.setWidth 64, it := p.orig }) ++
    (Table.get c.dq [] k).filter fun e => !tagFrom i e.it

/-- The vector queue n after a rollback. -/
def Ctx.rolledVq (c : Ctx) (i n : Nat) : List VEnt :=
  (c.returned i (.vq n)).map (fun p => { val := p.val, it := p.orig }) ++
    (Table.get c.vq [] n).filter fun e => !tagFrom i e.it

/-- The keys of the scalar queues: s1 to s23 and a1 to a15 of V, M, X. -/
def dqKeys : List Nat := (List.range 80).filter fun k => k % 16 != 0 || k == 16

/-- Whether every queue fits its visible depth plus its drain entries after a rollback, its surviving pending pushes
included (R189). -/
def Ctx.rollbackFits (c : Ctx) (i : Nat) : Bool :=
  let due (d : Dest) : Nat := (c.flights.filter fun f => f.dest == d && !tagFrom i f.it).length
  dqKeys.all (fun k => decide ((c.rolledDq i k).length + due (.dq k) ≤ 8)) &&
    (List.range 16).all (fun n => decide ((c.rolledVq i n).length + due (.vq n) ≤ 4))

/-- Whether poison consumed by a word of iteration `it` makes the iteration roll back; otherwise `POISONMODE` applies
(R189). -/
def Ctx.rollsBack (c : Ctx) (it : Option Nat) : Option Nat :=
  match it with
  | none => none
  | some i =>
    if c.liiAct ∧ c.liiRb ∧ !c.liiRestart ∧ !(i = 0 ∧ c.liiRetry) ∧ c.liiPass < i + c.liiStg ∧ c.rbFloor ≤ i ∧ c.rollbackFits i then some i
    else none

/-- The rollback of iteration i, detected in the present pass (R190). A word that still holds its stream for a descriptor reads it again. -/
def Ctx.rollback (c : Ctx) (i : Nat) : Ctx :=
  let pass := c.liiPass
  let lc := BitVec.ofNat 64 (i + c.liiStg - pass)
  let lii := setBits (setBits c.lii 40 24 (c.liiN - i)) 9 1 1
  let lpw := BitVec.ofNat 64 (bits c.lpw 0 8 / 2 ^ (pass - i + 1) * 2 ^ (pass - i + 1))
  { c.eachStr (fun _ x => { x with lc0 := lc }) with
    dq := dqKeys.foldl (fun t k => Table.put t [] k (c.rolledDq i k)) c.dq
    vq := (List.range 16).foldl (fun t n => Table.put t [] n (c.rolledVq i n)) c.vq
    flights := c.flights.filter fun f => !tagFrom i f.it
    ops := c.ops.filter fun o => !tagFrom i o.it
    sops := c.sops.filter fun o => !tagFrom i o.it
    pops := c.pops.filter fun p => !decide (i ≤ p.it)
    initRead := none
    xcpy2 := none
    rwpost := none
    lii := lii
    lpw := lpw }

/-- The rollback over the state: the accesses of discarded operations go with them. -/
def State.rollback (s : State) (c : CtxRef) (i : Nat) : State :=
  let x := s.ctx c
  let gone := (x.ops.filter fun o => tagFrom i o.it).map (·.id) ++ (x.sops.filter fun o => tagFrom i o.it).map (·.id)
  { (s.setCtx c (x.rollback i)) with accs := s.accs.filter fun a => !gone.contains a.rank }

/-- The rollback that the cycle has detected takes place (R189, R190). -/
def State.rollbackNow (s : State) (c : CtxRef) : State :=
  match (s.ctx c).rbNow with
  | some i => (s.rollback c i).modCtx c fun x => { x with rbNow := none }
  | none => s

/-! ## Taking an exception (12 R243 to R249) -/

/-- The code of a cause (R243). -/
def Cause.code : Cause → Nat
  | .illop => 0x01 | .qovf => 0x02 | .qund => 0x03 | .align => 0x04 | .bufacc => 0x05 | .fmtmix => 0x06
  | .zprob => 0x07 | .rccap => 0x08 | .looperr => 0x09 | .rngovf => 0x0A | .poison => 0x0B | .swtrap => 0x0C
  | .katfail => 0x0D | .domerr => 0x0E | .brkpt => 0x0F | .pfault => 0x20 | .prot => 0x21 | .atompath => 0x22

/-- A system cause goes to firmware (R243). -/
def Cause.system (c : Cause) : Bool := decide (0x20 ≤ c.code)

/-- An access or operation of a stream's engine that has started and is not finished. -/
def EngineOp.active (o : EngineOp) : Bool := o.phase != .held && o.pending.isNone && o.kind != .scalar

/-- Whether an access is an unfinished one of the V or X agent of a context. -/
def Access.engineOf (a : Access) (c : CtxRef) : Bool :=
  match a.agent with
  | .stream c' st => c' == c && (st == .v || st == .x)
  | _ => false

/-- Nothing is left to drain at a cut: no exposed result, no engine operation that has started (R246, steps 3 and 4). -/
def State.drained (s : State) (c : CtxRef) : Bool :=
  let x := s.ctx c
  x.flights.all (fun f => f.due.isNone) && x.ops.all (fun o => !o.active) &&
    s.accs.all (fun a => !a.engineOf c || x.ops.any fun o => o.id == a.rank)

/-- A slot of the coder with emitted bytes that memory does not hold yet (10 R221). -/
def Slot.emits (x : Slot) : Bool := x.now.bound && !x.now.decodes && !x.now.win.isEmpty

/-- The held operations of a stream, a slot with bytes to emit counted as one, saturating at 15 (R245, `TINFL`). -/
def Ctx.heldCount (c : Ctx) (st : Stream) : Nat :=
  let coder := if st = .v then (c.slots.filter fun p => p.2.emits).length else 0
  min 15 ((c.ops.filter fun o => o.st == st && o.kind != .scalar).length + coder)

/-- `TINFL` at the cut: PART says that a fault has stopped an operation, or the emissions of a slot, on its way (R244). -/
def Ctx.inflight (c : Ctx) : Word :=
  let part := if c.ops.any (fun o => o.pending.isSome && o.phase != .held) || c.slots.any (fun p => p.2.stopped.isSome) then 1 else 0
  BitVec.ofNat 64 (c.heldCount .v + 2 ^ 4 * c.heldCount .m + 2 ^ 8 * c.heldCount .x + 2 ^ 12 * part)

/-- Trap entry discards the rollback record (08 R192): no entry belongs to an iteration any more. -/
def Ctx.forgetIterations (c : Ctx) : Ctx :=
  { c with
    pops := []
    rbFloor := if c.liiAct then c.liiPass + 1 else 0
    dq := c.dq.map fun p => (p.1, p.2.map fun e => { e with it := none })
    chan := c.chan.map fun p => (p.1, p.2.map fun e => { e with it := none })
    vq := c.vq.map fun p => (p.1, p.2.map fun e => { e with it := none })
    flights := c.flights.map fun f => { f with it := none }
    ops := c.ops.map fun o => { o with it := none }
    sops := c.sops.map fun o => { o with it := none } }

/-- The entry of the splice map for a word address, and the fused kernel's consumer and producer nodes (22 R414). -/
def Fused.entryAt (k : Fused) (off : Nat) : Option Word :=
  if off < k.at_ then none else k.map.flatten[(off - k.at_) / 4]?

/-- The splice window: 4 MiB of code addresses (22 R413). -/
def spliceBase : Nat := 0x7FFFC000000000

def spliceSize : Nat := 0x400000

/-- The splice-map entry of a window address. -/
def State.spliceEntry (s : State) (pc : Word) : Option Word :=
  if spliceBase ≤ pc.toNat ∧ pc.toNat < spliceBase + spliceSize then
    s.hub.cache.findSome? fun p => p.2.entryAt (pc.toNat - spliceBase)
  else none

/-- The original place of a spliced word: node, stream, byte offset (22 R414). -/
def spliceOrigin (s : State) (c : CtxRef) (pc : Word) : Option (Nat × Nat × Nat) :=
  match (s.ctx c).running, s.spliceEntry pc with
  | some r, some e => some (if bitOf e 62 then r.consumer.getD r.node.node else r.node.node, bits e 60 2, bits e 2 28 * 4)
  | _, _ => none

/-- `TORIG` of a trapping word, 0 where it is not spliced (R245). -/
def torigOf : Option (Nat × Nat × Nat) → Word
  | none => 0
  | some (node, st, off) => BitVec.ofNat 64 (2 ^ 32 * (node % 2 ^ 32) + 2 ^ 30 * st + off % 2 ^ 30 / 4 * 4 + 1)

/-- `TCAUSE` of a trap (R245). -/
def tcauseOf (t : Trap) (spl : Bool) : Word :=
  BitVec.ofNat 64 (t.cause.code + 2 ^ 10 * slotNo t.st + 2 ^ 13 * spl.toNat + 2 ^ 14 * t.async.toNat +
    2 ^ 15 * (!t.cause.system).toNat)

/-- Ends the node of a context as failed: the sorting office hears of it, the context halts (R248, R249). -/
def State.failNode (s : State) (c : CtxRef) (f : Failure) : State :=
  let x := s.ctx c
  let s := s.setCtx c { x with hold := .failed, cut := none }
  match x.running with
  | none => s
  | some r => s.modHub fun h => { h with fails := h.fails ++ [(r.node, f)] }

/-- The failure that a trap record charges to the node (R248, 21 R396). -/
def Ctx.trapFailure (c : Ctx) (status : Nat) : Failure :=
  { status := status, cause := bits c.tcause 0 8, detail := c.taddr,
    orig := if bitOf c.tcause 13 then some (bits c.torig 32 32) else none }

/-- The partition of a context's cell, as a table key (02 R22). -/
def State.partOf (s : State) (c : CtxRef) : Nat := (s.cell c.cell).part.getD 0

/-- The syndrome of the walk of an address (17 R336). -/
def State.synOf (s : State) (c : CtxRef) (u : Use) (va : Word) : Syndrome :=
  let w := s.walk (s.partOf c) va
  { use := u, level := w.level, entry := w.entry }

/-- Reports a fault to firmware: the word that faulted or issued the operation, and the walk's syndrome (R248, 17 R336). -/
def State.report (s : State) (c : CtxRef) (t : Trap) : State :=
  let pc := t.word.getD ((s.ctx c).str t.st).pc
  let y := t.syn.getD (s.synOf c .read t.addr)
  s.modHub fun h => { h with faults := h.faults ++
    [{ c := c, use := y.use, cause := t.cause, pc := pc, addr := t.addr, level := y.level, entry := y.entry }] }

/-- A double trap: the context halts, the node fails with the first record, the second is reported (R248). -/
def State.doubleTrap (s : State) (c : CtxRef) (t : Trap) : State :=
  (s.report c t).failNode c ((s.ctx c).trapFailure 1)

/-- Invasive debug is attached to the partition of a context's cell (27 R469). -/
def State.invasive (s : State) (c : CtxRef) : Bool :=
  Table.get s.hub.debug 0 (s.partOf c) == 2#2 && (s.cell c.cell).security != .fenced

/-- The address of a stream's next unissued word: at the end of a pass of a modulo loop that another pass follows, the first word
of the body (R246 step 2, 08 R184, log 16). -/
def Ctx.nextWord (c : Ctx) (x : StreamState) : Word :=
  if x.passEnd ∧ c.liiAct ∧ (1 < bits x.lc0 0 32 ∨ c.liiRestart) then x.ls0 else x.pc

/-- The trap record and where the context goes (R245, R246 step 6): the four pcs and counts are saved, a local cause sets
HND and sends S to `TVEC`, a system cause waits for firmware; while a handler runs nothing is recorded (R248). BRK under
invasive debug leaves the same record but no handler runs, so HND stays 0 (07 R175, log 14); so it is with `TVEC` 0 (R249). A rollback
that was detected before is applied first (R246 step 5). -/
def State.takeTrap (s0 : State) (c : CtxRef) (t : Trap) : State :=
  let s := s0.rollbackNow c
  let x := s.ctx c
  if x.hnd then
    ((s.report c t).setCtx c { x with hold := .firmware, cut := none, atFence := false }).modCell c.cell fun l => l.count 15 1
  else
    let org := spliceOrigin s c (t.word.getD (x.str t.st).pc)
    let y := x.forgetIterations
    let z := { y.eachStr (fun _ r => { r with tpc := codeAddr (y.nextWord r), tseq := r.seq }) with
      tcause := tcauseOf t org.isSome, taddr := t.addr, torig := torigOf org, tinfl := y.inflight, cut := none,
      halting := false, atFence := false, hndRank := s.nextId, initRead := none, xcpy2 := none, rwpost := none, lqWait := false, hubRank := none }
    let s := s.modCell c.cell fun l => l.count 15 1
    if t.cause = .brkpt ∧ s.invasive c then
      s.setCtx c { z with tcause := setBits z.tcause 15 1 0, hold := .debug }
    else if t.cause.system then (s.report c t).setCtx c { z with hold := .firmware }
    else if codeAddr x.tvec = 0 then (s.setCtx c { z with tcause := setBits z.tcause 15 1 0 }).doubleTrap c t
    else s.setCtx c (z.modStr .s fun r => { r with pc := codeAddr x.tvec })

/-- A trap is raised: a local one in a handler is a double trap (R248); otherwise the cut begins, and the record is
written at once where nothing is left to drain (R246). -/
def State.raise (s : State) (c : CtxRef) (t : Trap) : State :=
  if (s.ctx c).hnd ∧ !t.cause.system then s.doubleTrap c t
  else
    let s := s.modCtx c fun x => { x with cut := some t }
    if s.drained c then s.takeTrap c t else s

/-- Every stream goes on from its `TPC` (R247, R250). -/
def Ctx.resumeAt (c : Ctx) : Ctx := c.eachStr fun _ r => { r with pc := r.tpc }

/-! ## The outcome of a word -/

/-- What the issue logic sees of a word that retired, waits or stays. -/
def State.noted (s : State) (i : Issued) : State := { s with lastIssue := i, curIt := none, curG := 0 }

/-- The word waits where its context does not stand at a generation fence any more (02 R49). -/
def State.waits (s : State) : State := (s.modCtx s.cur fun c => { c with atFence := false }).noted .waiting

/-- The word of a context that leaves its generation fence, though the word has not retired (02 R47, R49). -/
def leaveFence : Act Unit := modCx fun c => { c with atFence := false }

/-- A slot that waits in the present cycle (26 R450, counters 4 and 5). -/
def Ctx.noteWait (c : Ctx) (st : Stream) (w : Wait) : Ctx :=
  match w with
  | .lock => { c with lockSlots := putBits c.lockSlots (slotNo st) 1 1 }
  | .outside => { c with waitSlots := putBits c.waitSlots (slotNo st) 1 1 }
  | _ => c

/-- The word waits: the wait is noted, and the context stands at its fence or not. -/
def State.waitsOn (s : State) (w : Wait) : State :=
  let t := s.modCtx s.cur fun c => c.noteWait s.curSt w
  if w.leavesFence then t.waits else t.noted .waiting

/-- A walk reads its entries, whose errors it finds. -/
def State.walkReads (s : State) (w : WalkEnd) : State := w.reads.foldl (fun t a => t.eccRead .hbm a 8 none) s

/-- A demand walk reads its entries (14 R271); a poisoned one, which ends it, is counted as uncorrected (17 R329, R341). -/
def State.noteWalk (s : State) (part : Nat) (va : Word) : State :=
  let w := s.walk part va
  let t := s.walkReads w
  if w.bad && (w.reads.getLast?.any fun a => s.hbm.poisoned a) then
    t.modCounts fun n => { n with uncorrected := satAdd32 n.uncorrected 1 }
  else t

/-- A word that meets a translation fault has missed its TLB, and its walk found the fault (26 R450). -/
def State.noteMiss (s : State) (c : CtxRef) (t : Trap) : State :=
  if t.cause.system && bits t.addr 55 9 == 0 &&
      !(((s.ctx c).str t.st).tlb.any fun e => t.addr.toNat / e.size == e.vpn) then
    let s := s.modCell c.cell fun l => (l.count 12 1).count 13 1
    s.noteWalk (s.partOf c) t.addr
  else s

/-- Ranges of memories are read by a cell: their errors are found (14 R271). -/
def State.findsAt (s : State) (cell : Nat) (l : List (MemRef × Nat × Nat)) : State :=
  l.foldl (fun t r => t.eccRead r.1 r.2.1 r.2.2 (some cell)) s

/-- A word that consumes poison and traps has read its bytes: the errors found there are found, the units logged and counted (14 R271,
R273). -/
def State.eats (s : State) (c : CtxRef) (st : Stream) (e : Consumed) (rank : Nat) : State :=
  (s.findsAt c.cell e.reads).modCtx c fun x => x.logUnits st e.units rank

/-- No poison. -/
def Consumed.none : Consumed := { units := [], reads := [] }

/-- The outcome of a word: it retires and its pc moves, it stays or waits, it traps from the state before it, or the
model stops. -/
def finish (len : Nat) (call : Bool) (body : Act Flow) (s : State) : Host.Outcome State Fault Refusal :=
  match body s with
  | .ok (.seq, t) => .next ((t.modCtx s.cur fun c => c.retireSeq s.curSt len).noted .retired)
  | .ok (.jump a, t) => .next ((t.modCtx s.cur fun c => c.retireJump s.curSt a call).noted .retired)
  | .ok (.stay, t) => .next (t.noted .waiting)
  | .ok (.done, t) => .next (t.noted .retired)
  | .error (.wait w) => .next (s.waitsOn w)
  | .error (.trap t) => .next (((s.noteMiss s.cur t).raise s.cur t).noted (.trapped t .none))
  | .error (.poison t e) => .next (((s.eats s.cur t.st e s.nextId).raise s.cur t).noted (.trapped t e))
  | .error (.fault f) => .fault f

/-- A guard of the S, M and X formats: a false one makes the word retire with no effect (R85). -/
def guarded (g : BitVec 4) (body : Act Flow) : Act Flow := do
  predReady g.toNat
  let c ← cx
  if c.cond g.toNat then
    (fun s => .ok ((), { s with curIt := iterOf c g.toNat, curG := g.toNat }))
    body
  else pure .seq

/-- A meaning with no pc effect of its own. -/
def seqOf (body : Act Unit) : Act Flow := do
  body
  pure .seq

/-- The meaning of a guarded word that goes on in sequence. -/
def word (g : BitVec 4) (body : Act Unit) (s : State) : Host.Outcome State Fault Refusal :=
  finish 1 false (guarded g (seqOf body)) s

/-- The meaning of a word with no guard field. -/
def plain (body : Act Unit) (s : State) : Host.Outcome State Fault Refusal := finish 1 false (seqOf body) s

/-! ## Outward effects in a rollback-eligible loop (08 R188) -/

/-- Whether the word that issues lies in the body of a rollback-eligible modulo loop and is not guarded by ps_s of its last stage. -/
def Ctx.inwardOnly (c : Ctx) (st : Stream) (g : Nat) : Bool :=
  let x := c.str st
  c.liiAct && c.liiRb && within x.pc x.ls0 x.le0 && g != 8 + c.liiStg

/-- An outward effect traps LOOPERR outside stage ps_s (R188). -/
def outward : Act Unit := fun s =>
  let c := s.ctx s.cur
  if c.inwardOnly s.curSt s.curG then trapNow .looperr (c.str s.curSt).pc s else .ok ((), s)

/-- An access to a channel by a static operand is an outward effect, a keep read that pops nothing too (R188; DESIGN CHOICE, log 80); a
word that waits at a channel does so first. -/
def outwardQs : List QRef → Act Unit
  | [] => pure ()
  | .chan _ :: _ => outward
  | _ :: r => outwardQs r

end Sys2Proof.Machine
end

