-- ==== Sys2Proof/Machine/Operands.lean ====
section
/-!
DEFINITION. Every operand form of the words: immediates, branch targets, guards of V, lanes and lane masks, a-queue
operands, and the fields packed into a-queue values.
-/
namespace Sys2Proof.Machine

/-! ## Immediates and targets (04 R87, R95, 07 R149, R150, R153) -/

/-- Sign extension to 64 bits. -/
def sext64 {n : Nat} (x : BitVec n) : Word := x.signExtend 64

/-- Zero extension to 64 bits. -/
def zext64 {n : Nat} (x : BitVec n) : Word := x.setWidth 64

/-- The target of a branch: the branch word's address plus four times the signed offset. -/
def branchTarget {n : Nat} (pc : Word) (off : BitVec n) : Word := pc + sext64 off * 4

/-- The pc of the word that is being issued. -/
def curPc : Act Word := fun s => .ok (((s.ctx s.cur).str s.curSt).pc, s)

/-! ## Lanes (04 R85, 09 R195) -/

/-- The bytes of an element: ET 00 is 8 bits, 01 and 11 are 16 bits, 10 is 32 bits (04 R91). -/
def etBytes (e : BitVec 2) : Nat :=
  match e.toNat with
  | 0 => 1
  | 2 => 4
  | _ => 2

/-- Element i of width w bytes, counted from byte 0. -/
def elem (v : Vec) (w i : Nat) : Nat := v.toNat / 2 ^ (8 * w * i) % 2 ^ (8 * w)

/-- The number whose first n elements of w bytes are given by f. -/
def buildElems (w : Nat) (f : Nat → Nat) : Nat → Nat
  | 0 => 0
  | n + 1 => buildElems w f n + f n % 2 ^ (8 * w) * 2 ^ (8 * w * n)

/-- A vector of elements of w bytes. -/
def vecOf (w : Nat) (f : Nat → Nat) : Vec := BitVec.ofNat 2048 (buildElems w f (256 / w))

/-- A vector whose first n elements of w bytes are given, the rest zero. -/
def vecOfN (w n : Nat) (f : Nat → Nat) : Vec := BitVec.ofNat 2048 (buildElems w f n)

/-- A vector from a list of elements of w bytes. -/
def vecOfList (w : Nat) (l : List Nat) : Vec := vecOfN w l.length fun i => l.getD i 0

/-- Whether the lane i of width w takes part: the mask bit of its lowest byte (04 R85). -/
def lane (m : Mask) (w i : Nat) : Bool := bitOf m (w * i)

/-- The elements under the mask, zero elsewhere. -/
def maskVec (m : Mask) (w : Nat) (f : Nat → Nat) : Vec := vecOf w fun i => if lane m w i then f i else 0

/-- A byte mask from a test of each byte. -/
def maskOfBits (f : Nat → Bool) : Mask :=
  BitVec.ofNat 256 ((List.range 256).foldr (fun k acc => (f k).toNat * 2 ^ k + acc) 0)

/-- The byte mask of the bytes that a lane mask lets through, for elements of w bytes. -/
def byteMask (m : Mask) (w : Nat) : Mask := maskOfBits fun k => lane m w (k / w)

/-- A value of n bits read as a signed number. -/
def signed (n x : Nat) : Int := if x % 2 ^ n < 2 ^ (n - 1) then (x % 2 ^ n : Nat) else (x % 2 ^ n : Nat) - (2 ^ n : Nat)

/-- An integer as n bits. -/
def wrapN (n : Nat) (x : Int) : Nat := (x % (2 ^ n : Nat)).toNat

/-- The lane mask or the guard of a V word (04 R84): `none` where the guard is false. -/
def vMask (gm : BitVec 4) : Act (Option Mask) := do
  if gm.toNat < 8 then
    maskReady gm.toNat
    let c ← cx
    pure (some (c.maskOf gm.toNat))
  else
    let c ← cx
    if c.ps (gm.toNat - 8) then
      (fun s => .ok ((), { s with curIt := iterOf c gm.toNat, curG := gm.toNat }))
      pure (some (BitVec.allOnes 256))
    else pure none

/-- The meaning of a V word under GM. -/
def vword (gm : BitVec 4) (body : Mask → Act Unit) (s : State) : Host.Outcome State Fault Refusal :=
  finish 1 false (do
    match ← vMask gm with
    | none => pure .seq
    | some m => body m; pure .seq) s

/-- A V word of FALU, FSPEC, CVT or VRED: its event counter counts it, whether its guard lets it act or not (26 R450). -/
def vcword (gm : BitVec 4) (body : Mask → Act Unit) (s : State) : Host.Outcome State Fault Refusal :=
  finish 1 false (do
    match ← vMask gm with
    | none => countEvent 8 1; pure .seq
    | some m => body m; countEvent 8 1; pure .seq) s

/-! ## a-queue operands -/

/-- An a-queue operand of the stream that issues. -/
def aOp (st : Stream) (n : BitVec 4) (k : Bool) : QRef × Bool := (aRef st n, k)

/-- The three operands of an M or X word, in field order (04 R93, 06 R125). -/
def readMA (st : Stream) (o : MA) : Act (Word × Word × Word) :=
  read3 (aRef st o.a) o.k1 (aRef st o.b) o.k2 (aRef st o.c) o.k3

end Sys2Proof.Machine
end

