-- ==== Sys2Proof/Machine/Flags.lean ====
section
/-!
DEFINITION. Every flag computation: the sticky flags of VCSR, MCSR, RCSR and STATUS, poison counts, and what a CSR write
leaves of a register's fields.
-/
namespace Sys2Proof.Machine

/-! ## Floating-point flags (05 R112) -/

/-- The flags that a vector operation may set. -/
structure FpFlags where
  sat : Bool
  nv  : Bool
  ofl : Bool
  uf  : Bool
  nx  : Bool
  dz  : Bool
  deriving DecidableEq, Repr, Inhabited

def FpFlags.none : FpFlags := { sat := false, nv := false, ofl := false, uf := false, nx := false, dz := false }

def FpFlags.or (a b : FpFlags) : FpFlags :=
  { sat := a.sat || b.sat, nv := a.nv || b.nv, ofl := a.ofl || b.ofl, uf := a.uf || b.uf, nx := a.nx || b.nx,
    dz := a.dz || b.dz }

/-- The flags in their places in `VCSR` (R112). -/
def FpFlags.toWord (f : FpFlags) : Word :=
  BitVec.ofNat 64 (2 ^ 7 * f.sat.toNat + 2 ^ 6 * f.nv.toNat + 2 ^ 5 * f.ofl.toNat + 2 ^ 4 * f.uf.toNat +
    2 ^ 3 * f.nx.toNat + 2 ^ 2 * f.dz.toNat)

/-- The flags of all lanes together. -/
def FpFlags.all (l : List FpFlags) : FpFlags := l.foldl FpFlags.or FpFlags.none

/-- A vector word sets its flags at issue: they are sticky (R112). -/
def setVcsr (f : FpFlags) : Act Unit := modCx fun c => { c with vcsr := c.vcsr ||| f.toWord }

/-- The rounding mode of V: 3 acts as 0 (R112). -/
def Ctx.rm (c : Ctx) : Nat := if bits c.vcsr 0 2 = 3 then 0 else bits c.vcsr 0 2

/-! ## STATUS, MCSR, RCSR (06 R141, 05 R122, 10 R227) -/

/-- `STATUS.DZ`: an S divide had a zero divisor. -/
def setDz : Act Unit := modCx fun c => { c with status := c.status ||| 1#64 }

/-- `STATUS.POISONMODE` is TRAP. -/
def Ctx.poisonTrap (c : Ctx) : Bool := bits c.status 10 2 == 1

/-- `STATUS.ACCOVF`, the same bit as `MCSR.ACCOVF`: 1 is IEEE. -/
def Ctx.accOvf (c : Ctx) : Bool := bitOf c.status 8

/-- The sticky bits of `RCSR` by number: 0 PQBAD, 1 ILLFORMED, 2 OVERRUN, 3 TBLBAD. -/
def setRcsr (bit : Nat) : Act Unit := modCx fun c => { c with rcsr := c.rcsr ||| BitVec.ofNat 64 (2 ^ bit) }

/-! ## Register fields that a CSR write may change (06 R140, R141) -/

/-- `STATUS` after a write of v: the reserved values of POISONMODE leave the field (R141). -/
def statusWrite (old v : Word) : Word :=
  let pm := if bits v 10 2 < 2 then bits v 10 2 else bits old 10 2
  BitVec.ofNat 64 (bits v 0 2 + 2 ^ 8 * bits v 8 2 + 2 ^ 10 * pm)

/-- `MCSR` after a write of v: FMT keeps its value (05 R122). -/
def mcsrWrite (old v : Word) : Word := (v &&& 0x710#64) ||| (old &&& 0xF#64)

end Sys2Proof.Machine
end

