-- ==== Sys2Proof/Machine/Float.lean ====
section
/-!
DEFINITION. Number formats and exact arithmetic: every result is computed exactly and rounded once (05 R101 to R121).
-/
namespace Sys2Proof.Machine

/-! ## Formats (R101) -/

/-- A float format: exponent bits, mantissa bits, bias, whether it has infinities, its largest finite magnitude code, its
canonical NaN, and whether its NaNs can signal (R114). -/
structure Fmt where
  eb     : Nat
  mb     : Nat
  bias   : Nat
  hasInf : Bool
  maxMag : Nat
  nan    : Nat
  canSig : Bool
  deriving DecidableEq, Repr, Inhabited

def fp32 : Fmt := { eb := 8, mb := 23, bias := 127, hasInf := true, maxMag := 0x7F7FFFFF, nan := 0x7FC00000, canSig := true }
def fp16 : Fmt := { eb := 5, mb := 10, bias := 15, hasInf := true, maxMag := 0x7BFF, nan := 0x7E00, canSig := true }
def bf16 : Fmt := { eb := 8, mb := 7, bias := 127, hasInf := true, maxMag := 0x7F7F, nan := 0x7FC0, canSig := true }
def e4m3 : Fmt := { eb := 4, mb := 3, bias := 7, hasInf := false, maxMag := 0x7E, nan := 0x7F, canSig := false }
def e5m2 : Fmt := { eb := 5, mb := 2, bias := 15, hasInf := true, maxMag := 0x7B, nan := 0x7E, canSig := true }
def e2m1 : Fmt := { eb := 2, mb := 1, bias := 1, hasInf := false, maxMag := 7, nan := 0, canSig := false }

/-- The sign bit of a format as a number. -/
def Fmt.signBit (f : Fmt) : Nat := 2 ^ (f.eb + f.mb)

/-- An exact number: a NaN, an infinity, or ± mant × 2 ^ exp. Zero keeps its sign. -/
inductive FpNum where
  | nan (sig : Bool)
  | inf (neg : Bool)
  | fin (neg : Bool) (mant : Nat) (exp : Int)
  deriving DecidableEq, Repr, Inhabited

/-- The value of a code (R101). -/
def Fmt.value (f : Fmt) (x : Nat) : FpNum :=
  let neg := x / f.signBit % 2 == 1
  let mag := x % f.signBit
  let m := mag % 2 ^ f.mb
  let e := mag / 2 ^ f.mb
  if f.maxMag < mag then
    if f.hasInf ∧ mag = f.maxMag + 1 then .inf neg else .nan (f.canSig && m / 2 ^ (f.mb - 1) == 0)
  else if e = 0 then .fin neg m (1 - (f.bias : Int) - f.mb)
  else .fin neg (2 ^ f.mb + m) ((e : Int) - f.bias - f.mb)

/-- The number of bits of a positive number; 0 has none. -/
def bitLen (n : Nat) : Nat := if n = 0 then 0 else Nat.log2 n + 1

/-- Rounding of mant × 2 ^ exp to a multiple of 2 ^ q: mode 0 nearest even, 1 toward zero, 2 stochastic with the 16-bit
random value u (R111, R113). `sticky` says that a further part below the last bit of mant was cut off. The result
counts units of 2 ^ q, with whether it is inexact. -/
def roundAt (rm u mant : Nat) (exp : Int) (sticky : Bool) (q : Int) : Nat × Bool :=
  if q ≤ exp then (mant * 2 ^ (exp - q).toNat, sticky)
  else
    let sh := (q - exp).toNat
    let keep := mant / 2 ^ sh
    let rest := mant % 2 ^ sh
    let inexact := rest != 0 || sticky
    let half := 2 ^ (sh - 1)
    let up := match rm with
      | 1 => false
      | 2 => decide (u < rest * 65536 / 2 ^ sh)
      | _ => decide (half < rest) || (rest == half && (sticky || keep % 2 == 1))
    (if up then keep + 1 else keep, inexact)

/-- A rounded magnitude: its code, and whether it overflowed, underflowed and was inexact. -/
structure Rounded where
  mag : Nat
  ofl : Bool
  uf  : Bool
  nx  : Bool
  deriving DecidableEq, Repr, Inhabited

/-- Rounding of a magnitude to a format, once; an overflowing magnitude is reported with the code past the largest
(R111, R112, R114). -/
def Fmt.round (f : Fmt) (rm u mant : Nat) (exp : Int) (sticky : Bool) : Rounded :=
  if mant = 0 then { mag := 0, ofl := false, uf := sticky, nx := sticky }
  else
    let e := exp + (bitLen mant : Int) - 1
    let emin := 1 - (f.bias : Int)
    let q := max e emin - f.mb
    let (k, nx) := roundAt rm u mant exp sticky q
    let field := (q + f.mb + f.bias).toNat
    let mag := if k = 0 then 0 else field * 2 ^ f.mb + k - 2 ^ f.mb
    let free := (roundAt rm u mant exp sticky (e - f.mb)).1
    let tiny := decide (e < emin) && !(e + 1 == emin && free == 2 ^ (f.mb + 1))
    { mag := mag, ofl := decide (f.maxMag < mag), uf := tiny && nx, nx := nx }

/-- What an overflow delivers. -/
inductive OverTo where
  | ieee        -- infinity under nearest even and stochastic, the largest finite toward zero
  | saturate    -- the largest finite
  deriving DecidableEq, Repr, Inhabited

def signed1 (f : Fmt) (neg : Bool) (mag : Nat) : Nat := mag + (if neg then f.signBit else 0)

/-- A code with its flags. -/
abbrev Coded := Nat × FpFlags

def fpNx (r : Rounded) : FpFlags :=
  { sat := false, nv := false, ofl := r.ofl, uf := r.uf, nx := r.nx || r.ofl, dz := false }

def fpNv : FpFlags := { FpFlags.none with nv := true }

/-- An exact number rounded once to a format. -/
def Fmt.encode (f : Fmt) (rm u : Nat) (past : OverTo) (sticky : Bool) : FpNum → Coded
  | .nan sig => (f.nan, if sig then fpNv else FpFlags.none)
  | .inf neg => (signed1 f neg (if f.hasInf then f.maxMag + 1 else f.maxMag), FpFlags.none)
  | .fin neg m e =>
    let r := f.round rm u m e sticky
    let mag := if r.ofl then (if past = .saturate ∨ rm = 1 ∨ !f.hasInf then f.maxMag else f.maxMag + 1) else r.mag
    (signed1 f neg mag, fpNx r)

/-! ## Exact arithmetic -/

/-- A signed multiple of 2 ^ exp as a number; an exact zero takes the given sign. -/
def ofInt (zeroNeg : Bool) (m : Int) (e : Int) : FpNum :=
  if m = 0 then .fin zeroNeg 0 e else .fin (m < 0) m.natAbs e

/-- The signed mantissa over a smaller exponent. -/
def toInt (neg : Bool) (m : Nat) (e q : Int) : Int :=
  let k : Nat := m * 2 ^ (e - q).toNat
  if neg then -(k : Int) else k

def FpNum.neg : FpNum → FpNum
  | .nan s => .nan s
  | .inf n => .inf (!n)
  | .fin n m e => .fin (!n) m e

/-- A NaN among operands: it signals if one of them does. -/
def nanOf : List FpNum → Option Bool
  | [] => none
  | .nan s :: r => some (s || (nanOf r).getD false)
  | _ :: r => nanOf r

/-- An exact result with NV for an invalid operation. -/
structure Exact where
  num : FpNum
  nv  : Bool
  deriving DecidableEq, Repr, Inhabited

def exactNan (sig : Bool) : Exact := { num := .nan false, nv := sig }
def exactOf (n : FpNum) : Exact := { num := n, nv := false }

/-- The exact sum; inf − inf is invalid, an exact zero sum is +0 but (−0) + (−0) is −0 (R114). -/
def addNum (a b : FpNum) : Exact :=
  match nanOf [a, b] with
  | some s => exactNan s
  | none => match a, b with
    | .inf x, .inf y => if x = y then exactOf (.inf x) else exactNan true
    | .inf x, _ => exactOf (.inf x)
    | _, .inf y => exactOf (.inf y)
    | .fin x m e, .fin y n g =>
      let q := min e g
      exactOf (ofInt (x && y) (toInt x m e q + toInt y n g q) q)
    | _, _ => exactNan false

/-- The exact product; inf × 0 is invalid. -/
def mulNum (a b : FpNum) : Exact :=
  match nanOf [a, b] with
  | some s => exactNan s
  | none => match a, b with
    | .inf x, .inf y => exactOf (.inf (x != y))
    | .inf x, .fin y n _ => if n = 0 then exactNan true else exactOf (.inf (x != y))
    | .fin x m _, .inf y => if m = 0 then exactNan true else exactOf (.inf (x != y))
    | .fin x m e, .fin y n g => exactOf (.fin (x != y) (m * n) (e + g))
    | _, _ => exactNan false

/-- The exact a × b + c. -/
def fmaNum (a b c : FpNum) : Exact :=
  match nanOf [a, b, c] with
  | some s =>
    match mulNum a b with
    | { num := _, nv := nv } => exactNan (s || nv)
  | none =>
    let p := mulNum a b
    if p.nv then exactNan true else addNum p.num c

/-- An exact result rounded once, with its flags. -/
def Fmt.finish (f : Fmt) (rm : Nat) (x : Exact) : Coded :=
  let (c, fl) := f.encode rm 0 .ieee false x.num
  (c, if x.nv then fl.or fpNv else fl)

def Fmt.add (f : Fmt) (rm a b : Nat) : Coded := f.finish rm (addNum (f.value a) (f.value b))
def Fmt.sub (f : Fmt) (rm a b : Nat) : Coded := f.finish rm (addNum (f.value a) (f.value b).neg)
def Fmt.mul (f : Fmt) (rm a b : Nat) : Coded := f.finish rm (mulNum (f.value a) (f.value b))
def Fmt.fma (f : Fmt) (rm a b c : Nat) : Coded := f.finish rm (fmaNum (f.value a) (f.value b) (f.value c))

/-- A comparison of two numbers that are not NaN. -/
def numLt (a b : FpNum) : Bool :=
  match a, b with
  | .inf x, .inf y => x && !y
  | .inf x, _ => x
  | _, .inf y => !y
  | .fin x m e, .fin y n g => let q := min e g; decide (toInt x m e q < toInt y n g q)
  | _, _ => false

def numEq (a b : FpNum) : Bool :=
  match a, b with
  | .inf x, .inf y => x == y
  | .fin x m e, .fin y n g => let q := min e g; decide (toInt x m e q = toInt y n g q)
  | _, _ => false

def FpNum.isNan : FpNum → Bool
  | .nan _ => true
  | _ => false

def FpNum.isZero : FpNum → Bool
  | .fin _ m _ => m == 0
  | _ => false

def FpNum.isInf : FpNum → Bool
  | .inf _ => true
  | _ => false

def FpNum.isNeg : FpNum → Bool
  | .inf n => n
  | .fin n _ _ => n
  | _ => false

def FpNum.isSig : FpNum → Bool
  | .nan s => s
  | _ => false

/-! ## Quotients and roots, cut off below with a sticky bit -/

/-- mant / d with at least `p` significant bits: quotient, exponent, sticky. -/
def divBits (m d p : Nat) : Nat × Int × Bool :=
  let k := p + bitLen d
  (m * 2 ^ k / d, -(k : Int), m * 2 ^ k % d != 0)

/-- The integer square root, bit by bit from bit k downward. -/
def isqrtFrom (n : Nat) : Nat → Nat → Nat
  | 0, r => r
  | k + 1, r =>
    let t := r + 2 ^ k
    isqrtFrom n k (if t * t ≤ n then t else r)

def isqrt (n : Nat) : Nat := isqrtFrom n (bitLen n / 2 + 1) 0

/-- The square root of m × 2 ^ e with at least p bits. -/
def sqrtBits (m : Nat) (e : Int) (p : Nat) : Nat × Int × Bool :=
  let k := 2 * p + (if (e % 2) = 0 then 0 else 1)
  let n := m * 2 ^ k
  let r := isqrt n
  (r, (e - k) / 2, r * r != n)

/-! ## Integers and conversions (R115) -/

/-- The integer that a number rounds to (mode as in `roundAt`). -/
def roundInt (rm u : Nat) (neg : Bool) (m : Nat) (e : Int) : Int × Bool :=
  let (k, nx) := roundAt rm u m e false 0
  (if neg then -(k : Int) else k, nx)

/-- A number converted to an integer of n bits: what saturates sets SAT, and NX since the result is inexact; NaN gives 0 and sets NV
(R115 codes 12, 13; DEDUCED, log 73). -/
def toIntCode (n : Nat) (sgn : Bool) (rm u : Nat) (x : FpNum) : Coded :=
  let lo : Int := if sgn then -(2 ^ (n - 1) : Nat) else 0
  let hi : Int := if sgn then (2 ^ (n - 1) : Nat) - 1 else (2 ^ n : Nat) - 1
  let sat : FpFlags := { FpFlags.none with sat := true, nx := true }
  match x with
  | .nan _ => (0, fpNv)
  | .inf neg => (wrapN n (if neg then lo else hi), sat)
  | .fin neg m e =>
    let (k, nx) := roundInt rm u neg m e
    if k < lo then (wrapN n lo, sat)
    else if hi < k then (wrapN n hi, sat)
    else (wrapN n k, { FpFlags.none with nx := nx })

/-- An integer as an exact number. -/
def intNum (k : Int) : FpNum := ofInt false k 0

/-- An integer clamped to a range; the second part says whether it changed. -/
def clampInt (lo hi k : Int) : Int × Bool := if k < lo then (lo, true) else if hi < k then (hi, true) else (k, false)

/-! ## Block formats (R108, R109, R117, R118) -/

/-- The value of an MXE4M3 element under its scale (R108). -/
def mxValue (scale x : Nat) : FpNum :=
  match e4m3.value x with
  | .fin n m e => if scale = 0xFF then .nan false else .fin n m (e + scale - 127)
  | other => other

/-- The value of an SXP4 element under its side word (R109). -/
def sxValue (side code : Nat) : FpNum :=
  let scale := side % 256
  let spare := side / 256 % 256
  if scale = 0xFF then .nan false
  else match (if code = 8 then e4m3.value spare else e2m1.value code) with
    | .fin n m e => .fin n m (e + scale - 127)
    | other => other

/-- The magnitudes of finite numbers compared. -/
def magLt (a b : FpNum) : Bool :=
  match a, b with
  | .fin _ m e, .fin _ n g => let q := min e g; decide (m * 2 ^ (e - q).toNat < n * 2 ^ (g - q).toNat)
  | _, _ => false

/-- The lowest-indexed number of largest magnitude. -/
def amaxOf : List FpNum → FpNum
  | [] => .fin false 0 0
  | x :: r => let y := amaxOf r; if magLt x y then y else x

/-- floor(log2) of a positive number. -/
def floorLog2 : FpNum → Int
  | .fin _ m e => e + (bitLen m : Int) - 1
  | _ => 0

/-- A number divided by 2 ^ k. -/
def scaleDown (k : Int) : FpNum → FpNum
  | .fin n m e => .fin n m (e - k)
  | other => other

/-- An FP32 block as MXE4M3: the scale, the element codes, the flags (R117). A saturated element sets NX, and a tiny inexact one UF
(DEDUCED, log 72). -/
def encodeMx (xs : List FpNum) : Nat × List Nat × FpFlags :=
  if xs.any fun x => x.isNan || x.isInf then
    (0xFF, xs.map fun _ => 0, { FpFlags.none with nv := xs.any FpNum.isNan, ofl := xs.any FpNum.isInf })
  else if xs.all FpNum.isZero then (0x7F, xs.map fun _ => 0, FpFlags.none)
  else
    let scale := (clampInt 0 0xFE (floorLog2 (amaxOf xs) - 8 + 127)).1
    let rs := xs.map fun x => e4m3.encode 0 0 .saturate false (scaleDown (scale - 127) x)
    (scale.toNat, rs.map (·.1), { FpFlags.none with nx := rs.any (fun r => r.2.nx), uf := rs.any fun r => r.2.uf })

/-- An FP32 block as SXP4: the side word, the element codes, the flags (R118). NX and UF are set as for MXE4M3, each element judged
on the grid that codes it (DEDUCED, log 72). -/
def encodeSx (xs : List FpNum) : Nat × List Nat × FpFlags :=
  if xs.any fun x => x.isNan || x.isInf then
    (0xFF, xs.map fun _ => 0, { FpFlags.none with nv := xs.any FpNum.isNan, ofl := xs.any FpNum.isInf })
  else if xs.all FpNum.isZero then (0x7F, xs.map fun _ => 0, FpFlags.none)
  else
    let xm := amaxOf xs
    let scale := (clampInt 0 0xFE (floorLog2 xm - 2 + 127)).1
    let down := scaleDown (scale - 127)
    let sp := (e4m3.encode 0 0 .saturate false (down xm)).1
    let spare := if sp % 128 = 0 then 0 else sp
    let one (x : FpNum) : Coded :=
      let e := e4m3.encode 0 0 .saturate false (down x)
      if spare ≠ 0 ∧ e.1 = spare then (8, e.2)
      else
        let c := e2m1.encode 0 0 .saturate false (down x)
        (if c.1 = 8 then 0 else c.1, c.2)
    let rs := xs.map one
    (scale.toNat + 256 * spare, rs.map (·.1),
      { FpFlags.none with nx := rs.any (fun r => r.2.nx), uf := rs.any fun r => r.2.uf })

end Sys2Proof.Machine
end

