-- ==== Sys2Proof/Machine/Loop.lean ====
section
/-!
DEFINITION. The loop unit: the end of a modulo pass and the restart after a rollback (08 R184, R191). The rollback itself stands in
Ops.lean.
-/
namespace Sys2Proof.Machine

/-- The window of stage predicates at the start of the next pass (R184). -/
def nextLpw (lpw : Word) (enters : Bool) : Word :=
  BitVec.ofNat 64 ((2 * bits lpw 0 8 + enters.toNat) % 2 ^ 8)

/-- Each stream starts the next pass at its `LS0` (R184). -/
def Ctx.nextPass (c : Ctx) : Ctx :=
  let pass := c.liiPass + 1
  let lii := setBits c.lii 16 24 pass
  let retry := if c.liiRetry ∧ c.liiStg ≤ pass then setBits lii 10 1 0 else lii
  { c.eachStr (fun _ x => { x with lc0 := decLc x.lc0, pc := x.ls0, passEnd := false }) with
    lii := retry
    lpw := nextLpw c.lpw (!c.liiRestart && decide (pass < c.liiN))
    pops := c.pops.filter fun p => decide (pass ≤ p.it + 8) }

/-- The restart of the run with the rolled-back iteration as its iteration 0 (R191). -/
def Ctx.restartRun (c : Ctx) : Ctx :=
  let lc := BitVec.ofNat 64 (c.liiN + c.liiStg)
  let lii := setBits (setBits (setBits c.lii 9 1 0) 10 1 (if c.liiStg = 0 then 0 else 1)) 16 24 0
  { (c.forgetIterations).eachStr (fun _ x => { x with lc0 := lc, pc := x.ls0, passEnd := false }) with
    lii := lii
    lpw := 1
    rbFloor := 0 }

/-- The end of the modulo loop: `ACT` clears and each stream goes on under R179, examining level 1 (R184). -/
def Ctx.endModulo (c : Ctx) : Ctx :=
  { (c.forgetIterations).eachStr (fun _ x => { loopBack1 { x with lc0 := 0 } x.le0 with passEnd := false }) with
    lii := setBits c.lii 8 1 0 }

/-- MODULO_PASS_END (R184, R191): enabled once all four streams have ended the pass. A rollback in the last pass leaves
the levels with one pass. Where CSR writes have made the four LC0 differ, that of S says for all streams whether the pass is the last
(DESIGN CHOICE, log 79). -/
def Ctx.passEnds (c : Ctx) : Ctx :=
  if 1 < bits c.ss.lc0 0 32 then c.nextPass
  else if c.liiRestart then c.restartRun
  else c.endModulo

/-- All four streams have ended the pass, no rollback of it is due, and no cut or handler holds the loop unit (R184, R190, R192). -/
def Ctx.passReady (c : Ctx) : Bool :=
  c.liiAct && c.ss.passEnd && c.sv.passEnd && c.sm.passEnd && c.sx.passEnd && c.rbNow.isNone && !c.hnd && c.cut.isNone && c.hold == .free

def execModuloPassEnd (c : CtxRef) (s : State) : Host.Outcome State Fault Refusal :=
  .next (if (s.ctx c).passReady then s.modCtx c Ctx.passEnds else s)

end Sys2Proof.Machine
end

