-- ==== Sys2Proof/Machine/Translate.lean ====
section
/-!
DEFINITION. Address translation: TLBs, rights, the parts of an access, and the limits of the typed buffers and the shared
store (17 R329 to R336, 18 R345, 14 R262, 07 R157).
-/
namespace Sys2Proof.Machine

/-- The entries of a stream's TLB (R333). -/
def tlbEntries : Stream → Nat
  | .s => 64
  | _ => 32

/-- Whether an entry translates an address. -/
def TlbEntry.covers (e : TlbEntry) (va : Word) : Bool := va.toNat / e.size == e.vpn

/-- Checks 5 and 6 of R329. -/
def TlbEntry.refuses (e : TlbEntry) (u : Use) : Option Cause :=
  match u with
  | .read => none
  | .fetch => if e.x then none else some .prot
  | .write => if e.w then none else some .prot
  | .atomic => if !e.w then some .prot else if !e.ac || e.home == 1 then some .atompath else none

/-- The node information of a node. -/
def State.nodeInfo (s : State) (n : NodeRef) : NodeInfo :=
  match (Table.get s.hub.parts Partition.init n.part).launches.find? fun p => p.1 == n.launch with
  | some p => Table.get p.2.table NodeInfo.init n.node
  | none => NodeInfo.init

/-- A region is written in virtual memory and shares a byte with a page. -/
def Region.writesPage (g : Region) (page size : Nat) : Bool :=
  g.space == 0 && g.writes && decide (g.base < (page + 1) * size) && decide (page * size < g.base + g.len)

/-- In a dual run the pages of the node's write regions map to scratch pages for every team but the primary (21 R402). -/
def State.scratched (s : State) (c : CtxRef) (va : Word) (e : TlbEntry) : TlbEntry :=
  match (s.ctx c).running with
  | some r => match r.scratch with
    | some n =>
      if (s.nodeInfo r.node).regions.any fun g => g.writesPage (va.toNat / e.size) e.size then
        { e with home := 3 + n, phys := va.toNat / e.size * e.size }
      else e
    | none => e
  | none => e

/-- The leaf translation of an address: that of the stream's TLB, or of a walk where it misses (R333). -/
def State.pageOf (s : State) (c : CtxRef) (st : Stream) (va : Word) : Option TlbEntry :=
  (((s.ctx c).str st).tlb.find? fun e => e.covers va).orElse fun _ => (s.walk (s.partOf c) va).hit

/-- The translation of an address by a stream, with the checks of its use (R329, 21 R402). -/
def State.lookup (s : State) (c : CtxRef) (st : Stream) (va : Word) (u : Use) : Except Cause TlbEntry :=
  if bits va 55 9 ≠ 0 then .error .prot
  else
    match s.pageOf c st va with
    | none => .error (s.walk (s.partOf c) va).cause
    | some e0 =>
      let e := s.scratched c va e0
      match e.refuses u with
      | some cause => .error cause
      | none => .ok e

/-- Puts a translation into a stream's TLB; the oldest entry makes room (log 12). -/
def Ctx.fillTlb (c : Ctx) (st : Stream) (e : TlbEntry) : Ctx :=
  c.modStr st fun x => if x.tlb.contains e then x else { x with tlb := (e :: x.tlb).take (tlbEntries st) }

/-- The home and the home address of a translated byte (R332, 18 R343). A peer address holds the package's index above its device
address. -/
def TlbEntry.place (e : TlbEntry) (va : Word) : Home × Nat :=
  let a := e.phys + va.toNat % e.size
  match e.home with
  | 0 => (.hbm, a)
  | 1 => (.host, a)
  | 2 => (.peer, a)
  | n => (.scratch (n - 3), a)

/-- A peer address beyond the peer's HBM: the peer refuses it (17 R332). -/
def beyondPeer (h : Home) (addr len : Nat) : Bool := h == .peer && decide (hbmSize < addr % 2 ^ 40 + len)

def Part.beyondPeer (p : Part) : Bool := Machine.beyondPeer p.home p.addr p.len

/-- The pieces of a run of bytes within 64-byte units: position, address, length (18 R345). -/
def pieces : Nat → Nat → Nat → Nat → List (Nat × Nat × Nat)
  | 0, _, _, _ => []
  | fuel + 1, pos, a, len =>
    if len = 0 then []
    else
      let n := min len (64 - a % 64)
      (pos, a, n) :: pieces fuel (pos + n) (a + n) (len - n)

/-- All pieces of a run. -/
def piecesOf (a len : Nat) : List (Nat × Nat × Nat) := pieces (len / 64 + 2) 0 a len

/-- The parts of a run of virtual memory; the first that does not translate gives its cause and address. -/
def State.vmParts (s : State) (c : CtxRef) (st : Stream) (u : Use) (base : Nat) :
    List (Nat × Nat × Nat) → Except (Cause × Word) (List Part)
  | [] => .ok []
  | (pos, a, n) :: rest =>
    let va := BitVec.ofNat 64 a
    match s.lookup c st va u with
    | .error cause => .error (cause, va)
    | .ok e =>
      match s.vmParts c st u base rest with
      | .error x => .error x
      | .ok ps => .ok ({ pos := base + pos, len := n, home := (e.place va).1, addr := (e.place va).2, va := va,
                         page := e.page, span := (e.vpn * e.size, e.size) } :: ps)

/-- A stream's use of an address that translates: a miss counts with its demand walk (26 R450, counters 12 and 13), which fills the TLB
(R333). A walk that fails is counted with the fault that it raises. -/
def State.touch (s : State) (c : CtxRef) (st : Stream) (va : Word) : State :=
  if (((s.ctx c).str st).tlb.any fun e => e.covers va) || bits va 55 9 != 0 then s
  else
    match (s.walk (s.partOf c) va).hit with
    | some e => ((s.modCell c.cell fun l => (l.count 12 1).count 13 1).noteWalk (s.partOf c) va).modCtx c fun x => x.fillTlb st e
    | none => s

/-- An operation that touches a page asks for the next one in its direction of travel, upward, unless its TLB holds it; S has no stream
TLB (R333, R334). -/
def Ctx.askNext (c : Ctx) (st : Stream) (span : Nat × Nat) : Ctx :=
  let next := span.1 + span.2
  if st == .s || span.2 == 0 || ((c.str st).tlb.any fun e => e.covers (BitVec.ofNat 64 next)) || c.prefetch.contains (slotNo st, next) then c
  else { c with prefetch := c.prefetch ++ [(slotNo st, next)] }

/-- Fills the TLB with the pages of parts, and asks for the pages behind them. -/
def State.fillFor (s : State) (c : CtxRef) (st : Stream) (ps : List Part) : State :=
  ps.foldl (fun s p => (s.touch c st p.va).modCtx c fun x => x.askNext st p.span) s

/-- A translation fault of the word that issues: precise, with its walk's syndrome (R336). -/
def faultNow {α : Type} (u : Use) (cause : Cause) (a : Word) : Act α := fun s =>
  .error (.trap { cause := cause, addr := a, st := s.curSt, async := false, syn := some (s.synOf s.cur u a) })

/-- The translated parts of an access of the word that issues; a fault is precise (R336). -/
def translate (u : Use) (va : Word) (len : Nat) : Act (List Part) := fun s =>
  match s.vmParts s.cur s.curSt u 0 (piecesOf va.toNat len) with
  | .error (cause, a) => faultNow u cause a s
  | .ok ps => .ok (ps, s.fillFor s.cur s.curSt ps)

/-- The parts of an access to the die's shared store: RC rules, no pages (18 R346). -/
def ssParts (cell off len : Nat) : List Part :=
  (piecesOf off len).map fun (pos, a, n) =>
    { pos := pos, len := n, home := .ss (dieOf cell), addr := a, va := BitVec.ofNat 64 a, page := .rc }

/-! ## Limits (14 R262, 02 R30, R31, 07 R157) -/

/-- The size of a space for one context: its half of a typed buffer in PAIR mode, nothing for B in SOLO mode. -/
def limitOf (pair : Bool) (bank : Bank) : Space → Nat
  | .ss => 0x6000000
  | .vm => 2 ^ 55
  | sp =>
    let full := match sp with
      | .cb => 0x100000
      | _ => 0x200000
    if pair then full / 2 else match bank with
      | .a => full
      | .b => 0

/-- The limit of a space for the context that issues. -/
def State.limit (s : State) (c : CtxRef) (sp : Space) : Nat := limitOf (s.cell c.cell).pair c.bank sp

/-- Where a context's part of a typed buffer begins in the cell's buffer (02 R31). -/
def bufBase (pair : Bool) (bank : Bank) (sp : Space) : Nat :=
  match bank with
  | .a => 0
  | .b => if pair then limitOf true .b sp else 0

/-- A range of a space that ends beyond its limit traps BUFACC with the address in `TADDR` (R262). -/
def inLimit (sp : Space) (addr len : Nat) (taddr : Word) : Act Unit := fun s =>
  if addr + len ≤ s.limit s.cur sp then .ok ((), s) else trapNow .bufacc taddr s

/-- The typed buffers and the shared store as memories. -/
def State.buffer (s : State) (cell : Nat) : Space → Memory
  | .ab => (s.cell cell).ab
  | .wb => (s.cell cell).wb
  | .cb => (s.cell cell).cb
  | .ss => (s.die (dieOf cell)).ss
  | .vm => s.hbm

def State.modBuffer (s : State) (cell : Nat) (sp : Space) (f : Memory → Memory) : State :=
  match sp with
  | .ab => s.modCell cell fun c => { c with ab := f c.ab }
  | .wb => s.modCell cell fun c => { c with wb := f c.wb }
  | .cb => s.modCell cell fun c => { c with cb := f c.cb }
  | .ss => s.modDie (dieOf cell) fun d => { d with ss := f d.ss }
  | .vm => { s with hbm := f s.hbm }

/-- Reads a run of a context's typed buffer or shared store. -/
def State.bufRead (s : State) (c : CtxRef) (sp : Space) (a n : Nat) : List (Byte × Bool) :=
  let base := if sp = .ss then 0 else bufBase (s.cell c.cell).pair c.bank sp
  (s.buffer c.cell sp).readP (base + a) n

/-- Writes a run of a context's typed buffer or shared store. -/
def State.bufWrite (s : State) (c : CtxRef) (sp : Space) (a : Nat) (ws : List (Option (Byte × Bool))) : State :=
  let base := if sp = .ss then 0 else bufBase (s.cell c.cell).pair c.bank sp
  s.modBuffer c.cell sp fun m => m.store (base + a) ws

/-- The bytes of a cell's memories that ranges of the typed buffers name. -/
def State.segReads (s : State) (c : CtxRef) (l : List Seg) : List (MemRef × Nat × Nat) :=
  (l.filter fun g => g.space != .vm && g.space != .ss && g.len != 0).map fun g =>
    (g.space.memRef c.cell, bufBase (s.cell c.cell).pair c.bank g.space + g.addr, g.len)

/-- Reads of ranges of the typed buffers find the errors of their units (14 R271). -/
def State.eccSegs (s : State) (c : CtxRef) (l : List Seg) : State := s.findsAt c.cell (s.segReads c l)

/-! ## Instruction fetch (07 R156, 18 R342) -/

/-- The word of fused code at a window address (22 R413). -/
def State.fusedAt (s : State) (va : Word) : Option (BitVec 32) :=
  s.hub.cache.findSome? fun p =>
    let off := va.toNat - spliceBase
    if off < p.2.at_ then none else p.2.code.flatten[(off - p.2.at_) / 4]?

/-- The word of a stream at an address: fetch is no access of the memory machine, it takes the bytes that stand at the home
(18 R342); a peer refuses one beyond its HBM (R332). Fetch in the splice window reads the splice cache and is not translated; a window address that holds no fused
word has no page and raises PFAULT (22 R413). -/
def State.codeAt (s : State) (c : CtxRef) (st : Stream) (va : Word) : Except Cause (BitVec 32) :=
  if spliceBase ≤ va.toNat ∧ va.toNat < spliceBase + spliceSize then
    match s.fusedAt va with
    | some w => .ok w
    | none => .error .pfault
  else
    match s.lookup c st va .fetch with
    | .error e => .error e
    | .ok e =>
      if beyondPeer (e.place va).1 (e.place va).2 4 then .error .prot
      else
      let m := match (e.place va).1 with
        | .host => s.hostMem
        | .peer => s.peerMem
        | .scratch n => Table.get s.scratch (Memory.blank 0) n
        | _ => s.hbm
      .ok (BitVec.ofNat 32 (ofBytes (m.readN (e.place va).2 4)))

/-- A stream fetches a word: its TLB takes the page and asks for the next one, and the errors of the word are found (R333, R334, 14 R271).
A fault is noted with its trap. -/
def State.touchWord (s : State) (c : CtxRef) (st : Stream) (va : Word) : State :=
  if spliceBase ≤ va.toNat ∧ va.toNat < spliceBase + spliceSize then s
  else
    let t := s.touch c st va
    match s.lookup c st va .fetch with
    | .ok e => (t.modCtx c fun x => x.askNext st (e.vpn * e.size, e.size)).eccHome (e.place va).1 (e.place va).2 4 (some c.cell)
    | .error _ => t

/-! ## TLB steps (R334, R335) -/

/-- PAGE_WALK: a demand walk reads its entries; one that succeeds fills the stream's TLB; one that fails fills nothing, and the access that needs
the page raises the fault (R329, R336). -/
def execPageWalk (c : CtxRef) (st : Stream) (va : BitVec 64) (s : State) : Host.Outcome State Fault Refusal :=
  let t := s.noteWalk (s.partOf c) va
  .next (match (s.walk (s.partOf c) va).hit with
    | some e => t.modCtx c fun x => x.fillTlb st e
    | none => t)

/-- TLB_PREFETCH_WALK: the oldest walk that a stream's TLB has yet to prefetch. A fault or a poisoned entry is discarded without a count
(R334). -/
def execTlbPrefetchWalk (c : CtxRef) (st : Stream) (s : State) : Host.Outcome State Fault Refusal :=
  .next (match (s.ctx c).prefetch.find? fun p => p.1 == slotNo st with
    | none => s
    | some p =>
      let t := (s.modCtx c fun x => { x with prefetch := x.prefetch.erase p }).walkReads (s.walk (s.partOf c) (BitVec.ofNat 64 p.2))
      match (s.walk (s.partOf c) (BitVec.ofNat 64 p.2)).hit with
      | some e => t.modCtx c fun x => x.fillTlb st e
      | none => t)

end Sys2Proof.Machine
end

