-- ==== Sys2Proof/Machine/Rows.lean ====
section
/-!
DEFINITION. The rows of an X operation and the accesses that an operation still owes the memory machine: their ranges, and their
translated parts (16 R304 to R311, 18 R342, R348, R349, R354).
-/
namespace Sys2Proof.Machine

/-! ## Bytes and ranges -/

/-- Bytes as a consumer sees them under ZERO: a poisoned unit reads as zeros (R273). -/
def zeroed (l : List (Byte × Bool)) : List Byte := l.map fun p => if p.2 then 0 else p.1

/-- The number of n bytes at a position, and whether one of them is poisoned. -/
def numAt (l : List (Byte × Bool)) (k n : Nat) : Nat × Bool :=
  let w := (l.drop k).take n
  (ofBytes (zeroed w), w.any (·.2))

/-- Two ranges share a byte of a space. -/
def Seg.meets (a b : Seg) : Bool :=
  a.space == b.space && decide (a.addr < b.addr + b.len) && decide (b.addr < a.addr + a.len)

/-- Whether the bytes of a space move by accesses of the memory machine. -/
def Space.byAccess (sp : Space) : Bool := sp == .vm || sp == .ss

/-- The bytes of ranges, in order. -/
def segsLen (l : List Seg) : Nat := l.foldl (fun n g => n + g.len) 0

/-- Ranges without their first n bytes. -/
def dropSegs (n : Nat) : List Seg → List Seg
  | [] => []
  | g :: r => if n < g.len then { g with addr := g.addr + n, len := g.len - n } :: r else dropSegs (n - g.len) r

/-- The address of row i. -/
def rowAddr (sp : Space) (a : Nat) (pitch : Int) (i : Nat) : Nat :=
  let x := (a : Int) + i * pitch
  if sp = .vm then (x % (2 ^ 64 : Nat)).toNat else x.toNat

/-- A range moved by a pitch. -/
def Seg.row (g : Seg) (pitch : Int) (i : Nat) : Seg := { g with addr := rowAddr g.space g.addr pitch i }

/-! ## Units of a converting copy (16 R309, 05 R115) -/

/-- The bytes of a source and of a destination element of a scalar conversion code. -/
def cvtBytes (code : Nat) : Nat × Nat :=
  match code with
  | 0 => (4, 2) | 1 => (4, 2) | 2 => (2, 4) | 3 => (2, 4) | 4 => (4, 1) | 5 => (4, 1) | 6 => (1, 4) | 7 => (1, 4)
  | 12 => (4, 4) | 13 => (4, 4) | 14 => (4, 4) | 15 => (4, 4) | 16 => (4, 1) | 17 => (1, 4) | 18 => (4, 2)
  | 19 => (2, 4) | 20 => (4, 1) | 21 => (4, 2) | 22 => (1, 4) | 23 => (1, 4) | 24 => (2, 4) | 25 => (2, 4)
  | 26 => (4, 1) | _ => (1, 4)

/-- The shape of a conversion: source and destination bytes of a unit, bytes of its side entries, destination elements. -/
structure ConvShape where
  su : Nat
  du : Nat
  ss : Nat
  ds : Nat
  el : Nat
  deriving DecidableEq, Repr, Inhabited

def convShape (code : Nat) : ConvShape :=
  match code with
  | 8 => { su := 128, du := 32, ss := 0, ds := 1, el := 32 }
  | 9 => { su := 32, du := 128, ss := 1, ds := 0, el := 32 }
  | 10 => { su := 128, du := 16, ss := 0, ds := 4, el := 32 }
  | 11 => { su := 16, du := 128, ss := 4, ds := 0, el := 32 }
  | _ => { su := (cvtBytes code).1, du := (cvtBytes code).2, ss := 0, ds := 0, el := 1 }

/-- The side range of a block format: beside the row by `soff`, `e` bytes for each unit. -/
def sideRange (g : Seg) (soff units e : Nat) : List Seg := if e = 0 then [] else [{ g with addr := g.addr + soff, len := units * e }]

/-- The units of a converting row. -/
def convUnits (x : XConv) (len : Nat) : Nat := len / (convShape x.code).su

/-! ## Rows (16 R304, R310, R311) -/

/-- How many rows an operation has; the index list of a gather or scatter is its first, and its only one where a row has no bytes (R311). -/
def OpKind.rowCount (k : OpKind) : Nat :=
  match k with
  | .copy _ _ _ _ _ _ n => n
  | .gather n rb .. => if n = 0 then 0 else if rb = 0 then 1 else n + 1
  | .scatter n rb .. => if n = 0 then 0 else if rb = 0 then 1 else n + 1
  | .fill _ d => if d.len = 0 then 0 else 1
  | .prefetch .. => 0
  | _ => 1

/-- An entry of the index list: the index, 0 where it is poisoned, and whether it is. -/
def EngineOp.index (o : EngineOp) (k : Nat) : Nat × Bool :=
  numAt ((List.range 4).map fun i => Table.get o.buf (0, false) (4 * k + i)) 0 4

/-- An indexed row of a gather or scatter. -/
def indexedRow (g : Seg) (x rb : Nat) : Seg := { g with addr := rowAddr g.space g.addr rb x, len := rb }

/-- An indexed row ends beyond the limit of its space (R311). -/
def State.beyond (s : State) (c : CtxRef) (g : Seg) : Bool := g.space != .vm && decide (s.limit c g.space < g.addr + g.len)

/-- What the present row reads. -/
def State.rowReads (s : State) (c : CtxRef) (o : EngineOp) : List Seg :=
  match o.kind with
  | .copy conv soff src _ sp _ _ =>
    let g := src.row sp o.done
    g :: (match conv with
      | some x => sideRange g soff (convUnits x g.len) (convShape x.code).ss
      | none => [])
  | .gather _ rb list _ src =>
    if o.done = 0 then [list]
    else
      let g := indexedRow src (o.index (o.done - 1)).1 rb
      if s.beyond c g then [] else [g]
  | .scatter _ rb list dst src =>
    if o.done = 0 then [list]
    else if s.beyond c (indexedRow dst (o.index (o.done - 1)).1 rb) then [] else [indexedRow src (o.done - 1) rb]
  | .send _ _ src => [src]
  | .sendReduce _ _ _ src => [src]
  | .peer _ src => [src]
  | .reduce _ dst src => [src, dst]
  | _ => []

/-- What the present row writes. -/
def State.rowWrites (s : State) (c : CtxRef) (o : EngineOp) : List Seg :=
  match o.kind with
  | .copy conv soff src dst _ dp _ =>
    let g := dst.row dp o.done
    g :: (match conv with
      | some x => sideRange g soff (convUnits x src.len) (convShape x.code).ds
      | none => [])
  | .gather _ rb _ dst _ => if o.done = 0 then [] else [indexedRow dst (o.done - 1) rb]
  | .scatter _ rb _ dst _ =>
    if o.done = 0 then []
    else
      let g := indexedRow dst (o.index (o.done - 1)).1 rb
      if s.beyond c g then [] else [g]
  | .fill _ dst => [dst]
  | .reduce _ dst _ => [dst]
  | _ => []

/-- Where the present row's bytes stand in the buffer: behind the index list. -/
def EngineOp.base (o : EngineOp) : Nat :=
  match o.kind with
  | .gather _ _ list _ _ => if o.done = 0 then 0 else list.len
  | .scatter _ _ list _ _ => if o.done = 0 then 0 else list.len
  | _ => 0

/-! ## Parts of a row (R305) -/

/-- The translated parts of pieces up to the first fault. -/
def State.partsUpTo (s : State) (c : CtxRef) (u : Use) (pos : Nat) : List (Nat × Nat × Nat) → List Part × Option (Cause × Word)
  | [] => ([], none)
  | (k, a, n) :: r =>
    match s.vmParts c .x u pos [(k, a, n)] with
    | .error f => ([], some f)
    | .ok ps => let (qs, f) := s.partsUpTo c u pos r; (ps ++ qs, f)

/-- A part moved to a later position. -/
def Part.shift (n : Nat) (p : Part) : Part := { p with pos := n + p.pos }

/-- The bytes of parts. -/
def partsLen (l : List Part) : Nat := l.foldl (fun n p => n + p.len) 0

/-- The parts of one range at a position, up to the first fault. -/
def State.rangeParts (s : State) (c : CtxRef) (u : Use) (pos : Nat) (g : Seg) : List Part × Option (Cause × Word) :=
  match g.space with
  | .vm => s.partsUpTo c u pos (piecesOf g.addr g.len)
  | .ss => ((ssParts c.cell g.addr g.len).map (Part.shift pos), none)
  | _ => ([], none)

/-- The parts of ranges from position `pos` on, up to the first fault, with the position reached. -/
def State.segParts (s : State) (c : CtxRef) (u : Use) (pos : Nat) : List Seg → List Part × Nat × Option (Cause × Word)
  | [] => ([], pos, none)
  | g :: r =>
    let (ps, f) := s.rangeParts c u pos g
    match f with
    | some x => (ps, pos + partsLen ps, some x)
    | none => let (qs, e, f) := s.segParts c u (pos + g.len) r; (ps ++ qs, e, f)

/-! ## What operations still owe the memory machine -/

/-- The ranges that an X operation has not issued yet, each with whether it is written: the rest of its present row, and its later rows.
The rows of an index list that has not been read are not among them. -/
def State.comingX (s : State) (c : CtxRef) (o : EngineOp) : List (Bool × Seg) :=
  let row (i : Nat) : List (Bool × Seg) :=
    let p := { o with done := i }
    (s.rowReads c p).map (fun g => (false, g)) ++ (s.rowWrites c p).map fun g => (true, g)
  let unread : Bool := o.done == 0 && match o.kind with
    | .gather .. => true
    | .scatter .. => true
    | _ => false
  let now : List (Bool × Seg) := if o.kind.rowCount ≤ o.done then [] else match o.phase with
    | .writing => (dropSegs o.pos (s.rowWrites c o)).map fun g => (true, g)
    | _ => (dropSegs o.pos (s.rowReads c o)).map (fun g => (false, g)) ++ (s.rowWrites c o).map fun g => (true, g)
  let later := if unread then [] else (List.range o.kind.rowCount).drop (o.done + 1)
  (now ++ (later.map row).flatten).filter fun p => p.2.space.byAccess && p.2.len != 0

/-- The space in which rows lie that an index list still has to name. -/
def EngineOp.anywhere (o : EngineOp) : Option Space :=
  if o.done ≠ 0 then none else match o.kind with
    | .gather n rb _ _ src => if n = 0 ∨ rb = 0 then none else some src.space
    | .scatter n rb _ dst _ => if n = 0 ∨ rb = 0 then none else some dst.space
    | _ => none

/-- The direct rows of an index list that has not been read: the packed side. -/
def EngineOp.packed (o : EngineOp) : List Seg :=
  if o.done ≠ 0 then [] else match o.kind with
    | .gather n rb _ dst _ => [{ dst with len := n * rb }]
    | .scatter n rb _ _ src => [{ src with len := n * rb }]
    | _ => []

/-- The bytes that words older than `rank` have emitted in a slot and that it has not written (10 R221). -/
def Slot.owes (x : Slot) (rank : Nat) : List Seg :=
  if x.emits then (x.now.win.filter fun w => decide (w.rank < rank)).map fun w =>
    { space := .vm, addr := x.now.base.toNat + w.off, len := 1 }
  else []

/-- What an X operation has yet to access, as ranges of the machine's homes. -/
def State.owesX (s : State) (c : CtxRef) (o : EngineOp) : List Seg :=
  (s.comingX c o).map (·.2) ++ o.packed.filter fun g => g.space.byAccess && g.len != 0

/-- The ranges of the machine's homes that older operations of a stream have yet to access: rows of X operations, emitted bytes that
their slot has not written, and the POSITION of an RCFLUSH (10 R221, R236). -/
def State.coming (s : State) (c : CtxRef) (st : Stream) (rank : Nat) : List Seg :=
  let x := s.ctx c
  match st with
  | .x => ((x.ops.filter fun o => o.st == .x && decide (o.id < rank)).map (s.owesX c)).flatten
  | .v => (x.slots.map fun p => p.2.owes rank).flatten ++
      x.ops.filterMap fun o => match o.kind with
        | .flush _ daddr _ => if o.id < rank ∧ o.phase ≠ .writing then some { space := .vm, addr := daddr.toNat + 12, len := 4 } else none
        | _ => none
  | _ => []

/-- The spaces in which older X operations may access any byte. -/
def State.comingAny (s : State) (c : CtxRef) (st : Stream) (rank : Nat) : List Space :=
  if st = .x then ((s.ctx c).ops.filter fun o => o.st == .x && decide (o.id < rank)).filterMap EngineOp.anywhere else []

/-- The parts of ranges that translate. -/
def State.partsOf (s : State) (c : CtxRef) (st : Stream) (l : List Seg) : List Part :=
  (l.map fun g => match g.space with
    | .vm => ((piecesOf g.addr g.len).map fun p => match s.vmParts c st .read 0 [p] with
      | .ok ps => ps
      | .error _ => []).flatten
    | .ss => ssParts c.cell g.addr g.len
    | _ => []).flatten

/-- Some piece of ranges does not translate: the fault that stops its operation comes first, and the access follows the repair. -/
def State.partsMiss (s : State) (c : CtxRef) (st : Stream) (l : List Seg) : Bool :=
  l.any fun g => g.space == .vm && (piecesOf g.addr g.len).any fun p => match s.vmParts c st .read 0 [p] with
    | .ok _ => false
    | .error _ => true

end Sys2Proof.Machine
end

