-- ==== Sys2Proof/Machine/Order.lean ====
section
/-!
DEFINITION. The memory machine: when an access may POST, PERFORM, ACK and READ, and what each step does (18 R342 to
R356). The continuation of a READ for the engines stands in Engine.lean.
-/
namespace Sys2Proof.Machine

/-! ## Homes -/

/-- The single copy at a home (R344). -/
def State.homeMem (s : State) : Home → Memory
  | .ss d => (s.die d).ss
  | .hbm => s.hbm
  | .host => s.hostMem
  | .peer => s.peerMem
  | .scratch n => Table.get s.scratch (Memory.blank 0) n

def State.modHome (s : State) (h : Home) (f : Memory → Memory) : State :=
  match h with
  | .ss d => s.modDie d fun x => { x with ss := f x.ss }
  | .hbm => { s with hbm := f s.hbm }
  | .host => { s with hostMem := f s.hostMem }
  | .peer => { s with peerMem := f s.peerMem }
  | .scratch n => { s with scratch := Table.modify s.scratch (Memory.blank 0) n f }

/-- Whether a home is visible to a class of an observer mask: bits 0 C, 1 X, 2 M, 3 P, 4 H (R343). -/
def visible (h : Home) (obs : BitVec 5) : Bool :=
  match h with
  | .ss _ => bitOf obs 0 || bitOf obs 1
  | .hbm => bitOf obs 0 || bitOf obs 1 || bitOf obs 3 || bitOf obs 4
  | .host => bitOf obs 0 || bitOf obs 1 || bitOf obs 4
  | .peer => bitOf obs 3
  | .scratch _ => bitOf obs 0 || bitOf obs 1 || bitOf obs 3 || bitOf obs 4

/-! ## Accesses -/

def Access.len (a : Access) : Nat := a.mask.length

def Access.isWrite (a : Access) : Bool := a.kind != .read

def Access.isRead (a : Access) : Bool := a.kind != .write

def Access.isAtomic (a : Access) : Bool := a.isRead && a.isWrite

/-- An access has had its ACK (a write) or its READ (a read or an atomic). -/
def Access.finished (a : Access) : Bool := if a.isRead then a.got else a.acked

/-- Whether an access takes part in the byte at an address of its home: masked-off bytes do not. -/
def Access.touches (b : Access) (addr : Nat) : Bool := decide (b.addr ≤ addr) && b.mask.getD (addr - b.addr) false

/-- Two accesses touch one byte. -/
def Access.meets (a b : Access) : Bool :=
  a.home == b.home && decide (a.addr < b.addr + b.len) && decide (b.addr < a.addr + a.len) &&
    (List.range a.len).any fun k => a.mask.getD k false && b.touches (a.addr + k)

/-- Program order of one agent: the rank of the word or operation, then the order of its own accesses (R342). -/
def Access.before (b a : Access) : Bool := decide (b.rank < a.rank) || b.rank == a.rank && decide (b.id < a.id)

/-- The earlier unfinished accesses of the same agent (R342). -/
def State.earlier (s : State) (a : Access) : List Access := s.accs.filter fun b => b.agent == a.agent && b.before a

/-- RC, SO and the shared store: the homes and kinds that acquire and release order (R352, R353). -/
def Access.ordered (a : Access) : Bool := a.page != .uo

/-- An acquire that has not had its READ holds later accesses it can see (R352). -/
def State.heldByAcquire (s : State) (a : Access) : Bool :=
  a.ordered && (s.earlier a).any fun b => b.acq && !b.got && visible a.home b.obs

/-- A release waits for earlier accesses that its observers can see (R353). -/
def State.heldByRelease (s : State) (a : Access) : Bool :=
  a.rel && (s.earlier a).any fun b => b.ordered && visible b.home a.obs && !b.finished

/-- Whether an access is one of the stream S of a context, or of its V and X agents (R354). -/
def Access.ofCtx (a : Access) (c : CtxRef) (scalar : Bool) : Bool :=
  match a.agent with
  | .stream c' st => c' == c && (st == .s) == scalar
  | _ => false

/-- A part of an access that is still to come shares a byte with an access. -/
def Access.meetsPart (a : Access) (p : Part) : Bool :=
  p.home == a.home && decide (p.addr < a.addr + a.len) && decide (a.addr < p.addr + p.len) &&
    (List.range p.len).any fun k => a.touches (p.addr + k)

/-- The parts that older operations of an access's agent have yet to access (R342). -/
def State.partsBefore (s : State) (a : Access) : List Part :=
  match a.agent with
  | .stream c st => s.partsOf c st (s.coming c st a.rank)
  | _ => []

/-- The spaces in which older operations of its agent may still access any byte. -/
def State.anyBefore (s : State) (a : Access) : List Space :=
  match a.agent with
  | .stream c st => s.comingAny c st a.rank
  | _ => []

/-- The space of a home, as operations name it. -/
def Home.space : Home → Space
  | .ss _ => .ss
  | _ => .vm

/-- An older operation has yet to access a byte of the access (R348, 16 R306). -/
def State.heldByComing (s : State) (a : Access) : Bool :=
  (s.partsBefore a).any a.meetsPart || (s.anyBefore a).contains a.home.space

/-- An older operation has yet to access an SO page, or may (R349). -/
def State.heldByComingSo (s : State) (a : Access) : Bool :=
  a.page == .so && ((s.partsBefore a).any (fun p => p.page == .so) || (s.anyBefore a).contains .vm)

/-- A mask sees a home that a page can have. -/
def seesPages (obs : BitVec 5) : Bool := obs &&& 0x1B#5 != 0#5

/-- Accesses that V and X operations of a context ranking below `rank` have yet to make, to a home that a mask sees (R354). Where a page
is not mapped yet, or an index list not read, any home may come (DEDUCED, log 95). -/
def State.engineComing (s : State) (c : CtxRef) (rank : Nat) (obs : BitVec 5) : Bool :=
  [Stream.v, .x].any fun st =>
    (s.partsOf c st (s.coming c st rank)).any (fun p => visible p.home obs) ||
      (seesPages obs && s.partsMiss c st (s.coming c st rank)) ||
      (s.comingAny c st rank).any fun sp =>
        if sp = .ss then visible (.ss (dieOf c.cell)) obs else sp == .vm && seesPages obs

/-- The kinds of a FENCE: 0 full, 1 load side, 2 store side, 3 engine (07 R166). The unfinished accesses it waits for, and under kind
3 those that older engine operations have yet to make. -/
def State.fenceWaits (s : State) (c : CtxRef) (f : Fence) : Bool :=
  s.accs.any (fun a =>
    decide (a.rank < f.rank) && !a.finished && visible a.home f.obs &&
    (a.ofCtx c true && (match f.kind with
      | 1 => a.isRead
      | 2 => a.isWrite
      | _ => true) ||
     f.kind == 3 && a.ofCtx c false)) ||
  f.kind == 3 && s.engineComing c f.rank f.obs

/-- A FENCE holds an access of its context (R354). -/
def State.heldByFence (s : State) (a : Access) : Bool :=
  match a.agent with
  | .stream c st =>
    (s.ctx c).fences.any fun f =>
      decide (f.rank < a.rank) && visible a.home f.obs &&
      (if st = .s then f.kind != 2 || a.isWrite else f.kind == 3) && s.fenceWaits c f
  | _ => false

/-- An access of an operation that the range checker or a cut still holds does not exist for the machine (14 R278). -/
def State.heldByChecker (s : State) (a : Access) : Bool :=
  match a.agent with
  | .stream c _ => (s.ctx c).ops.any fun o => o.id == a.rank && o.phase == .held
  | _ => false

/-- The bytes of earlier writes of the same agent that are issued and not acknowledged, newest first (R348). -/
def State.unackedWrites (s : State) (a : Access) : List Access :=
  ((s.earlier a).filter fun b => b.isWrite && !b.acked && b.meets a).reverse

/-- The byte that a write gives at a home address, if it writes it. -/
def Access.byteAt (b : Access) (addr : Nat) : Option (Byte × Bool) :=
  if b.addr ≤ addr ∧ b.mask.getD (addr - b.addr) false then some (b.data.getD (addr - b.addr) (0, false)) else none

/-- Forwarding: every byte of a read comes from an own write that is not acknowledged, and none of these is an atomic
(R348). -/
def State.forwarded (s : State) (a : Access) : Option (List (Byte × Bool)) :=
  let ws := s.unackedWrites a
  if a.kind ≠ .read ∨ a.acq ∨ ws.any Access.isAtomic then none
  else (List.range a.len).mapM fun k =>
    if a.mask.getD k false then ws.findSome? fun b => b.byteAt (a.addr + k) else some (0, false)

/-- The runs of home addresses that an access takes part in: all its bytes, or those that its mask names. -/
def Access.takesPart (a : Access) : List (Nat × Nat) :=
  if a.mask.all (fun b => b) then [(a.addr, a.len)] else ((List.range a.len).filter fun k => a.mask.getD k false).map fun k => (a.addr + k, 1)

/-- The cell of an access by a stream. -/
def Access.cell? (a : Access) : Option Nat :=
  match a.agent with
  | .stream c _ => some c.cell
  | _ => none

/-- A home whose lines a cell may hold: neither the host nor a shared store (R347). -/
def Home.cached : Home → Bool
  | .host => false
  | .ss _ => false
  | _ => true

/-- Whether an access may use the read cache: a plain S read of a UO or RC page, not host-homed, not the shared store
(R347). -/
def Access.cacheable (a : Access) : Bool :=
  a.kind == .read && !a.acq && a.page != .so && a.home.cached &&
    (match a.agent with
      | .stream _ st => st == .s
      | _ => false)

/-- A FENCE that holds the access drops the lines before the access goes on, and has not dropped them yet (R354); one that does not see
its home leaves a hit a hit. -/
def State.dropDue (s : State) (a : Access) : Bool :=
  match a.agent with
  | .stream c _ => (s.ctx c).fences.any fun f => f.kind != 2 && decide (f.rank < a.rank) && visible a.home f.obs
  | _ => false

/-- The read-cache line that holds the whole unit of an access (R347). -/
def State.lineOf (s : State) (a : Access) : Option CacheLine :=
  match a.cell? with
  | some n =>
    if a.cacheable && !s.dropDue a then (s.cell n).cache.find? fun l => l.home == a.home && l.unit == a.addr / 64 else none
  | none => none

/-- Drops read-cache lines of a cell. -/
def State.dropLines (s : State) (cell : Nat) (p : CacheLine → Bool) : State :=
  s.modCell cell fun c => { c with cache := c.cache.filter fun l => !p l }

/-- Nothing orders the access later (R349, R352, R353, R354, 14 R278). -/
def State.unheld (s : State) (a : Access) : Bool :=
  !s.heldByAcquire a && !s.heldByFence a && !s.heldByChecker a

/-- Two accesses to SO pages are ordered (R349, R361), and the parts of one access only where every part lies on an SO page (R345). -/
def Access.soPair (a b : Access) : Bool := a.page == .so && b.page == .so && !(a.mixed.isSome && a.mixed == b.mixed)

/-- POST is enabled (R344, R347 to R349, R353). -/
def State.canPost (s : State) (a : Access) : Bool :=
  !a.posted && !a.got && !a.failed && s.unheld a && !s.heldByRelease a && (s.forwarded a).isNone && (s.lineOf a).isNone &&
  (s.earlier a).all (fun b => !b.meets a || b.posted || b.got) && !s.heldByComing a &&
  (s.earlier a).all (fun b => !a.soPair b || b.finished) && !s.heldByComingSo a

/-- PERFORM is enabled (R344, R348); accesses of one agent to SO pages are PERFORMed in order (R349, R361). -/
def State.canPerform (s : State) (a : Access) : Bool :=
  a.posted && !a.performed &&
    (s.earlier a).all fun b => !(b.meets a || a.soPair b) || b.performed || b.got

/-! ## Steps -/

def Access.beyondPeer (a : Access) : Bool := Machine.beyondPeer a.home a.addr a.len

/-- The response of an access, or the access itself, was lost on a Giuth link, or the peer has refused it (27 R465, 17 R332). -/
def State.isLost (s : State) (a : Access) : Bool := s.hub.lost.any fun p => p.1 == a.id

def State.findAcc (s : State) (id : Nat) : Option Access := s.accs.find? fun a => a.id == id

def State.setAcc (s : State) (a : Access) : State := { s with accs := s.accs.map fun b => if b.id == a.id then a else b }

/-- An access that is finished leaves the machine. -/
def State.dropAcc (s : State) (id : Nat) : State := { s with accs := s.accs.filter fun b => !(b.id == id) }

/-- What an atomic writes: the function F over the old value at the access size (07 R163). -/
def amoValue (op : AmoOp) (size old b : Nat) : Nat :=
  let n := 8 * size
  let b := b % 2 ^ n
  match op with
  | .add => (old + b) % 2 ^ n
  | .and => (BitVec.ofNat 64 old &&& BitVec.ofNat 64 b).toNat
  | .or => (BitVec.ofNat 64 old ||| BitVec.ofNat 64 b).toNat
  | .xor => (BitVec.ofNat 64 old ^^^ BitVec.ofNat 64 b).toNat
  | .min => if signed n old ≤ signed n b then old else b
  | .max => if signed n b ≤ signed n old then old else b
  | .minu => min old b
  | .maxu => max old b
  | .swap => b
  | .fadd => (fp32.add 0 old b).1

/-- The new bytes of an atomic, or none where memory is not updated: a failed CAS, or a poisoned old value (07 R164,
R165). -/
def Access.atomicNew (a : Access) (old : List (Byte × Bool)) : Option Nat :=
  let v := ofBytes (old.map (·.1))
  if old.any (·.2) then none
  else match a.kind with
    | .amo op b => some (amoValue op a.len v b.toNat)
    | .cas e n => if v = e.toNat % 2 ^ (8 * a.len) then some (n.toNat % 2 ^ (8 * a.len)) else none
    | _ => none

/-- The bytes that a write stores, under its mask. -/
def Access.stored (a : Access) : List (Option (Byte × Bool)) :=
  (List.range a.len).map fun k => if a.mask.getD k false then some (a.data.getD k (0, false)) else none

/-- A shared-store access of a cell may be a read that is rebuilt, or one that waited for its bank (26 R450, counters 10 and 11). -/
def State.countBank (s : State) (a : Access) : State :=
  match a.home, a.cell? with
  | .ss _, some n => s.modCell n fun l =>
      (l.count 10 (a.isRead && Config.bankRebuilt n s.performs).toNat).count 11 (Config.bankWaits n s.performs).toNat
  | _, _ => s

/-- PERFORM at the home: a write stores, a read takes the present values, an atomic does both (R344, R356). A read finds the errors of
its units (14 R271). -/
def State.performAt (s0 : State) (a : Access) : State :=
  let s := (if a.isRead then a.takesPart.foldl (fun t r => t.eccHome a.home r.1 r.2 a.cell?) s0 else s0).countBank a
  let old := (s.homeMem a.home).readP a.addr a.len
  let n := s.performs + 1
  let s := { s with performs := n }
  let a := { a with stamp := n }
  match a.kind with
  | .write => (s.modHome a.home fun m => m.store a.addr a.stored).setAcc { a with performed := true }
  | .read =>
    let s := s.setAcc { a with performed := true, data := old }
    match a.cell? with
    | some n =>
      if a.cacheable then
        let line : CacheLine := { home := a.home, unit := a.addr / 64,
                                  bytes := (s.homeMem a.home).readP (a.addr / 64 * 64) 64, rc := a.page == .rc,
                                  stamps := List.replicate 64 a.stamp }
        s.modCell n fun c => { c with cache := (line :: c.cache.filter fun l => !(l.home == a.home && l.unit == a.addr / 64)).take 256 }
      else s
    | none => s
  | _ =>
    let s := match a.atomicNew old with
      | some v => s.modHome a.home fun m => m.store a.addr (cleanBytes (toBytes v a.len))
      | none => s
    s.setAcc { a with performed := true, data := old }

/-- POST (R344). -/
def execPost (acc : Nat) (s : State) : Host.Outcome State Fault Refusal :=
  .next (match s.findAcc acc with
    | some a => if s.canPost a then s.setAcc { a with posted := true } else s
    | none => s)

/-- A host access is complete with its PERFORM: a read gives its bytes, a poisoned unit as CXL poison (R361, 14 R272). -/
def State.hostDone (s : State) (a : Access) : State :=
  match a.agent, s.findAcc a.id with
  | .host, some b => (s.dropAcc a.id).modReplies fun r => if b.isRead then { r with reads := r.reads ++ [b.data] } else r
  | _, _ => s

/-- PERFORM (R344, R345). An access that the peer refuses comes back as a failed one, to be reported at once (17 R332). -/
def execPerform (acc : Nat) (s : State) : Host.Outcome State Fault Refusal :=
  .next (match s.findAcc acc with
    | some a =>
      if !s.canPerform a ∨ s.isLost a then s
      else if a.beyondPeer then s.modHub fun h => { h with lost := Table.set h.lost acc h.time }
      else (s.performAt a).hostDone a
    | none => s)

/-- A held line takes the bytes of an own write at its ACK (R347), but for those that it has from a later PERFORM: a line never goes
back to an older value (R351). -/
def CacheLine.update (l : CacheLine) (a : Access) : CacheLine :=
  let takes (k : Nat) : Bool := (a.byteAt (64 * l.unit + k)).isSome && decide (l.stamps.getD k 0 < a.stamp)
  if l.home == a.home && l.unit == a.addr / 64 then
    { l with
      bytes := (List.range 64).map fun k =>
        if takes k then (a.byteAt (64 * l.unit + k)).getD (0, false) else l.bytes.getD k (0, false)
      stamps := (List.range 64).map fun k => if takes k then a.stamp else l.stamps.getD k 0 }
  else l

/-- Fences whose waits are past leave; one of kind full, ld or eng drops the read cache (R354). -/
def State.settleFences (s : State) (c : CtxRef) : State :=
  let past := (s.ctx c).fences.filter fun f => !s.fenceWaits c f
  let s := s.modCtx c fun x => { x with fences := x.fences.filter fun f => !past.contains f }
  if past.any fun f => f.kind != 2 then s.dropLines c.cell fun _ => true else s

/-- Whether an operation is a scalar access to the shared store. -/
def OpKind.isScalar : OpKind → Bool
  | .scalar => true
  | _ => false

/-- Scalar operations of the record whose accesses are all finished leave it. -/
def State.settleScalar (s : State) (c : CtxRef) : State :=
  s.modCtx c fun x =>
    { x with ops := x.ops.filter fun o => !(o.kind.isScalar && s.accs.all fun a => !(a.rank == o.id)) }

/-- The record and the fences of an access's context are looked at again. -/
def State.settle (s : State) (a : Access) : State :=
  match a.agent with
  | .stream c _ => (s.settleScalar c).settleFences c
  | _ => s

/-- The acknowledgement of a write reaches its agent: a held line is updated, a peer has its answer (R344, R347, R361). -/
def State.ackAt (s : State) (a : Access) : State :=
  let s := match a.agent with
    | .stream c .s => s.modCell c.cell fun x => { x with cache := x.cache.map (CacheLine.update · a) }
    | .peerPkg p _ => s.modReplies fun r => { r with peers := r.peers ++ [(p, [])] }
    | _ => s
  (s.dropAcc a.id).settle a

/-- ACK (R344): an atomic has its ACK at its READ (R356). -/
def execAck (acc : Nat) (s : State) : Host.Outcome State Fault Refusal :=
  .next (match s.findAcc acc with
    | some a => if a.performed ∧ !a.isRead ∧ !s.isLost a then s.ackAt a else s
    | none => s)

/-- The value of a READ, where it is enabled: after PERFORM; by forwarding, whatever holds the read; or from a held line, once no
earlier access of the agent to its bytes is left. The reads of a byte come in program order (R344, R347, R348, R351). -/
def State.readValue (s : State) (a : Access) : Option (List (Byte × Bool)) :=
  if !a.isRead ∨ a.got ∨ s.isLost a ∨ (s.earlier a).any fun b => b.isRead && !b.got && b.meets a then none
  else if a.performed then some a.data
  else if a.posted ∨ s.heldByChecker a ∨ s.heldByComing a then none
  else match s.forwarded a with
    | some v => some v
    | none =>
      if s.unheld a && (s.earlier a).all (fun b => !b.meets a) then
        (s.lineOf a).map fun l => (List.range a.len).map fun k => l.bytes.getD (a.addr % 64 + k) (0, false)
      else none

/-- What a READ does to the read cache: an acquire drops the lines of RC pages, and an access that bypasses the cache drops
the line of its own unit, one of an SO page that a line holds by another page among them (R347, R351, R352). -/
def State.readDrops (s : State) (a : Access) : State :=
  match a.agent with
  | .stream c .s =>
    let s := if a.acq then s.dropLines c.cell fun l => l.rc else s
    if !a.cacheable then s.dropLines c.cell fun l => l.home == a.home && l.unit == a.addr / 64 else s
  | _ => s

/-- READ_CACHE_EVICT: any line may go at any time (R347). -/
def execReadCacheEvict (cell line : Nat) (s : State) : Host.Outcome State Fault Refusal :=
  .next (s.modCell cell fun c => { c with cache := c.cache.eraseIdx line })

/-! ## Issue of accesses -/

/-- The access of one part. -/
def partAccess (id rank : Nat) (agent : Agent) (kind : AccKind) (acq rel : Bool) (obs : BitVec 5)
    (sink : Nat → Sink) (data : Nat → Byte × Bool) (mask : Nat → Bool) (p : Part) : Access :=
  { id := id, agent := agent, kind := kind, home := p.home, addr := p.addr, va := p.va,
    data := (List.range p.len).map fun k => data (p.pos + k), mask := (List.range p.len).map fun k => mask (p.pos + k),
    page := p.page, acq := acq, rel := rel, obs := obs, sink := sink p.pos, rank := rank, span := p.span,
    posted := false, performed := false, acked := false, got := false }

/-- ISSUE of parts, one by one (R344); `mixed` numbers an access that has a part on a page that is not SO. -/
def State.issueEach (s : State) (mixed : Option Nat) (rank : Nat) (agent : Agent) (kind : AccKind) (acq rel : Bool) (obs : BitVec 5)
    (sink : Nat → Sink) (data : Nat → Byte × Bool) (mask : Nat → Bool) : List Part → State
  | [] => s
  | p :: ps =>
    let a := { partAccess s.nextId rank agent kind acq rel obs sink data mask p with mixed := mixed }
    ({ s with nextId := s.nextId + 1, accs := s.accs ++ [a] }).issueEach mixed rank agent kind acq rel obs sink data mask ps

/-- ISSUE of the parts of an access (R344). -/
def State.issueParts (s : State) (rank : Nat) (agent : Agent) (kind : AccKind) (acq rel : Bool) (obs : BitVec 5)
    (sink : Nat → Sink) (data : Nat → Byte × Bool) (mask : Nat → Bool) (ps : List Part) : State :=
  s.issueEach (if ps.any fun p => p.page != .so then some s.nextId else none) rank agent kind acq rel obs sink data mask ps

/-! ## Poison at the agent (07 R162, 14 R273) -/

/-- The poisoned 64-bit units among bytes at an address. -/
def badUnits (addr : Nat) (l : List (Byte × Bool)) : List Nat :=
  (((List.range l.length).filter fun k => (l.getD k (0, false)).2).map fun k => (addr + k) / 8 * 8).eraseDups

end Sys2Proof.Machine
end

