-- ==== Sys2Proof/Machine/Scalar.lean ====
section
/-!
DEFINITION. The S stream: integer arithmetic, immediates, compares, predicate logic, branches and jumps (07 R144 to R156).
-/
namespace Sys2Proof.Machine

/-! ## Shared operations -/

/-- A register-register word: reads A then B, pushes the result after `lat` cycles (R144, R146). -/
def alu (o : SR) (lat : Nat) (f : Word → Word → Word) (s : State) : Host.Outcome State Fault Refusal :=
  word o.g (do
    let (a, b) ← read2 (sRef o.a) o.ka (sRef o.b) o.kb
    pushLat (sRef o.d) (wide (f a b)) lat
    outwardQs [sRef o.a, sRef o.b, sRef o.d]) s

/-- A word with one register operand (R146: CLZ, CTZ, POPC). -/
def alu1 (o : SR) (f : Word → Word) (s : State) : Host.Outcome State Fault Refusal :=
  word o.g (do
    let a ← read1 (sRef o.a) o.ka
    pushLat (sRef o.d) (wide (f a)) 1
    outwardQs [sRef o.a, sRef o.d]) s

/-- A word with an immediate (R149). -/
def aluImm (o : SI) (lat : Nat) (f : Word → Word → Word) (s : State) : Host.Outcome State Fault Refusal :=
  word o.g (do
    let a ← read1 (sRef o.a) o.ka
    pushLat (sRef o.d) (wide (f a (sext64 o.imm))) lat
    outwardQs [sRef o.a, sRef o.d]) s

/-- A constant (R150). -/
def constant (o : SL) (v : Word) (s : State) : Host.Outcome State Fault Refusal :=
  word o.g (do
    pushLat (sRef o.d) (wide v) 1
    outwardQs [sRef o.d]) s

/-- A divide: 24 cycles; a zero divisor sets `STATUS.DZ` as the word issues (R147). -/
def divide (o : SR) (f : Word → Word → Word) (s : State) : Host.Outcome State Fault Refusal :=
  word o.g (do
    let (a, b) ← read2 (sRef o.a) o.ka (sRef o.b) o.kb
    pushLat (sRef o.d) (wide (f a b)) 24
    outwardQs [sRef o.a, sRef o.b, sRef o.d]
    if b = 0 then setDz else pure ()) s

/-- Writes a predicate after one cycle (R151, R152). -/
def writePred (n : Nat) (b : Bool) : Act Unit := do
  let _ ← launchFlight (.pred n) (some (BitVec.ofNat 2048 b.toNat)) (some 1)
  pure ()

/-- A compare (R151). -/
def compare (o : SR) (f : Word → Word → Bool) (s : State) : Host.Outcome State Fault Refusal :=
  word o.g (do
    let (a, b) ← read2 (sRef o.a) o.ka (sRef o.b) o.kb
    outwardQs [sRef o.a, sRef o.b]
    writePred (o.d.toNat % 8) (f a b)) s

/-- Predicate logic (R152). A source whose write is pending interlocks (04 R99). -/
def predLogic (o : SR) (f : Bool → Bool → Bool) (s : State) : Host.Outcome State Fault Refusal :=
  word o.g (do
    predReady (o.a.toNat % 8)
    predReady (o.b.toNat % 8)
    let c ← cx
    writePred (o.d.toNat % 8) (f (c.pred (o.a.toNat % 8)) (c.pred (o.b.toNat % 8)))) s

/-- A taken branch in an active modulo body traps LOOPERR (08 R186). -/
def branchAllowed : Act Unit := do
  let c ← cx
  let pc ← curPc
  trapIf (c.liiAct && within pc c.ss.ls0 c.ss.le0) .looperr pc

/-- A taken branch. -/
def take (target : Word) : Act Flow := do
  branchAllowed
  pure (.jump target)

/-- The quotient truncated toward zero (R147). -/
def sdiv (a b : Word) : Word :=
  if b = 0 then BitVec.allOnes 64 else BitVec.ofInt 64 (a.toInt.tdiv b.toInt)

def udiv (a b : Word) : Word := if b = 0 then BitVec.allOnes 64 else BitVec.ofNat 64 (a.toNat / b.toNat)

/-- The remainder with the sign of the dividend (R147). -/
def srem (a b : Word) : Word := if b = 0 then a else BitVec.ofInt 64 (a.toInt.tmod b.toInt)

def urem (a b : Word) : Word := if b = 0 then a else BitVec.ofNat 64 (a.toNat % b.toNat)

/-- Bits [127:64] of the signed product (R146). -/
def mulhS (a b : Word) : Word := BitVec.ofInt 64 (a.toInt * b.toInt / 2 ^ 64)

def mulhU (a b : Word) : Word := BitVec.ofNat 64 (a.toNat * b.toNat / 2 ^ 64)

/-- Leading zeros among the lowest n bits, from bit n − 1 downward. -/
def clzFrom (x : Nat) : Nat → Nat
  | 0 => 0
  | n + 1 => if x / 2 ^ n % 2 = 1 then 0 else 1 + clzFrom x n

/-- Trailing zeros of the lowest n bits. -/
def ctzFrom (x : Nat) : Nat → Nat
  | 0 => 0
  | n + 1 => if x % 2 = 1 then 0 else 1 + ctzFrom (x / 2) n

/-- Set bits among the lowest n bits. -/
def popFrom (x : Nat) : Nat → Nat
  | 0 => 0
  | n + 1 => x % 2 + popFrom (x / 2) n

def bool64 (b : Bool) : Word := BitVec.ofNat 64 b.toNat

/-- A 32-bit result sign-extended (R146: ADDW, SUBW). -/
def sext32 (x : Word) : Word := sext64 (x.setWidth 32)

/-! ## ALU and ALU2 (R146 to R148) -/

/-- ADD (R146). -/
def execAdd (o : SR) (s : State) : Host.Outcome State Fault Refusal := alu o 1 (fun a b => a + b) s

/-- SUB (R146). -/
def execSub (o : SR) (s : State) : Host.Outcome State Fault Refusal := alu o 1 (fun a b => a - b) s

/-- AND (R146). -/
def execAnd (o : SR) (s : State) : Host.Outcome State Fault Refusal := alu o 1 (fun a b => a &&& b) s

/-- OR (R146). -/
def execOr (o : SR) (s : State) : Host.Outcome State Fault Refusal := alu o 1 (fun a b => a ||| b) s

/-- XOR (R146). -/
def execXor (o : SR) (s : State) : Host.Outcome State Fault Refusal := alu o 1 (fun a b => a ^^^ b) s

/-- ANDN (R146). -/
def execAndn (o : SR) (s : State) : Host.Outcome State Fault Refusal := alu o 1 (fun a b => a &&& ~~~b) s

/-- SHL (R146). -/
def execShl (o : SR) (s : State) : Host.Outcome State Fault Refusal := alu o 1 (fun a b => a <<< (b.toNat % 64)) s

/-- SHR (R146). -/
def execShr (o : SR) (s : State) : Host.Outcome State Fault Refusal := alu o 1 (fun a b => a >>> (b.toNat % 64)) s

/-- SRA (R146). -/
def execSra (o : SR) (s : State) : Host.Outcome State Fault Refusal := alu o 1 (fun a b => a.sshiftRight (b.toNat % 64)) s

/-- MIN (R146). -/
def execMin (o : SR) (s : State) : Host.Outcome State Fault Refusal := alu o 1 (fun a b => if a.sle b then a else b) s

/-- MAX (R146). -/
def execMax (o : SR) (s : State) : Host.Outcome State Fault Refusal := alu o 1 (fun a b => if b.sle a then a else b) s

/-- MINU (R146). -/
def execMinu (o : SR) (s : State) : Host.Outcome State Fault Refusal := alu o 1 (fun a b => if a ≤ b then a else b) s

/-- MAXU (R146). -/
def execMaxu (o : SR) (s : State) : Host.Outcome State Fault Refusal := alu o 1 (fun a b => if b ≤ a then a else b) s

/-- SEQ (R146). -/
def execSeq (o : SR) (s : State) : Host.Outcome State Fault Refusal := alu o 1 (fun a b => bool64 (a == b)) s

/-- SLT (R146). -/
def execSlt (o : SR) (s : State) : Host.Outcome State Fault Refusal := alu o 1 (fun a b => bool64 (a.slt b)) s

/-- SLTU (R146). -/
def execSltu (o : SR) (s : State) : Host.Outcome State Fault Refusal := alu o 1 (fun a b => bool64 (a.ult b)) s

/-- MUL (R146, 3 cycles). -/
def execMul (o : SR) (s : State) : Host.Outcome State Fault Refusal := alu o 3 (fun a b => a * b) s

/-- MULH (R146, 3 cycles). -/
def execMulh (o : SR) (s : State) : Host.Outcome State Fault Refusal := alu o 3 (fun a b => mulhS a b) s

/-- MULHU (R146, 3 cycles). -/
def execMulhu (o : SR) (s : State) : Host.Outcome State Fault Refusal := alu o 3 (fun a b => mulhU a b) s

/-- DIV (R147). -/
def execDiv (o : SR) (s : State) : Host.Outcome State Fault Refusal := divide o sdiv s

/-- DIVU (R147). -/
def execDivu (o : SR) (s : State) : Host.Outcome State Fault Refusal := divide o udiv s

/-- REM (R147). -/
def execRem (o : SR) (s : State) : Host.Outcome State Fault Refusal := divide o srem s

/-- REMU (R147). -/
def execRemu (o : SR) (s : State) : Host.Outcome State Fault Refusal := divide o urem s

/-- CLZ (R146). -/
def execClz (o : SR) (s : State) : Host.Outcome State Fault Refusal := alu1 o (fun a => BitVec.ofNat 64 (clzFrom a.toNat 64)) s

/-- CTZ (R146). -/
def execCtz (o : SR) (s : State) : Host.Outcome State Fault Refusal := alu1 o (fun a => BitVec.ofNat 64 (ctzFrom a.toNat 64)) s

/-- POPC (R146). -/
def execPopc (o : SR) (s : State) : Host.Outcome State Fault Refusal := alu1 o (fun a => BitVec.ofNat 64 (popFrom a.toNat 64)) s

/-- ROL (R146). -/
def execRol (o : SR) (s : State) : Host.Outcome State Fault Refusal := alu o 1 (fun a b => a.rotateLeft (b.toNat % 64)) s

/-- ROR (R146). -/
def execRor (o : SR) (s : State) : Host.Outcome State Fault Refusal := alu o 1 (fun a b => a.rotateRight (b.toNat % 64)) s

/-- ADDW (R146). -/
def execAddw (o : SR) (s : State) : Host.Outcome State Fault Refusal := alu o 1 (fun a b => sext32 (a + b)) s

/-- SUBW (R146). -/
def execSubw (o : SR) (s : State) : Host.Outcome State Fault Refusal := alu o 1 (fun a b => sext32 (a - b)) s

/-- SEL (R148): G selects, it does not guard; both operands are read. -/
def execSel (o : SR) (s : State) : Host.Outcome State Fault Refusal :=
  plain (do
    predReady o.g.toNat
    let (a, b) ← read2 (sRef o.a) o.ka (sRef o.b) o.kb
    let c ← cx
    pushLat (sRef o.d) (wide (if c.cond o.g.toNat then a else b)) 1
    outwardQs [sRef o.a, sRef o.b, sRef o.d]) s

/-! ## Compares and predicate logic (R151, R152) -/

/-- CMP.EQ (R151). -/
def execCmpEq (o : SR) (s : State) : Host.Outcome State Fault Refusal := compare o (fun a b => a == b) s

/-- CMP.NE (R151). -/
def execCmpNe (o : SR) (s : State) : Host.Outcome State Fault Refusal := compare o (fun a b => a != b) s

/-- CMP.LT (R151). -/
def execCmpLt (o : SR) (s : State) : Host.Outcome State Fault Refusal := compare o (fun a b => a.slt b) s

/-- CMP.GE (R151). -/
def execCmpGe (o : SR) (s : State) : Host.Outcome State Fault Refusal := compare o (fun a b => b.sle a) s

/-- CMP.LTU (R151). -/
def execCmpLtu (o : SR) (s : State) : Host.Outcome State Fault Refusal := compare o (fun a b => a.ult b) s

/-- CMP.GEU (R151). -/
def execCmpGeu (o : SR) (s : State) : Host.Outcome State Fault Refusal := compare o (fun a b => b.ule a) s

/-- PAND (R152). -/
def execPand (o : SR) (s : State) : Host.Outcome State Fault Refusal := predLogic o (fun a b => a && b) s

/-- POR (R152). -/
def execPor (o : SR) (s : State) : Host.Outcome State Fault Refusal := predLogic o (fun a b => a || b) s

/-- PXOR (R152). -/
def execPxor (o : SR) (s : State) : Host.Outcome State Fault Refusal := predLogic o (fun a b => a != b) s

/-- PANDN (R152). -/
def execPandn (o : SR) (s : State) : Host.Outcome State Fault Refusal := predLogic o (fun a b => a && !b) s

/-- PNOT (R152). -/
def execPnot (o : SR) (s : State) : Host.Outcome State Fault Refusal := predLogic o (fun a _ => !a) s

/-- PSET (R152). -/
def execPset (o : SR) (s : State) : Host.Outcome State Fault Refusal := predLogic o (fun _ _ => true) s

/-- PCLR (R152). -/
def execPclr (o : SR) (s : State) : Host.Outcome State Fault Refusal := predLogic o (fun _ _ => false) s

/-! ## Immediates and constants (R149, R150) -/

/-- ADDI (R149). -/
def execAddi (o : SI) (s : State) : Host.Outcome State Fault Refusal := aluImm o 1 (fun a i => a + i) s

/-- ANDI (R149). -/
def execAndi (o : SI) (s : State) : Host.Outcome State Fault Refusal := aluImm o 1 (fun a i => a &&& i) s

/-- ORI (R149). -/
def execOri (o : SI) (s : State) : Host.Outcome State Fault Refusal := aluImm o 1 (fun a i => a ||| i) s

/-- XORI (R149). -/
def execXori (o : SI) (s : State) : Host.Outcome State Fault Refusal := aluImm o 1 (fun a i => a ^^^ i) s

/-- SHLI (R149). -/
def execShli (o : SI) (s : State) : Host.Outcome State Fault Refusal := aluImm o 1 (fun a i => a <<< (i.toNat % 64)) s

/-- SHRI (R149). -/
def execShri (o : SI) (s : State) : Host.Outcome State Fault Refusal := aluImm o 1 (fun a i => a >>> (i.toNat % 64)) s

/-- SRAI (R149). -/
def execSrai (o : SI) (s : State) : Host.Outcome State Fault Refusal := aluImm o 1 (fun a i => a.sshiftRight (i.toNat % 64)) s

/-- SLTI (R149). -/
def execSlti (o : SI) (s : State) : Host.Outcome State Fault Refusal := aluImm o 1 (fun a i => bool64 (a.slt i)) s

/-- MULI (R149). -/
def execMuli (o : SI) (s : State) : Host.Outcome State Fault Refusal := aluImm o 3 (fun a i => a * i) s

/-- LI (R150). -/
def execLi (o : SL) (s : State) : Host.Outcome State Fault Refusal := constant o (sext64 o.imm) s

/-- LIL (R150). -/
def execLil (o : SL) (s : State) : Host.Outcome State Fault Refusal := constant o (zext64 o.imm) s

/-- LIW (R150). -/
def execLiw (o : SL) (s : State) : Host.Outcome State Fault Refusal := constant o (zext64 o.imm <<< 32) s

/-- LIX (R150). -/
def execLix (o : SL) (s : State) : Host.Outcome State Fault Refusal := constant o (zext64 o.imm <<< 48) s

/-! ## Branches and jumps (R153 to R156) -/

/-- BR: always taken (R153). -/
def execBr (o : SB) (s : State) : Host.Outcome State Fault Refusal :=
  finish 1 false (do
    let pc ← curPc
    take (branchTarget pc o.off)) s

/-- BP: taken when the predicate that G names is 1 (R153). -/
def execBp (o : SB) (s : State) : Host.Outcome State Fault Refusal :=
  finish 1 false (do
    predReady o.g.toNat
    let c ← cx
    let pc ← curPc
    if c.cond o.g.toNat then take (branchTarget pc o.off) else pure .seq) s

/-- BNP: taken when the predicate that G names is 0 (R153). -/
def execBnp (o : SB) (s : State) : Host.Outcome State Fault Refusal :=
  finish 1 false (do
    predReady o.g.toNat
    let c ← cx
    let pc ← curPc
    if c.cond o.g.toNat then pure .seq else take (branchTarget pc o.off)) s

/-- CALL: pushes PC + 4 to s23 and is taken; it disarms no level (R153, 08 R181). -/
def execCall (o : SB) (s : State) : Host.Outcome State Fault Refusal :=
  finish 1 true (guarded o.g (do
    let pc ← curPc
    checkPush (.loc 23)
    branchAllowed
    pushLat (.loc 23) (wide (pc + 4)) 1
    pure (.jump (branchTarget pc o.off)))) s

/-- BZ and BNZ: the operand decides (R154). -/
def branchOn (o : SBZ) (zero : Bool) (s : State) : Host.Outcome State Fault Refusal :=
  finish 1 false (do
    let a ← read1 (sRef o.a) o.ka
    outwardQs [sRef o.a]
    let pc ← curPc
    if (a == 0) == zero then take (branchTarget pc o.off) else pure .seq) s

/-- BZ (R154). -/
def execBz (o : SBZ) (s : State) : Host.Outcome State Fault Refusal := branchOn o true s

/-- BNZ (R154). -/
def execBnz (o : SBZ) (s : State) : Host.Outcome State Fault Refusal := branchOn o false s

/-- JR: a target that is not a multiple of 4 traps ALIGN; one above 55 bits faults at its fetch (R155, R156). -/
def execJr (o : SR) (s : State) : Host.Outcome State Fault Refusal :=
  finish 1 false (guarded o.g (do
    let a ← read1 (sRef o.a) o.ka
    trapIf (bits a 0 2 != 0) .align a
    outwardQs [sRef o.a]
    take a)) s

/-- JRL: also pushes PC + 4; it disarms no level (R155, 08 R181). -/
def execJrl (o : SR) (s : State) : Host.Outcome State Fault Refusal :=
  finish 1 true (guarded o.g (do
    let a ← read1 (sRef o.a) o.ka
    checkPush (sRef o.d)
    trapIf (bits a 0 2 != 0) .align a
    outwardQs [sRef o.a, sRef o.d]
    branchAllowed
    let pc ← curPc
    pushLat (sRef o.d) (wide (pc + 4)) 1
    pure (.jump a))) s

end Sys2Proof.Machine
end

