-- ==== Sys2Proof/Machine/Checker.lean ====
section
/-!
DEFINITION. The range checker and the record of engine operations: conflicts, the paths of the M engine, starting an
operation, recording a new one, and the poison it consumes (14 R273, R277 to R279, 15 R284, 16 R304).
-/
namespace Sys2Proof.Machine

/-! ## Conflicts (R277, R278) -/

/-- The parts of the M engine (15 R284): load 0, array 1, output 2. -/
def OpKind.path : OpKind → Option Nat
  | .mldw .. => some 0
  | .mswap .. => some 1
  | .mzero => some 1
  | .mstr .. => some 1
  | .mwin .. => some 1
  | .mkat .. => some 1
  | .mout .. => some 2
  | _ => none

def OpKind.isMldw : OpKind → Bool
  | .mldw .. => true
  | _ => false

def OpKind.isMswap : OpKind → Bool
  | .mswap .. => true
  | _ => false

def OpKind.isMkat : OpKind → Bool
  | .mkat .. => true
  | _ => false

/-- MSTR and MWIN stream against a plane. -/
def OpKind.streams : OpKind → Bool
  | .mstr .. => true
  | .mwin .. => true
  | _ => false

/-- Two operations conflict: ranges overlap and one of them writes (R278). -/
def EngineOp.conflicts (a b : EngineOp) : Bool :=
  a.writes.any (fun w => (b.reads ++ b.writes).any (Seg.meets w)) || b.writes.any fun w => a.reads.any (Seg.meets w)

/-- The plane rules between an older and a newer M operation (R284). -/
def EngineOp.planeHolds (pair : Bool) (older newer : EngineOp) : Bool :=
  match older.kind.path, newer.kind.path with
  | some p, some q =>
    p == q ||
    newer.kind.isMldw && (older.kind.isMswap || older.kind.isMkat || pair && older.kind.streams) ||
    newer.kind.isMswap && older.kind.isMldw
  | _, _ => false

/-- Whether an operation waits for an older unfinished one (R278, R284). -/
def Ctx.blocked (c : Ctx) (pair : Bool) (o : EngineOp) : Bool :=
  c.ops.any fun p => decide (p.id < o.id) && (p.conflicts o || p.planeHolds pair o)

/-- A cut, a handler or a system cause that waits for firmware holds operations that have not started (12 R246, R247). The
handler's own scalar accesses go on. -/
def Ctx.holdsOps (c : Ctx) : Bool :=
  c.hnd || c.cut.isSome || c.hold == .firmware || c.hold == .failed

/-- Whether a held operation may start. -/
def Ctx.mayStart (c : Ctx) (pair : Bool) (o : EngineOp) : Bool :=
  (o.kind.isScalar || !c.holdsOps) && !c.blocked pair o

/-! ## The record -/

/-- Whether an operation stands in the range checker's record (R277). -/
def EngineOp.recorded (o : EngineOp) : Bool :=
  o.st == .m || o.st == .x || (o.reads ++ o.writes).any fun g => g.space != .vm

/-- The span of two ranges of one space. -/
def Seg.span (a b : Seg) : Seg :=
  { a with addr := min a.addr b.addr, len := max (a.addr + a.len) (b.addr + b.len) - min a.addr b.addr }

/-- One range for each space: the span from the lowest to the highest byte (R277). -/
def spanSegs : List Seg → List Seg
  | [] => []
  | g :: r =>
    let l := spanSegs r
    match l.find? fun h => h.space == g.space with
    | some h => g.span h :: l.filter fun h => h.space != g.space
    | none => g :: l

/-- A full record makes a new operation wait (R277); a context has at most 16 unfinished X operations (16 R304). -/
def recordFree (o : EngineOp) : Act Unit := do
  let c ← cx
  waitIf (o.recorded && decide (32 ≤ (c.ops.filter EngineOp.recorded).length)) .full
  waitIf (o.st == .x && decide (16 ≤ (c.ops.filter fun p => p.st == .x).length)) .full

/-- A new operation, recorded with one range for each space that it reads and that it writes (R277). It starts at once where no older
one holds it, but an X operation starts by its own event. -/
def newOp (kind : OpKind) (reads writes : List Seg) (parts : List Part) : Act Nat := do
  let c ← cx
  let st ← curStream
  let cell ← curCell
  let id ← freshId
  let o : EngineOp := { id := id, st := st, kind := kind, reads := spanSegs reads, writes := spanSegs writes, phase := .held,
                        parts := parts, buf := [], done := 0, pos := 0, pending := none, owed := none, lost := [], it := none,
                        pc := (c.str st).pc }
  recordFree o
  (fun s => .ok ((), s.modCtx s.cur fun x =>
    { x with ops := x.ops ++ [{ o with it := s.curIt, phase := if o.st != Stream.x && c.mayStart cell.pair o then .reading else .held }] }))
  pure id

/-- The operation of a number. -/
def Ctx.op (c : Ctx) (id : Nat) : Option EngineOp := c.ops.find? fun o => o.id == id

def Ctx.setOp (c : Ctx) (o : EngineOp) : Ctx := { c with ops := c.ops.map fun p => if p.id == o.id then o else p }

def Ctx.dropOp (c : Ctx) (id : Nat) : Ctx := { c with ops := c.ops.filter fun o => !(o.id == id) }

/-- An operation leaves the record, and fences that waited for it are looked at again. -/
def State.endOp (s : State) (c : CtxRef) (id : Nat) : State := (s.modCtx c fun x => x.dropOp id).settleFences c

/-- Bytes that an access has read stand in the buffer of its operation. -/
def State.bufTakes (s : State) (c : CtxRef) (op pos : Nat) (l : List (Byte × Bool)) : State :=
  match (s.ctx c).op op with
  | some o => s.modCtx c fun x =>
      x.setOp { o with buf := (List.range l.length).foldl (fun t k => Table.set t (pos + k) (l.getD k (0, false))) o.buf }
  | none => s

/-- A range of a space, or none where it is empty. -/
def seg (sp : Space) (addr len : Nat) : List Seg := if len = 0 then [] else [{ space := sp, addr := addr, len := len }]

/-! ## Poison (R273) -/

/-- The highest of a list of units. -/
def topUnit (l : List Nat) : Nat := l.foldl max 0

/-- The trap of a word on the units that it would consume: on the highest of the last space that has one (R273). -/
def State.poisonTrapOn (s : State) (units : List (Space × List Nat)) : Option Trap :=
  ((units.filter fun p => !p.2.isEmpty).getLast?).map fun p =>
    { cause := .poison, addr := BitVec.ofNat 64 (topUnit p.2), st := s.curSt, async := false }

/-- The rollback that a context has detected in the present cycle: of the lowest iteration (08 R189). -/
def Ctx.noteRollback (c : Ctx) (i : Nat) : Ctx := { c with rbNow := some (min i (c.rbNow.getD i)) }

/-- Poison that a word consumes in the step in which it issues, in ranges that it has read. Inside a rollback-eligible loop its iteration
rolls back at the end of the cycle (08 R189); else POISONMODE decides: POISON before the instruction, or ZERO. The units are logged
and counted in each case. The answer says that the word is discarded. -/
def consumeNow (sp : Space) (units : List Nat) : Act Bool := fun s =>
  let all := [(sp, units)]
  let logged := s.modCtx s.cur fun x => x.logUnits s.curSt all s.nextId
  match s.poisonTrapOn all, (s.ctx s.cur).rollsBack s.curIt with
  | none, _ => .ok (false, s)
  | some _, some i => .ok (true, logged.modCtx s.cur fun x => x.noteRollback i)
  | some t, none =>
    if (s.ctx s.cur).poisonTrap then .error (.poison t { units := all, reads := [] }) else .ok (false, logged)

/-- The access that a reader of one part would make now. -/
def State.probe (s : State) (ag : Agent) (kind : AccKind) (acq rel : Bool) (obs : BitVec 5) (mask : Nat → Bool) (p : Part) : Access :=
  partAccess s.nextId s.nextId ag kind acq rel obs (fun _ => .none) (fun _ => (0, false)) mask p

/-- The bytes that an access takes among those of its range: the rest carries no mark. -/
def Access.takes (a : Access) (l : List (Byte × Bool)) : List (Byte × Bool) :=
  (List.range l.length).map fun k => ((l.getD k (0, false)).1, (l.getD k (0, false)).2 && a.mask.getD k false)

/-- How a read that takes its bytes in the step of its issue gets them: something that it is ordered behind is left; or the bytes are
given, by forwarding or by a held line; or they stand at its home (18 R344, R347, R348). -/
inductive Route where
  | held
  | given (v : List (Byte × Bool))
  | home
  deriving DecidableEq, Repr, Inhabited

/-- The route of a read or an atomic: at its home where POST, PERFORM and READ are all enabled. -/
def State.route (s : State) (a : Access) : Route :=
  match s.readValue a with
  | some v => .given v
  | none =>
    if s.canPost a && s.canPerform { a with posted := true } && (s.readValue { a with posted := true, performed := true }).isSome then .home
    else .held

/-- The bytes that an access would read now. -/
def State.valueNow (s : State) (a : Access) : List (Byte × Bool) :=
  match s.route a with
  | .given v => v
  | _ => (s.homeMem a.home).readP a.addr a.len

/-- An operation that reads and writes these ranges conflicts with no older one of the record (14 R278). -/
def Ctx.rangesFree (c : Ctx) (reads writes : List Seg) : Bool :=
  c.ops.all fun p => !p.writes.any (fun w => (reads ++ writes).any (Seg.meets w)) && !p.reads.any fun g => writes.any (Seg.meets g)

/-- One access of S takes the steps that are left to it, where they are enabled: POST, PERFORM, ACK. A read stays for its READ. -/
def State.pushOn (s : State) (a : Access) : State :=
  let s := if s.canPost a then s.setAcc { a with posted := true } else s
  match s.findAcc a.id with
  | none => s
  | some b =>
    let s := if s.canPerform b then s.performAt b else s
    match s.findAcc a.id with
    | none => s
    | some b => if b.performed ∧ !b.isRead ∧ !s.isLost b then s.ackAt b else s

/-- The stores of S to the shared store that stand before a word of V are completed, where the rules let them: a store and a load of one
bundle are ordered by their slots, and the load must know what it reads (14 R278, log 13). -/
def State.pushStores (s : State) (segs : List Seg) : State :=
  (s.accs.filter fun a => a.ofCtx s.cur true && a.kind == .write && segs.any fun g =>
    g.space == .ss && a.home == .ss (dieOf s.cur.cell) && decide (a.addr < g.addr + g.len) && decide (g.addr < a.addr + a.len)).foldl
      State.pushOn s

/-- A word that consumes poison must trap before anything of it is performed (R273): under TRAP it reads all its bytes in the step in
which it issues (DEDUCED, log 13); but for a word one of whose accesses a peer refuses, whose data never come (17 R332). -/
def Ctx.readsNow (c : Ctx) (probes : List Access) : Bool := c.poisonTrap && !probes.any Access.beyondPeer

/-- The ranges of memories with ECC that a word would read at once: the homes of its accesses, and its ranges of the typed buffers. -/
def State.readsOf (s : State) (probes : List Access) (segs : List Seg) : List (MemRef × Nat × Nat) :=
  ((probes.filter fun a => s.route a == .home).map fun a => match a.home.memRef with
    | some m => a.takesPart.map fun r => (m, r.1, r.2)
    | none => []).flatten ++ s.segReads s.cur segs

/-- The poisoned units that a word would read: by its accesses, and in its ranges of the typed buffers, space by space. The errors that its
reads find count among them. -/
def State.unitsNow (s : State) (sp : Space) (probes : List Access) (segs : List Seg) : List (Space × List Nat) :=
  let t := s.findsAt s.cur.cell (s.readsOf probes segs)
  let of_ (b : Space) : List Nat :=
    ((segs.filter fun g => g.space == b).map fun g => badUnits g.addr (t.bufRead t.cur b g.addr g.len)).flatten.eraseDups
  [(sp, (probes.map fun a => badUnits a.va.toNat (a.takes (t.valueNow a))).flatten.eraseDups), (.ab, of_ .ab), (.cb, of_ .cb)]

/-- The precise POISON of a word under TRAP (07 R162, 09 R214, R273): the word waits until everything it is ordered behind is done, and
traps on the poisoned units that it would read, unless its iteration rolls back (08 R189). `probes` are its accesses, `segs` the ranges of
the typed buffers that it reads, `reads` and `writes` what the range checker records for it. The answer says whether the word takes its
bytes at once. -/
def poisonAtIssue (sp : Space) (probes : List Access) (segs reads writes : List Seg) : Act Bool := fun s0 =>
  if (s0.ctx s0.cur).readsNow probes then
    let s := if s0.curSt = .v then s0.pushStores reads else s0
    if probes.any (fun a => s.route a == .held) || !(s.ctx s.cur).rangesFree reads writes then stall .other s
    else
      let units := s.unitsNow sp probes segs
      match s.poisonTrapOn units, (s.ctx s.cur).rollsBack s.curIt with
      | some t, none => .error (.poison t { units := units, reads := s.readsOf probes segs })
      | _, _ => .ok (true, s)
  else .ok (false, s0)

/-- Poison that arrives with data after issue: logged and counted at the rank of its word, then a rollback at the end of the cycle, of
the lowest iteration that the cycle detects; an asynchronous POISON; or nothing (R143, R189, R244, R273). The flag says that the operation is
discarded. `traps` says that POISONMODE still decides, as it does for an engine operation; a word of S or V whose data come after its
issue has issued under ZERO. -/
def State.consumeLate (s : State) (c : CtxRef) (st : Stream) (it : Option Nat) (rank : Nat) (sp : Space)
    (side : Bool) (units : List Nat) (traps : Bool := true) : State × Bool × Option Trap :=
  if units.isEmpty then (s, false, none)
  else
    let s := s.modCtx c fun x => x.logPoison sp side st units rank
    match (s.ctx c).rollsBack it with
    | some i => (s.modCtx c fun x => x.noteRollback i, true, none)
    | none =>
      (s, false,
        if traps && (s.ctx c).poisonTrap then
          some { cause := .poison, addr := BitVec.ofNat 64 (topUnit units), st := st, async := true, word := s.curPc }
        else none)

/-- An asynchronous cause: it is raised at once, or kept while a cut is being taken, a handler runs or firmware has the
context (12 R244). -/
def State.raiseLate (s : State) (c : CtxRef) (t : Option Trap) : State :=
  match t with
  | none => s
  | some t =>
    let x := s.ctx c
    if x.holdsOps then s.modCtx c fun x => { x with late := x.late ++ [t] } else s.raise c t

end Sys2Proof.Machine
end

