-- ==== Sys2Proof/Machine/ScalarMem.lean ====
section
/-!
DEFINITION. The S stream's memory words: loads, stores, atomics, CAS, FENCE and WDLD (07 R157 to R166, R174).
-/
namespace Sys2Proof.Machine

/-! ## Addresses (R157, R159) -/

/-- The space of an S address: an offset in the shared store, or none for virtual memory (R157). PROT is a translation fault with the use
of its access in its syndrome (17 R336). -/
def scalarSpace (u : Use) (a : Word) : Act (Option Nat) :=
  if bits a 56 8 = 0xC0 then do
    trapIf (bits a 27 29 != 0 || decide (0x6000000 ≤ bits a 0 27)) .bufacc a
    pure (some (bits a 0 27))
  else do
    (if bits a 55 9 != 0 then faultNow u .prot a else pure ())
    pure none

/-- The parts of an S access; one that runs past the shared store traps BUFACC (R159). -/
def scalarParts (u : Use) (a : Word) (len : Nat) : Act (Option Nat × List Part) := do
  match ← scalarSpace u a with
  | some off =>
    trapIf (decide (0x6000000 < off + len)) .bufacc a
    let c ← (fun s => .ok (s.cur, s) : Act CtxRef)
    pure (some off, ssParts c.cell off len)
  | none =>
    let ps ← translate u a len
    pure (none, ps)

/-- A store, AMO or CAS to virtual memory is an outward effect (08 R188). -/
def outwardVm (off : Option Nat) : Act Unit :=
  match off with
  | none => outward
  | some _ => pure ()

/-! ## The value of a read arrives (18 R344, R162) -/

/-- The bytes of an access in order, once all parts have arrived. -/
def ScalarOp.bytes (o : ScalarOp) (n : Nat) : List (Byte × Bool) :=
  (List.range n).map fun k => ((o.got.find? fun g => g.1 == k).map (·.2)).getD (0, false)

/-- How many bytes a scalar access moves. -/
def ScalarKind.len : ScalarKind → Nat
  | .load n _ _ => n
  | .store => 0
  | .amo n _ => n
  | .wdld _ => 64

/-- The result has its value, or the window descriptor is written; a poisoned value is 0 (R162, R174). -/
def Ctx.scalarDone (c : Ctx) (o : ScalarOp) (bs : List (Byte × Bool)) : Ctx :=
  let v := if bs.any (·.2) then 0 else ofBytes (bs.map (·.1))
  match o.kind with
  | .load n sext t => c.fillTok t (wide (if sext then BitVec.ofInt 64 (signed (8 * n) v) else BitVec.ofNat 64 v))
  | .amo _ t => c.fillTok t (wide (BitVec.ofNat 64 v))
  | .wdld n => { c with wd := Table.put c.wd 0 n (BitVec.ofNat 512 v) }
  | _ => c

/-- A part of a scalar access has been read. -/
def State.scalarRead (s : State) (c : CtxRef) (id pos : Nat) (l : List (Byte × Bool)) : State :=
  match (s.ctx c).sops.find? fun o => o.id == id with
  | none => s
  | some o =>
    let o := { o with got := o.got ++ (List.range l.length).map fun k => (pos + k, l.getD k (0, false)),
                      parts := o.parts - 1 }
    if o.parts ≠ 0 then
      s.modCtx c fun x => { x with sops := x.sops.map fun p => if p.id == id then o else p }
    else
      let s := { s with curPc := some o.pc }
      let bs := o.bytes o.kind.len
      let inSs := bits o.addr 56 8 == 0xC0
      let base := if inSs then bits o.addr 0 27 else o.addr.toNat
      let s := s.modCtx c fun x => { x with sops := x.sops.filter fun p => !(p.id == id) }
      let (s, gone, t) := s.consumeLate c .s o.it o.id (if inSs then .ss else .vm) false (badUnits base bs) false
      if gone then s else (s.modCtx c fun x => x.scalarDone o bs).raiseLate c t

/-! ## A word that takes its bytes as it issues (R162, R165, R174) -/

/-- One access of a word takes all its steps: its bytes are given, by forwarding or by a held line, or it is PERFORMed at its home. -/
def State.takeBytes (s : State) (a : Access) : State × List (Byte × Bool) :=
  match s.readValue a with
  | some v => (s, v)
  | none =>
    let t := s.performAt { a with posted := true }
    (t, ((t.findAcc a.id).map (·.data)).getD [])

/-- One access of S takes all its steps. -/
def State.stepThrough (s : State) (c : CtxRef) (a : Access) : State :=
  let (t, v) := s.takeBytes a
  match a.sink with
  | .scalar op pos => { ((((t.dropAcc a.id).readDrops a).scalarRead c op pos v).settle a) with curPc := s.curPc }
  | _ => t

/-- The accesses of the word of a number are done in the step in which it issues. -/
def takeNow (now : Bool) (id : Nat) : Act Unit := fun s =>
  .ok ((), if now then (s.accs.filter fun a => a.rank == id).foldl (fun t a => t.stepThrough s.cur a) s else s)

/-! ## Accesses -/

/-- The value of an access as bytes. -/
def byteAtOf (v : Word) (k : Nat) : Byte × Bool := (BitVec.ofNat 8 (v.toNat / 2 ^ (8 * k)), false)

/-- Issues the accesses of an S word, and records it in the range checker where it names the shared store (R161). The answer is its
number. -/
def scalarIssue (kind : ScalarKind) (ak : AccKind) (a : Word) (off : Option Nat) (ps : List Part) (len : Nat)
    (acq rel : Bool) (obs : BitVec 5) (data : Word) : Act Nat := do
  let id ← (match off with
    | some o =>
      let g := seg .ss o len
      newOp .scalar (if ak = .write then [] else g) (if ak = .read then [] else g) []
    | none => freshId)
  let c ← cx
  let so : ScalarOp := { id := id, kind := kind, addr := a, got := [], parts := ps.length, it := none,
                         pc := c.ss.pc }
  (fun s => .ok (id,
    let s := s.modCtx s.cur fun c =>
      if kind = .store then c else { c with sops := c.sops ++ [{ so with it := s.curIt }] }
    s.issueParts id (.stream s.cur .s) ak acq rel obs (fun p => if ak = .write then .none else .scalar id p)
      (byteAtOf data) (fun _ => true) ps))

/-- The S agent of the context that issues. -/
def scalarAgent : Act Agent := fun s => .ok (.stream s.cur .s, s)

/-- The bytes of a size code: b, h, w, d. -/
def sizeOf2 (sz : BitVec 2) : Nat := 2 ^ sz.toNat

/-- The space a scalar access reads, for `POISONLOG`. -/
def offSpace : Option Nat → Space
  | some _ => .ss
  | none => .vm

/-- The range of the shared store that a scalar access names. -/
def offSeg (off : Option Nat) (n : Nat) : List Seg :=
  match off with
  | some a => seg .ss a n
  | none => []

/-- LD and LDS (R158, R159, R162). -/
def load (o : SM) (sext : Bool) (s : State) : Host.Outcome State Fault Refusal :=
  word o.g (do
    let a ← read1 (sRef o.a) o.ka
    let n := sizeOf2 o.sz
    let tok ← reserve (sRef o.d)
    trapIf (o.ord != 0 && a.toNat % n != 0) .align a
    let (off, ps) ← scalarParts .read a n
    let ag ← scalarAgent
    let now ← (fun s => poisonAtIssue (offSpace off) (ps.map (s.probe ag .read (o.ord != 0) false o.obs fun _ => true)) [] (offSeg off n) [] s)
    outwardQs [sRef o.a, sRef o.d]
    let id ← scalarIssue (.load n sext tok) .read a off ps n (o.ord != 0) false o.obs 0
    takeNow now id) s

/-- LD (R158). -/
def execLd (o : SM) (s : State) : Host.Outcome State Fault Refusal := load o false s

/-- LDS (R158). -/
def execLds (o : SM) (s : State) : Host.Outcome State Fault Refusal := load o true s

/-- ST (R158, R159): the address first, then the data. -/
def execSt (o : SM) (s : State) : Host.Outcome State Fault Refusal :=
  word o.g (do
    let (a, v) ← read2 (sRef o.a) o.ka (sRef o.d) o.kd
    let n := sizeOf2 o.sz
    trapIf (o.ord != 0 && a.toNat % n != 0) .align a
    let (off, ps) ← scalarParts .write a n
    outwardQs [sRef o.a, sRef o.d]
    outwardVm off
    let _ ← scalarIssue .store .write a off ps n false (o.ord != 0) o.obs v
    pure ()) s

/-! ## Atomics (R163 to R165) -/

/-- An ordering code acquires: `.acq` 1, `.ar` 3 (04 R87). -/
def acquires (ord : BitVec 2) : Bool := ord == 1#2 || ord == 3#2

/-- An ordering code releases: `.rel` 2, `.ar` 3. -/
def releases (ord : BitVec 2) : Bool := ord == 2#2 || ord == 3#2

/-- An atomic at its home: a precise POISON where the old value is poisoned under TRAP (R165). `qs` are the queues that it names. -/
def atomicIssue (o : SR) (x : Ext) (n : Nat) (a : Word) (ak : AccKind) (qs : List QRef) : Act Unit := do
  let tok ← reserve (sRef o.d)
  trapIf (a.toNat % n != 0) .align a
  let (off, ps) ← scalarParts .atomic a n
  let ag ← scalarAgent
  let now ← (fun s => poisonAtIssue (offSpace off) (ps.map (s.probe ag ak (acquires x.ord) (releases x.ord) x.obs fun _ => true)) [] (offSeg off n) (offSeg off n) s)
  outwardVm off
  outwardQs qs
  let id ← scalarIssue (.amo n tok) ak a off ps n (acquires x.ord) (releases x.ord) x.obs 0
  takeNow now id

/-- The outcome of a two-word S word under a guard. -/
def word2 (g : BitVec 4) (body : Act Unit) (s : State) : Host.Outcome State Fault Refusal :=
  finish 2 false (guarded g (seqOf body)) s

/-- AMO (R163): `.w` or `.d` by bit 0 of EXT.C. -/
def amo (op : AmoOp) (o : SR) (x : Ext) (s : State) : Host.Outcome State Fault Refusal :=
  word2 o.g (do
    let (a, b) ← read2 (sRef o.a) o.ka (sRef o.b) o.kb
    atomicIssue o x (if bitOf x.c 0 then 8 else 4) a (.amo op b) [sRef o.a, sRef o.b, sRef o.d]) s

/-- AMO.ADD (R163). -/
def execAmoAdd (o : SR) (x : Ext) (s : State) : Host.Outcome State Fault Refusal := amo .add o x s

/-- AMO.AND (R163). -/
def execAmoAnd (o : SR) (x : Ext) (s : State) : Host.Outcome State Fault Refusal := amo .and o x s

/-- AMO.OR (R163). -/
def execAmoOr (o : SR) (x : Ext) (s : State) : Host.Outcome State Fault Refusal := amo .or o x s

/-- AMO.XOR (R163). -/
def execAmoXor (o : SR) (x : Ext) (s : State) : Host.Outcome State Fault Refusal := amo .xor o x s

/-- AMO.MIN (R163). -/
def execAmoMin (o : SR) (x : Ext) (s : State) : Host.Outcome State Fault Refusal := amo .min o x s

/-- AMO.MAX (R163). -/
def execAmoMax (o : SR) (x : Ext) (s : State) : Host.Outcome State Fault Refusal := amo .max o x s

/-- AMO.MINU (R163). -/
def execAmoMinu (o : SR) (x : Ext) (s : State) : Host.Outcome State Fault Refusal := amo .minu o x s

/-- AMO.MAXU (R163). -/
def execAmoMaxu (o : SR) (x : Ext) (s : State) : Host.Outcome State Fault Refusal := amo .maxu o x s

/-- AMO.SWAP (R163). -/
def execAmoSwap (o : SR) (x : Ext) (s : State) : Host.Outcome State Fault Refusal := amo .swap o x s

/-- AMO.FADD (R163). -/
def execAmoFadd (o : SR) (x : Ext) (s : State) : Host.Outcome State Fault Refusal := amo .fadd o x s

/-- CAS (R164): reads A, then B, then C. -/
def execCas (size : Bool) (o : SR) (x : Ext) (s : State) : Host.Outcome State Fault Refusal :=
  word2 o.g (do
    let (a, b, c) ← read3 (sRef o.a) o.ka (sRef o.b) o.kb (sRef x.c) x.kc
    atomicIssue o x (if size then 8 else 4) a (.cas b c) [sRef o.a, sRef o.b, sRef x.c, sRef o.d]) s

/-! ## FENCE (R166) -/

/-- A FENCE of a kind: it stands at its rank until what it waits for is finished; the word itself goes on. -/
def fence (kind : Nat) (o : SF) (s : State) : Host.Outcome State Fault Refusal :=
  plain (do
    let r ← freshId
    (fun s => .ok ((), (s.modCtx s.cur fun c =>
      { c with fences := c.fences ++ [{ kind := kind, obs := o.obs, rank := r }] }).settleFences s.cur))) s

/-- FENCE.full (R166). -/
def execFenceFull (o : SF) (s : State) : Host.Outcome State Fault Refusal := fence 0 o s

/-- FENCE.ld (R166). -/
def execFenceLd (o : SF) (s : State) : Host.Outcome State Fault Refusal := fence 1 o s

/-- FENCE.st (R166). -/
def execFenceSt (o : SF) (s : State) : Host.Outcome State Fault Refusal := fence 2 o s

/-- FENCE.eng (R166). -/
def execFenceEng (o : SF) (s : State) : Host.Outcome State Fault Refusal := fence 3 o s

/-! ## WDLD (R174) -/

/-- A MWIN, VWMAC or VWPOOL names a window descriptor. -/
def OpKind.usesWd (k : OpKind) (n : Nat) : Bool :=
  match k with
  | .mwin _ _ _ w _ _ _ _ _ => w == n
  | .vwmac _ w .. => w == n
  | .vwpool _ w .. => w == n
  | _ => false

/-- A load of a window descriptor is in progress. -/
def Ctx.wdPending (c : Ctx) (n : Nat) : Bool := c.sops.any fun o => o.kind == .wdld n

/-- WDLD (R174): bits [1:0] of B name the descriptor. It waits for the users of the descriptor before its ALIGN and address checks
(DEDUCED, log 75). -/
def execWdld (o : SX) (s : State) : Host.Outcome State Fault Refusal :=
  plain (do
    let n := o.b.toNat % 4
    let a ← read1 (sRef o.a) o.ka
    let c ← cx
    waitIf (c.ops.any (fun p => p.kind.usesWd n) || c.wdPending n)
    trapIf (bits a 0 6 != 0) .align a
    let (off, ps) ← scalarParts .read a 64
    let ag ← scalarAgent
    let now ← (fun s => poisonAtIssue (offSpace off) (ps.map (s.probe ag .read false false 0 fun _ => true)) [] (offSeg off 64) [] s)
    outwardQs [sRef o.a]
    let id ← scalarIssue (.wdld n) .read a off ps 64 false false 0 0
    takeNow now id) s

end Sys2Proof.Machine
end

