-- ==== Sys2Proof/Machine/QueueOps.lean ====
section
/-!
DEFINITION. Queue instructions, token queues, and the AOP group of V, M and X (06 R132 to R139, 09 R216).
-/
namespace Sys2Proof.Machine

/-! ## Queue instructions (R133 to R137) -/

/-- Bits [4:0] of an index value (R134). -/
def indexOf (v : Word) : BitVec 5 := v.setWidth 5

/-- MOVXR and MOVXK: move from the indexed queue (R134). -/
def moveFrom (o : SR) (keep : Bool) (s : State) : Host.Outcome State Fault Refusal :=
  word o.g (do
    let i ← read1 (sRef o.a) o.ka
    let q := sRef (indexOf i)
    checkRead q 1
    let v ← takeQ q keep
    pushSoon (sRef o.d) v
    outwardQs [sRef o.a, q, sRef o.d]) s

/-- MOVXR (R134). -/
def execMovxr (o : SR) (s : State) : Host.Outcome State Fault Refusal := moveFrom o false s

/-- MOVXK (R134). -/
def execMovxk (o : SR) (s : State) : Host.Outcome State Fault Refusal := moveFrom o true s

/-- MOVXW: moves to the indexed queue (R134). -/
def execMovxw (o : SR) (s : State) : Host.Outcome State Fault Refusal :=
  word o.g (do
    let i ← read1 (sRef o.a) o.ka
    let q := sRef (indexOf i)
    checkRead (sRef o.b) 1
    let v ← takeQ (sRef o.b) o.kb
    pushSoon q v
    outwardQs [sRef o.a, sRef o.b, q]) s

/-- What QCNT pushes (R135). -/
def Ctx.countOf (c : Ctx) (q : QRef) : Nat := c.entries q + c.pendingQ q

/-- QCNT (R135): B names the queue. -/
def execQcnt (o : SR) (s : State) : Host.Outcome State Fault Refusal :=
  word o.g (do
    let c ← cx
    pushSoon (sRef o.d) (wide (BitVec.ofNat 64 (c.countOf (sRef o.b))))
    outwardQs [sRef o.d]) s

/-- QDROP (R136). -/
def execQdrop (o : SR) (s : State) : Host.Outcome State Fault Refusal :=
  word o.g (do
    checkRead (sRef o.b) 1
    let _ ← takeQ (sRef o.b) false
    outwardQs [sRef o.b]) s

/-- Pops n entries. -/
def popMany (q : QRef) : Nat → Act Unit
  | 0 => pure ()
  | n + 1 => do
    let _ ← takeQ q false
    popMany q n

/-- QCLR (R137): a local queue interlocks until it has no pending push; a channel loses the entries that are present. -/
def execQclr (o : SR) (s : State) : Host.Outcome State Fault Refusal :=
  word o.g (do
    let c ← cx
    let q := sRef o.b
    (match q with
      | .loc _ => waitIf (c.pendingQ q != 0) .lock
      | _ => pure ())
    popMany q (c.entries q)
    outwardQs [q]) s

/-! ## Tokens (R132, R138, R139) -/

/-- The count of a token queue. -/
def Ctx.token (c : Ctx) (n : Nat) : BitVec 4 := c.tokens.getD n 0

def Ctx.setToken (c : Ctx) (n : Nat) (v : BitVec 4) : Ctx := { c with tokens := c.tokens.set n v }

/-- TSIG: a count of 15 traps QOVF (R138). -/
def signal (n : Nat) : Act Unit := do
  let c ← cx
  trapIf (c.token n == 15#4) .qovf (BitVec.ofNat 64 (128 + n))
  outward
  modCx fun c => c.setToken n (c.token n + 1)

/-- TWAIT: waits at 0, then takes 1 (R138). -/
def await (n : Nat) : Act Unit := do
  let c ← cx
  waitIf (c.token n == 0) .outside
  outward
  modCx fun c => c.setToken n (c.token n - 1)

/-- TPOLL: pushes the count (R138). -/
def poll (n : Nat) (d : QRef) : Act Unit := do
  let c ← cx
  pushSoon d (wide ((c.token n).setWidth 64))
  outward

/-- TSIG in S (R138). -/
def execTsig (o : SR) (s : State) : Host.Outcome State Fault Refusal := word o.g (signal (o.b.toNat % 16)) s

/-- TWAIT in S (R138). -/
def execTwait (o : SR) (s : State) : Host.Outcome State Fault Refusal := word o.g (await (o.b.toNat % 16)) s

/-- TPOLL in S (R138). -/
def execTpoll (o : SR) (s : State) : Host.Outcome State Fault Refusal :=
  word o.g (poll (o.b.toNat % 16) (sRef o.d)) s

/-- TSIG in V (R139). -/
def execVTsig (o : VR) (s : State) : Host.Outcome State Fault Refusal := vword o.gm (fun _ => signal o.a.toNat) s

/-- TWAIT in V (R139). -/
def execVTwait (o : VR) (s : State) : Host.Outcome State Fault Refusal := vword o.gm (fun _ => await o.a.toNat) s

/-- TPOLL in V pushes to the V a queue named in D (R139). -/
def execVTpoll (o : VR) (s : State) : Host.Outcome State Fault Refusal :=
  vword o.gm (fun _ => poll o.a.toNat (aRef .v o.d)) s

/-- TSIG in M (R139). -/
def execMTsig (o : MS) (s : State) : Host.Outcome State Fault Refusal := plain (signal o.a.toNat) s

/-- TWAIT in M (R139). -/
def execMTwait (o : MS) (s : State) : Host.Outcome State Fault Refusal := plain (await o.a.toNat) s

/-- TSIG in X (R139). -/
def execXTsig (o : MS) (s : State) : Host.Outcome State Fault Refusal := plain (signal o.a.toNat) s

/-- TWAIT in X (R139). -/
def execXTwait (o : MS) (s : State) : Host.Outcome State Fault Refusal := plain (await o.a.toNat) s

/-! ## The AOP group on the issuing stream's own a queues (R216) -/

/-- Pushes an AOP result, due in one cycle. -/
def pushA (st : Stream) (d : BitVec 4) (v : Word) : Act Unit := pushLat (aRef st d) (wide v) 1

/-- AADD: aA, then the queue in IMM[3:0], which is popped. -/
def execAadd (o : VA) (s : State) : Host.Outcome State Fault Refusal :=
  plain (do
    let st ← curStream
    let (a, b) ← read2 (aRef st o.a) o.ka (aRef st (o.imm.setWidth 4)) false
    pushA st o.d (a + b)) s

/-- AADDI. -/
def execAaddi (o : VA) (s : State) : Host.Outcome State Fault Refusal :=
  plain (do
    let st ← curStream
    let a ← read1 (aRef st o.a) o.ka
    pushA st o.d (a + sext64 o.imm)) s

/-- ALI. -/
def execAli (o : VA) (s : State) : Host.Outcome State Fault Refusal :=
  plain (do
    let st ← curStream
    pushA st o.d (sext64 o.imm)) s

/-- ALIH. -/
def execAlih (o : VA) (s : State) : Host.Outcome State Fault Refusal :=
  plain (do
    let st ← curStream
    let a ← read1 (aRef st o.a) o.ka
    pushA st o.d (a <<< 12 ||| zext64 o.imm)) s

/-- AFROM: the front entry of a channel. -/
def execAfrom (o : VA) (s : State) : Host.Outcome State Fault Refusal :=
  plain (do
    let st ← curStream
    let a ← read1 (.chan (o.a.toNat % 8)) o.ka
    pushA st o.d a
    outward) s

/-- ATO: pushes to a channel. -/
def execAto (o : VA) (s : State) : Host.Outcome State Fault Refusal :=
  plain (do
    let st ← curStream
    let a ← read1 (aRef st o.a) o.ka
    pushLat (.chan (o.d.toNat % 8)) (wide a) 1
    outward) s

end Sys2Proof.Machine
end

