-- ==== Sys2Proof/Machine/LoopWords.lean ====
section
/-!
DEFINITION. The words of the loop unit: LOOP, LOOPI, LOOPM (08 R178, R180, R183, R186).
-/
namespace Sys2Proof.Machine

/-- The word of a stream at an address looks like the first word of a pair: AMO or CAS in S with a function that exists, MKAT in M
(04 R82). A word that cannot be fetched begins none. -/
def State.pairAt (s : State) (c : CtxRef) (st : Stream) (va : Word) : Bool :=
  match s.codeAt c st va with
  | .ok w => isPair st w.toNat
  | .error _ => false

/-- How many words right before an address look like the first word of a pair, looking back at most n words. -/
def State.pairRun (s : State) (c : CtxRef) (st : Stream) (va : Word) : Nat → Nat
  | 0 => 0
  | n + 1 => if s.pairAt c st (va - 4) then s.pairRun c st (va - 4) n + 1 else 0

/-- The word at an address is the first word of a pair: it looks like one, and it is not itself the second word of one. Of a
run of such words every second is a first word. `n` words lie between the loop word and the address. -/
def State.firstOfPair (s : State) (c : CtxRef) (st : Stream) (va : Word) (n : Nat) : Bool :=
  s.pairAt c st va && s.pairRun c st va n % 2 == 0

/-- Level lv of a stream as (LC, LS, LE). -/
def StreamState.level (x : StreamState) (lv : Bool) : Word × Word × Word :=
  if lv then (x.lc1, x.ls1, x.le1) else (x.lc0, x.ls0, x.le0)

def StreamState.setLevel (x : StreamState) (lv : Bool) (lc ls le : Word) : StreamState :=
  if lv then { x with lc1 := lc, ls1 := ls, le1 := le } else { x with lc0 := lc, ls0 := ls, le0 := le }

def StreamState.setLc (x : StreamState) (lv : Bool) (lc : Word) : StreamState :=
  if lv then { x with lc1 := lc } else { x with lc0 := lc }

/-- The nesting check of R178. -/
def badNesting (x : StreamState) (lv : Bool) (newLe : Word) : Bool :=
  if lv then x.lc0 != 0 && decide (newLe < x.le0) else x.lc1 != 0 && decide (x.le1 < newLe)

/-- The stream after a count-zero LOOP of level lv at `pc` with its body's last word at `newLe` (R180, R181): the next pc
and the levels. -/
def zeroCount (x : StreamState) (lv : Bool) (pc newLe : Word) : StreamState :=
  let y := x.setLc lv 0
  let (lc, ls, le) := y.level (!lv)
  let target := newLe + 4
  if lc ≠ 0 ∧ le = newLe ∧ 1 < bits lc 0 32 then { y.setLc (!lv) (decLc lc) with pc := ls }
  else
    let z := if lc ≠ 0 ∧ le = newLe then y.setLc (!lv) 0 else y
    { disarm z pc target with pc := target }

/-- LOOP and LOOPI (R178): `n` is END. The pc is left to the outcome: a count of 0 is a taken branch. In a handler it makes no loop-back
test (R192). -/
def loopWord (lv : Bool) (n : Nat) (off : Word) (q : QRef) (ka : Bool) (count : Option Word) : Act Flow := do
  (match count with
    | none => checkRead q 1
    | some _ => pure ())
  let c ← cx
  let pc ← curPc
  let cnt := count.getD ((c.front q).1.setWidth 64)
  let newLe := pc + off * 4
  let pair ← (fun s => .ok (s.firstOfPair s.cur .s newLe (n - 1), s) : Act Bool)
  trapIf pair .looperr pc
  trapIf (bits cnt 32 32 != 0) .looperr pc
  trapIf (c.liiAct && within pc c.ss.ls0 c.ss.le0) .looperr pc
  trapIf (cnt != 0 && badNesting c.ss lv newLe) .looperr pc
  (match count with
    | none => do let _ ← takeQ q ka; outwardQs [q]
    | some _ => pure ())
  if cnt = 0 then
    let y := if c.hnd then { disarm (c.ss.setLc lv 0) pc (newLe + 4) with pc := newLe + 4 } else zeroCount c.ss lv pc newLe
    modCx fun c => c.setStr .s { y with pc := pc }
    pure (.jump y.pc)
  else
    modCx fun c => c.setStr .s (c.ss.setLevel lv cnt (pc + 4) newLe)
    pure .seq

/-- The outcome of a LOOP word. A taken one has disarmed its levels already (R180). -/
def loopOutcome (body : Act Flow) (s : State) : Host.Outcome State Fault Refusal := finish 1 true body s

/-- LOOP (R178). -/
def execLoop (o : SLP) (s : State) : Host.Outcome State Fault Refusal :=
  loopOutcome (loopWord o.lv o.last.toNat (sext64 o.last) (sRef o.a) o.ka none) s

/-- LOOPI (R178). -/
def execLoopi (o : SLI) (s : State) : Host.Outcome State Fault Refusal :=
  loopOutcome (loopWord o.lv o.last.toNat (sext64 o.last) .zero true (some (zext64 o.count))) s

/-! ## LOOPM (R183) -/

/-- A level 1 that ends inside the body of a modulo loop of ii words. -/
def level1Inside (x : StreamState) (ii : Nat) : Bool :=
  x.lc1 != 0 && decide (x.le1 < x.pc + BitVec.ofNat 64 (4 * ii))

/-- A stream's body of ii words ends at the first word of a pair (04 R82). -/
def State.bodyEndsInPair (s : State) (r : CtxRef) (st : Stream) (ii : Nat) : Bool :=
  s.firstOfPair r st (((s.ctx r).str st).pc + BitVec.ofNat 64 (4 * ii)) (ii - 1)

/-- A stream at the start of a modulo loop with trip count n. -/
def armModulo (ii stages n : Nat) (x : StreamState) : StreamState :=
  { x with ls0 := x.pc + 4, le0 := x.pc + BitVec.ofNat 64 (4 * ii), lc0 := BitVec.ofNat 64 (n + stages - 1),
           passEnd := false }

/-- A stream after a modulo loop with no pass: level 1 is examined at its last body word. -/
def skipModulo (ii : Nat) (x : StreamState) : StreamState := loopBack1 x (x.pc + BitVec.ofNat 64 (4 * ii))

/-- A stream's word of the LOOPM bundle has retired: it counts, and the pc stands where `f` puts it. -/
def countWord (f : StreamState → StreamState) (x : StreamState) : StreamState := { f x with seq := x.seq + 1 }

/-- The context after LOOPM with trip count n. -/
def Ctx.startModulo (c : Ctx) (o : SLM) (n : Nat) : Ctx :=
  let ii := o.ii.toNat + 1
  let stages := o.stages.toNat + 1
  if n = 0 then { c.eachStr (fun _ x => countWord (skipModulo ii) x) with lpw := 0 }
  else
    { c.eachStr (fun _ x => countWord (fun x => { armModulo ii stages n x with pc := x.pc + 4 }) x) with
      lii := BitVec.ofNat 64 (2 ^ 40 * n + 2 ^ 8 + 2 ^ 7 * o.rb.toNat + 2 ^ 4 * o.stages.toNat + o.ii.toNat)
      lpw := 1
      pops := []
      rbFloor := 0 }

/-- LOOPM (R183): the issue logic hands it the whole bundle, so its effect moves all four streams. -/
def execLoopm (o : SLM) (s : State) : Host.Outcome State Fault Refusal :=
  finish 1 false (do
    let q := sRef o.a
    checkRead q 1
    let c ← cx
    let pc ← curPc
    let n := (c.front q).1.setWidth 64
    let bundle ← (fun s => .ok (s.inBundle && s.nops, s) : Act Bool)
    trapIf (!o.j || !bundle) .looperr pc
    trapIf (decide (16777208 < n.toNat)) .looperr pc
    trapIf (c.liiAct || c.ss.lc0 != 0 || c.sv.lc0 != 0 || c.sm.lc0 != 0 || c.sx.lc0 != 0) .looperr pc
    trapIf (level1Inside c.ss (o.ii.toNat + 1) || level1Inside c.sv (o.ii.toNat + 1) ||
      level1Inside c.sm (o.ii.toNat + 1) || level1Inside c.sx (o.ii.toNat + 1)) .looperr pc
    let pair ← (fun s => .ok ([Stream.s, .v, .m, .x].any fun st => s.bodyEndsInPair s.cur st (o.ii.toNat + 1), s) : Act Bool)
    trapIf (n != 0 && pair) .looperr pc
    let _ ← takeQ q o.ka
    outwardQs [q]
    modCx fun c => c.startModulo o n.toNat
    pure .done) s

end Sys2Proof.Machine
end

