-- ==== Sys2Proof/Machine/System.lean ====
section
/-!
DEFINITION. Control registers and the SYS words: NOP, HALT, TRAP, TRET, GFENCE, BSYNC, TSTAMP, RNGD, CNTR, BRK, and the
fate of a word that decodes to no instruction (02 R28, R36, R37, R45, R47; 04 R96; 06 R140 to R143; 07 R167 to R175;
12 R250; 26 R451 to R454).
-/
namespace Sys2Proof.Machine

/-! ## Reading a control register (06 R140) -/

/-- The bits of code addresses: [54:2] (08 R177, 12 R245). -/
def addrMask : Word := 0x007FFFFFFFFFFFFC#64

/-- The stream of a loop register's number (08 R176). -/
def loopStream (n : Nat) : Stream :=
  match (n - 0x20) / 8 with
  | 0 => .s
  | 1 => .v
  | 2 => .m
  | _ => .x

/-- A loop register of a stream by its place among the six (R176). -/
def StreamState.loopReg (x : StreamState) (k : Nat) : Word :=
  match k with
  | 0 => x.lc0
  | 1 => x.ls0
  | 2 => x.le0
  | 3 => x.lc1
  | 4 => x.ls1
  | _ => x.le1

def StreamState.setLoopReg (x : StreamState) (k : Nat) (v : Word) : StreamState :=
  match k with
  | 0 => { x with lc0 := v }
  | 1 => { x with ls0 := v }
  | 2 => { x with le0 := v }
  | 3 => { x with lc1 := v }
  | 4 => { x with ls1 := v }
  | _ => { x with le1 := v }

/-- A stream by its number. -/
def streamOf (n : Nat) : Stream :=
  match n with
  | 0 => .s
  | 1 => .v
  | 2 => .m
  | _ => .x

/-- `MCSR` as a read gives it: FMT is the tag of the active plane, ACCOVF the bit of `STATUS` (05 R122). -/
def Ctx.readMcsr (c : Ctx) : Word :=
  (c.mcsr &&& 0x700#64) ||| BitVec.ofNat 64 (16 * c.accOvf.toNat + c.tagAct.toNat)

/-- A domain register of a context (02 R34). -/
def Ctx.dom (c : Ctx) : DomScope → Word
  | .t => c.domt
  | .d => c.domd
  | .p => c.domp
  | .s => c.doms

/-- A barrier counter of a context (02 R35). -/
def Ctx.sstep (c : Ctx) : DomScope → Word
  | .t => c.sstept
  | .d => c.sstepd
  | .p => c.sstepp
  | .s => c.ssteps

/-- A scope by its number in BSYNC and in the register numbers. -/
def scopeOf (n : Nat) : DomScope :=
  match n with
  | 0 => .t
  | 1 => .d
  | 2 => .p
  | _ => .s

def scopeNo : DomScope → Nat
  | .t => 0
  | .d => 1
  | .p => 2
  | .s => 3

/-- The value of a control register (R140). -/
def State.readCsr (s : State) (r : CtxRef) (n : Nat) : Word :=
  let c := s.ctx r
  if 0x010 ≤ n ∧ n ≤ 0x013 then (c.str (streamOf (n - 0x010))).tpc
  else if 0x014 ≤ n ∧ n ≤ 0x017 then (c.str (streamOf (n - 0x014))).tseq
  else if 0x020 ≤ n ∧ n ≤ 0x03D then (c.str (loopStream n)).loopReg ((n - 0x20) % 8)
  else if 0x050 ≤ n ∧ n ≤ 0x053 then c.dom (scopeOf (n - 0x050))
  else if 0x054 ≤ n ∧ n ≤ 0x057 then c.sstep (scopeOf (n - 0x054))
  else if 0x060 ≤ n ∧ n ≤ 0x067 then Table.get c.param 0 (n - 0x060)
  else match n with
    | 0x000 => c.status
    | 0x001 => BitVec.ofNat 64 (r.cell % 256)
    | 0x002 => BitVec.ofNat 64 (2 ^ 8 * c.part.toNat + bankNo r.bank)
    | 0x003 => zext64 (s.cell r.cell).mode
    | 0x004 => c.gen
    | 0x008 => c.tvec
    | 0x009 => c.tcause
    | 0x00A => c.taddr
    | 0x00B => c.torig
    | 0x00C => c.tinfl
    | 0x040 => c.lpw
    | 0x041 => c.lii
    | 0x068 => c.node
    | 0x070 => c.rngkey
    | 0x071 => c.rngstream
    | 0x072 => c.rngpos
    | 0x078 => c.vcsr
    | 0x079 => c.readMcsr
    | 0x07A => c.rcsr
    | 0x080 => c.poisonlog
    | 0x081 => c.poisoncnt
    | 0x0A0 => c.xerr
    | 0x0F0 => s.hub.tstamp
    | _ => 0

/-! ## Writing a control register (R141, R143, 07 R167, R168) -/

/-- The bits of a register that a CSR write may change, by its field map. -/
def csrBits (n : Nat) : Word :=
  if 0x010 ≤ n ∧ n ≤ 0x013 then addrMask
  else if 0x020 ≤ n ∧ n ≤ 0x03D then
    match (n - 0x20) % 8 with
    | 0 => 0xFFFFFFFF#64
    | 3 => 0xFFFFFFFF#64
    | _ => addrMask
  else match n with
    | 0x000 => 0xF03#64
    | 0x008 => addrMask
    | 0x040 => 0xFF#64
    | 0x041 => 0xFFFFFFFFFFFF07FF#64
    | 0x070 => BitVec.allOnes 64
    | 0x071 => BitVec.allOnes 64
    | 0x072 => BitVec.allOnes 64
    | 0x078 => 0xFF#64
    | 0x079 => 0x710#64
    | 0x07A => 0xF#64
    | 0x081 => 0xFFFFFFFF#64
    | 0x0A0 => 0xFFFF001F#64
    | _ => 0

/-- The bits that take effect for the words of later cycles only: modes, `LPW`, `LII`, the random key and stream, and the loop registers of
V, M and X (07 R168). Flags, counters, the registers of S itself and the draw position are ordered by rank (06 R143, log 15). -/
def csrLate (n : Nat) : Word :=
  if 0x028 ≤ n ∧ n ≤ 0x03D then csrBits n
  else match n with
    | 0x000 => 0xF00#64
    | 0x040 => 0xFF#64
    | 0x041 => 0xFFFFFFFFFFFF07FF#64
    | 0x070 => BitVec.allOnes 64
    | 0x071 => BitVec.allOnes 64
    | 0x078 => 0x3#64
    | 0x079 => 0x10#64
    | _ => 0

/-- `STATUS` under a mask: a reserved POISONMODE leaves the field (R141). -/
def statusMask (mask v : Word) : Word := if 2 ≤ bits v 10 2 then mask &&& ~~~0xC00#64 else mask

/-- A write of `RNGPOS` that lowers POS sets `STATUS.RNGWRAP` (26 R452). -/
def Ctx.writeRngpos (c : Ctx) (v : Word) : Ctx :=
  { c with rngpos := v, status := if bits v 24 40 < bits c.rngpos 24 40 then c.status ||| 2#64 else c.status }

/-- Writes the bits of a mask to a register. A stream whose `TPC` is written no longer stands at the end of a pass (log 16). -/
def Ctx.putCsr (c : Ctx) (n : Nat) (mask v : Word) : Ctx :=
  if mask = 0 then c
  else if 0x010 ≤ n ∧ n ≤ 0x013 then c.modStr (streamOf (n - 0x010)) fun x =>
    { x with tpc := mixBits mask x.tpc v, passEnd := false }
  else if 0x020 ≤ n ∧ n ≤ 0x03D then
    c.modStr (loopStream n) fun x => x.setLoopReg ((n - 0x20) % 8) (mixBits mask (x.loopReg ((n - 0x20) % 8)) v)
  else match n with
    | 0x000 => { c with status := mixBits (statusMask mask v) c.status v }
    | 0x008 => { c with tvec := mixBits mask c.tvec v }
    | 0x040 => { c with lpw := mixBits mask c.lpw v }
    | 0x041 => { c with lii := mixBits mask c.lii v }
    | 0x070 => { c with rngkey := mixBits mask c.rngkey v }
    | 0x071 => { c with rngstream := mixBits mask c.rngstream v }
    | 0x072 => c.writeRngpos (mixBits mask c.rngpos v)
    | 0x078 => { c with vcsr := mixBits mask c.vcsr v }
    | 0x079 => { c with
        mcsr := mixBits (mask &&& 0x700#64) c.mcsr v
        status := if bitOf mask 4 then setBits c.status 8 1 (bits v 4 1) else c.status }
    | 0x07A => { c with rcsr := mixBits mask c.rcsr v }
    | 0x081 => { c with poisoncnt := mixBits mask c.poisoncnt v }
    | 0x0A0 => { c with xerr := mixBits mask c.xerr v }
    | _ => c

/-- The CSR writes of the last cycle take effect (07 R168). -/
def Ctx.applyCsrs (c : Ctx) : Ctx :=
  { c.csrPend.foldl (fun x p => x.putCsr p.1 p.2.1 p.2.2) c with csrPend := [] }

/-- The bits in which an older operation's later flag is overtaken (06 R143). -/
def CsrOp.overtakes (k : CsrOp) (a : Word) : Word :=
  match k with
  | .write => BitVec.allOnes 64
  | .set => 0
  | .clear => a

/-- Operations in flight note a CSR write that is younger than they are (R143). -/
def Ctx.overtake (c : Ctx) (n : Nat) (m : Word) : Ctx :=
  { c with ops := c.ops.map fun o => { o with lost := Table.modify o.lost 0 n (· ||| m) } }

/-- The effect of a CSR write of rank `r` (R143, 07 R168): POISONCNT and XERR keep the order of ranks by their changes, the flags of other
registers by the bits that operations in flight have lost; late bits wait for the end of the cycle. -/
def Ctx.csrWrite (c : Ctx) (k : CsrOp) (n r : Nat) (old a : Word) : Ctx :=
  if n = 0x081 ∨ n = 0x0A0 then c.noteCsr n r k (csrBits n) a
  else
    let c := (c.overtake n (k.overtakes a)).putCsr n (csrBits n &&& ~~~(csrLate n)) (k.value old a)
    if csrLate n = 0 then c else { c with csrPend := c.csrPend ++ [(n, csrLate n, k.value old a)] }

/-- CSRW, CSRS and CSRC (07 R167): an outward effect (08 R188). -/
def csrWord (k : CsrOp) (o : SC) (s : State) : Host.Outcome State Fault Refusal :=
  plain (do
    let a ← read1 (sRef o.a) o.ka
    let n := o.csr.toNat
    let old ← (fun s => .ok (s.readCsr s.cur n, s) : Act Word)
    pushSoon (sRef o.d) (wide old)
    outward
    let r ← freshId
    modCx fun c => c.csrWrite k n r old a) s

/-- CSRR (07 R167). -/
def execCsrr (o : SC) (s : State) : Host.Outcome State Fault Refusal :=
  plain (do
    let old ← (fun s => .ok (s.readCsr s.cur o.csr.toNat, s) : Act Word)
    pushSoon (sRef o.d) (wide old)
    outwardQs [sRef o.d]) s

/-- CSRW (07 R167). -/
def execCsrw (o : SC) (s : State) : Host.Outcome State Fault Refusal := csrWord .write o s

/-- CSRS (07 R167). -/
def execCsrs (o : SC) (s : State) : Host.Outcome State Fault Refusal := csrWord .set o s

/-- CSRC (07 R167). -/
def execCsrc (o : SC) (s : State) : Host.Outcome State Fault Refusal := csrWord .clear o s

/-! ## NOP, words that decode to nothing, HALT -/

/-- NOP (07 R170, 04 R83): in V under GM (log 17). -/
def execNop (_j : Bool) (g : BitVec 4) (s : State) : Host.Outcome State Fault Refusal :=
  if s.curSt = .v then vword g (fun _ => pure ()) s else word g (pure ()) s

/-- A word that decodes to no instruction traps ILLOP with the word in `TADDR` (04 R96). -/
def execIllegalWord (w : BitVec 32) (s : State) : Host.Outcome State Fault Refusal :=
  plain (trapNow .illop (zext64 w)) s

/-- An asynchronous engine operation of the context has not completed (02 R45); coder traffic counts (10 R221). -/
def State.asyncBusy (s : State) (r : CtxRef) : Bool :=
  (s.ctx r).ops.any (fun o => !o.kind.isScalar) || s.accs.any (fun a => a.engineOf r) ||
    (s.ctx r).slots.any fun p => p.2.emits

/-- HALT in any slot of a bundle: it waits until the asynchronous operations have completed (02 R45, 07 R170). -/
def haltWord (s : State) : Host.Outcome State Fault Refusal :=
  finish 1 false (do
    let busy ← (fun s => .ok (s.asyncBusy s.cur, s) : Act Bool)
    waitIf busy
    let st ← curStream
    modCx fun c => c.modStr st fun x => { x with halted := true }
    pure .seq) s

/-- HALT in S (02 R28). -/
def execHalt (s : State) : Host.Outcome State Fault Refusal := haltWord s

/-- HALT in V. -/
def execVHalt (s : State) : Host.Outcome State Fault Refusal := haltWord s

/-- HALT in M. -/
def execMHalt (s : State) : Host.Outcome State Fault Refusal := haltWord s

/-- HALT in X. -/
def execXHalt (s : State) : Host.Outcome State Fault Refusal := haltWord s

/-! ## TRAP and TRET (12 R250) -/

/-- TRAP: it retires, then the cut is taken after it, or after its bundle. -/
def execTrap (o : SX) (s : State) : Host.Outcome State Fault Refusal :=
  let t : Trap := { cause := .swtrap, addr := zext64 o.b, st := .s, async := false, word := some (s.ctx s.cur).ss.pc }
  let s1 := s.modCtx s.cur fun c => c.retireSeq .s 1
  if s.inBundle then .next ({ s1 with after := some t }.noted .retired)
  else .next ((s1.raise s.cur t).noted .retired)

/-- The streams that do not issue any more in this cycle: all four. -/
def allSlots : Nat := 15

/-- TRET: outside a handler it traps ILLOP; otherwise every stream goes on from its `TPC` in the next cycle. -/
def execTret (o : SX) (s : State) : Host.Outcome State Fault Refusal :=
  finish 1 false (do
    let c ← cx
    trapIf (!c.hnd) .illop (if o.j then 0x80000018#64 else 0x18#64)
    modCx fun c => { c.resumeAt with tcause := setBits c.tcause 15 1 0, slots0 := allSlots }
    pure .done) s

/-! ## GFENCE (02 R47, 07 R171) -/

/-- A stream raises its count and waits at its GFENCE. -/
def raiseFence (x : StreamState) : StreamState := if x.gfw then x else { x with gf := x.gf + 1, gfw := true }

/-- The four counts are equal. -/
def Ctx.fencesEqual (c : Ctx) : Bool := c.ss.gf == c.sv.gf && c.ss.gf == c.sm.gf && c.ss.gf == c.sx.gf

/-- A stream that waits at a GFENCE of its own leaves it. -/
def Ctx.leaveFence (c : Ctx) (st : Stream) : Ctx :=
  if (c.str st).gfw then (c.modStr st fun x => { x with gfw := false }).retireSeq st 1 else c

/-- All streams leave the fence at once; `GEN` holds the common count, and the context stands at the fence. -/
def Ctx.leaveFences (c : Ctx) : Ctx :=
  { (((c.leaveFence .s).leaveFence .v).leaveFence .m).leaveFence .x with gen := c.ss.gf, atFence := true }

/-- GFENCE in a stream. In a bundle the issue logic has raised the counts, and the word retires with its bundle. -/
def fenceFlow : Act Flow := do
  let st ← curStream
  outward
  modCx fun c => c.modStr st raiseFence
  let c ← cx
  let bundle ← (fun s => .ok (s.inBundle, s) : Act Bool)
  if !c.fencesEqual then do
    leaveFence
    pure .stay
  else if bundle then
    modCx fun c => { c.modStr st fun x => { x with gfw := false } with gen := c.ss.gf }
    pure .seq
  else
    modCx Ctx.leaveFences
    pure .done

/-- GFENCE in S. -/
def execGfence (_o : SX) (s : State) : Host.Outcome State Fault Refusal := finish 1 false fenceFlow s

/-- GFENCE in V, under its guard. -/
def execVGfence (o : VR) (s : State) : Host.Outcome State Fault Refusal :=
  finish 1 false (do
    match ← vMask o.gm with
    | none => pure .seq
    | some _ => fenceFlow) s

/-- GFENCE in M. -/
def execMGfence (_o : MS) (s : State) : Host.Outcome State Fault Refusal := finish 1 false fenceFlow s

/-- GFENCE in X. -/
def execXGfence (_o : MS) (s : State) : Host.Outcome State Fault Refusal := finish 1 false fenceFlow s

/-! ## BSYNC (02 R36, R37, R40; 18 R359) -/

/-- A context by its key. -/
def ctxOfKey (k : Nat) : CtxRef := { cell := k / 2, bank := if k % 2 = 0 then .a else .b }

/-- The COUNT and ID fields of a domain register (02 R34). -/
def domCount (w : Word) : Nat := bits w 32 30
def domId (w : Word) : Nat := bits w 0 32

/-- The fields of a member address (16 R313). -/
def memberOff (m : Word) : Nat := bits m 0 27
def memberSpace (m : Word) : Nat := bits m 28 2
def memberBank (m : Word) : Bank := if bitOf m 30 then .b else .a
def memberCell (m : Word) : Nat := bits m 32 8
def memberPkg (m : Word) : Nat := bits m 40 20

/-- The scopes. -/
def scopes : List DomScope := [.t, .d, .p, .s]

/-- The hub's record of a domain (02 R36, 21 R381). -/
def State.domRec (s : State) (part id : Nat) : Option DomRec := s.hub.domains.find? fun d => d.part == part && d.id == id

/-- The member contexts of a domain in this package (02 R36). -/
def State.membersOf (s : State) (part id : Nat) : List CtxRef :=
  match s.domRec part id with
  | some d => (d.members.filter fun m => m.1 == s.cfg.package).map (·.2)
  | none => []

/-- A domain has members in other packages. -/
def State.domSpans (s : State) (part id : Nat) : Bool :=
  (s.domRec part id).any fun d => d.members.any fun m => m.1 != s.cfg.package

/-- The domains that the hub records as containing one: its parent, the parent's parent, and so on. -/
def State.domsAbove (s : State) (part : Nat) : Nat → Nat → List Nat
  | 0, _ => []
  | n + 1, id =>
    match (s.domRec part id).bind (·.parent) with
    | some p => p :: s.domsAbove part n p
    | none => []

/-- The hub records the first domain as contained in the second; a context's domains nest at most four deep (R36). -/
def State.domNested (s : State) (part small big : Nat) : Bool := small == big || (s.domsAbove part 4 small).contains big

/-- DOMERR: bit 2 says not nested, bits [1:0] name the register (R36, 12 R243). -/
def domCheck (sc : DomScope) : Act Unit := fun s =>
  let c := s.ctx s.cur
  if domCount (c.dom sc) = 0 then trapNow .domerr (BitVec.ofNat 64 (scopeNo sc)) s
  else if scopes.any fun e => decide (scopeNo e < scopeNo sc) && domCount (c.dom e) != 0 &&
      !s.domNested (s.partOf s.cur) (domId (c.dom e)) (domId (c.dom sc)) then
    trapNow .domerr (BitVec.ofNat 64 (4 + scopeNo sc)) s
  else .ok ((), s)

/-- The observers that a domain spans (02 R40). -/
def domObs : DomScope → BitVec 5
  | .t => 0x07#5
  | .d => 0x07#5
  | .p => 0x0F#5
  | .s => 0x0F#5

/-- A superstep operation (02 R37). -/
def OpKind.superstep : OpKind → Bool
  | .send .. => true
  | .sendReduce .. => true
  | _ => false

/-- The arrival may be signalled: older superstep operations are posted, and the S accesses that the observers can see are
finished (02 R37 step 2, 18 R359). -/
def State.mayArrive (s : State) (r : CtxRef) (sc : DomScope) : Bool :=
  let c := s.ctx r
  c.ops.all (fun o => !(o.kind.superstep && decide (o.id < c.barrierRank))) &&
    s.accs.all fun a => !(a.ofCtx r true && !a.finished && visible a.home (domObs sc))

/-- The superstep that a domain is in, counted from its record. -/
def State.domStep (s : State) (part id : Nat) : Nat :=
  match s.domRec part id with
  | some d => d.step
  | none => 0

/-- A transfer that a sender has posted to a domain below a rank and that goes to another package. -/
def State.leavesHere (s : State) (r : CtxRef) (id rank : Nat) (p : Posted) : Bool :=
  p.part == s.partOf r && p.dom == id && p.pkg == s.cfg.package && p.sender == r && decide (p.rank < rank) &&
    memberPkg p.target != s.cfg.package

/-- The transfers of a sender to members in other packages leave before its arrival, so that they are there at the release (02 R38). -/
def State.sendOut (s : State) (r : CtxRef) (id rank : Nat) : State :=
  let out := (s.hub.posted.filter (s.leavesHere r id rank)).map fun p =>
    OutMsg.transfer { p with step := s.domStep (s.partOf r) id }
  s.modHub fun h => { h with posted := h.posted.filter fun p => !s.leavesHere r id rank p, outbox := h.outbox ++ out }

/-- The arrival goes to the other packages of a domain that has members there (02 R37, 20 R366). -/
def State.tokenOut (s : State) (r : CtxRef) (id rank : Nat) : State :=
  let part := s.partOf r
  let t := s.sendOut r id rank
  if s.domSpans part id then t.modHub fun h => { h with outbox := h.outbox ++ [.arrival part id (s.domStep part id)] } else t

/-- A member that halts: its transfers leave, and the other packages of its domains count it as arrived from now on (02 R41). -/
def State.haltOut (s : State) (r : CtxRef) : State :=
  scopes.foldl (fun t sc =>
    let id := domId ((s.ctx r).dom sc)
    if domCount ((s.ctx r).dom sc) = 0 then t
    else
      let t := t.sendOut r id t.nextId
      if s.domSpans (s.partOf r) id then t.modHub fun h => { h with outbox := h.outbox ++ [.halted (s.partOf r) id r true] } else t) s

/-- BSYNC: S waits at it from its first try, signals its arrival once it may, and goes on at the release. -/
def execBsync (o : SX) (s : State) : Host.Outcome State Fault Refusal :=
  finish 1 false (do
    let sc := scopeOf (o.b.toNat % 4)
    let c ← cx
    if c.released then
      modCx fun c => { c with released := false }
      pure .seq
    else
      (match c.barrier with
        | some _ => pure ()
        | none => do
          domCheck sc
          outward
          let r ← freshId
          modCx fun c => { c with barrier := some sc, barrierRank := r, arrived := false })
      let go ← (fun s => .ok (s.mayArrive s.cur sc, s) : Act Bool)
      let c ← cx
      (if go && !c.arrived then
        (fun s => .ok ((), s.tokenOut s.cur (domId (c.dom sc)) c.barrierRank) : Act Unit) else pure ())
      modCx fun c => { c with arrived := c.arrived || go, waitSlots := putBits c.waitSlots 0 1 1 }
      leaveFence
      pure .stay) s

/-! ## TSTAMP, RNGD, CNTR, BRK -/

/-- TSTAMP (07 R173). -/
def execTstamp (o : SX) (s : State) : Host.Outcome State Fault Refusal :=
  plain (do
    let t ← (fun s => .ok (s.hub.tstamp, s) : Act Word)
    pushSoon (sRef o.d) (wide t)
    outwardQs [sRef o.d]) s

/-- The rotations of rng (26 R453). -/
def rngRot : List Nat := [13, 29, 41, 7, 53, 17, 37, 3]

/-- One round of rng. -/
def rngRound (k : Word) (xy : Word × Word) (i : Nat) : Word × Word :=
  let (x, y) := if i % 4 = 0 then (xy.1 ^^^ k, xy.2 + (k ^^^ 0x9E3779B97F4A7C15#64)) else xy
  let x := x + y
  (x, y.rotateLeft (rngRot.getD i 0) ^^^ x)

/-- rng(k, stream, pos) (R453). -/
def rng (k stream pos : Word) : Word :=
  let (x, y) := (List.range 8).foldl (rngRound k) (pos, stream)
  x + y.rotateLeft 32

/-- RNGOVF where one of n draws would be made at index 0xFF_FFFF (05 R113, 26 R454). -/
def drawCheck (n : Nat) : Act Unit := do
  let c ← cx
  trapIf (decide (0xFFFFFF < bits c.rngpos 0 24 + n)) .rngovf c.rngpos

/-- Takes n draws: the position before them (R454). -/
def takeDraws (n : Nat) : Act Word := do
  let c ← cx
  modCx fun c => { c with rngpos := setBits c.rngpos 0 24 (bits c.rngpos 0 24 + n) }
  pure c.rngpos

/-- RNGD (26 R454). -/
def execRngd (o : SX) (s : State) : Host.Outcome State Fault Refusal :=
  plain (do
    checkPush (sRef o.d)
    drawCheck 1
    outward
    let p ← takeDraws 1
    let c ← cx
    pushSoon (sRef o.d) (wide (rng c.rngkey c.rngstream p))) s

/-- CNTR: the event counter as it stands at the start of the cycle (26 R451). -/
def execCntr (o : SX) (s : State) : Host.Outcome State Fault Refusal :=
  plain (do
    let l ← curCell
    pushSoon (sRef o.d) (wide (Table.get l.evc 0 (o.b.toNat % 16)))
    outwardQs [sRef o.d]) s

/-- BRK in S (07 R175). -/
def execBrk (o : SX) (s : State) : Host.Outcome State Fault Refusal := plain (trapNow .brkpt (zext64 o.b)) s

/-- BRK in V (09 R219). -/
def execVBrk (o : VR) (s : State) : Host.Outcome State Fault Refusal :=
  vword o.gm (fun _ => trapNow .brkpt (zext64 o.b)) s

/-- BRK in M (15 R302). -/
def execMBrk (o : MS) (s : State) : Host.Outcome State Fault Refusal := plain (trapNow .brkpt (zext64 o.a)) s

/-- BRK in X (16 R325). -/
def execXBrk (o : MS) (s : State) : Host.Outcome State Fault Refusal := plain (trapNow .brkpt (zext64 o.a)) s

end Sys2Proof.Machine
end

