-- ==== Sys2Proof/Machine/Vector.lean ====
section
/-!
DEFINITION. The V stream: integer arithmetic, immediates, integer compares, integer reductions and scans, permutes, lane
moves and mask instructions (09 R194 to R200, R204, R206 to R210).
-/
namespace Sys2Proof.Machine

/-! ## Shared operations -/

/-- Two vector operands, A then B (R195). -/
def readVV (a b : BitVec 4) (ka kb : Bool) : Act (Vec × Vec) := do
  let rs := [(vRef a, ka), (vRef b, kb)]
  checkReads rs rs
  let x ← takeQ (vRef a) ka
  let y ← takeQ (vRef b) kb
  pure (x, y)

/-- Three vector operands, A, B and the pop of D (R195). -/
def readVVV (a b d : BitVec 4) (ka kb : Bool) : Act (Vec × Vec × Vec) := do
  let rs := [(vRef a, ka), (vRef b, kb), (vRef d, false)]
  checkReads rs rs
  let x ← takeQ (vRef a) ka
  let y ← takeQ (vRef b) kb
  let z ← takeQ (vRef d) false
  pure (x, y, z)

/-- One vector operand. -/
def readV (a : BitVec 4) (ka : Bool) : Act Vec := do
  checkRead (vRef a) 1
  takeQ (vRef a) ka

/-- An integer word of two operands: `f` takes the width in bits and the two elements (R197). -/
def vint (o : VR) (f : Nat → Nat → Nat → Nat) (s : State) : Host.Outcome State Fault Refusal :=
  vword o.gm (fun m => do
    let (a, b) ← readVV o.a o.b o.ka o.kb
    let n := etBytes o.et
    pushLat (vRef o.d) (maskVec m n fun i => f (8 * n) (elem a n i) (elem b n i)) 2) s

/-- An integer word of one operand. -/
def vint1 (o : VR) (f : Nat → Nat → Nat) (s : State) : Host.Outcome State Fault Refusal :=
  vword o.gm (fun m => do
    let a ← readV o.a o.ka
    let n := etBytes o.et
    pushLat (vRef o.d) (maskVec m n fun i => f (8 * n) (elem a n i)) 2) s

/-- An integer word of three operands, the third popped from D (R198). -/
def vint3 (o : VR) (f : Nat → Nat → Nat → Nat → Nat) (s : State) : Host.Outcome State Fault Refusal :=
  vword o.gm (fun m => do
    let (a, b, c) ← readVVV o.a o.b o.d o.ka o.kb
    let n := etBytes o.et
    pushLat (vRef o.d) (maskVec m n fun i => f (8 * n) (elem a n i) (elem b n i) (elem c n i)) 2) s

/-- A saturating word: SAT where a clamp changes an unmasked element (R197). -/
def vsat (o : VR) (f : Nat → Nat → Nat → Int × Bool) (s : State) : Host.Outcome State Fault Refusal :=
  vword o.gm (fun m => do
    let (a, b) ← readVV o.a o.b o.ka o.kb
    let n := etBytes o.et
    let r (i : Nat) := f (8 * n) (elem a n i) (elem b n i)
    pushLat (vRef o.d) (maskVec m n fun i => wrapN (8 * n) (r i).1) 2
    setVcsr { FpFlags.none with sat := (List.range (256 / n)).any fun i => lane m n i && (r i).2 }) s

/-- A word with an immediate (R199). -/
def vimm (o : VI) (f : Nat → Nat → Nat) (s : State) : Host.Outcome State Fault Refusal :=
  vword o.gm (fun m => do
    let a ← readV o.a o.ka
    let n := etBytes o.et
    pushLat (vRef o.d) (maskVec m n fun i => f (8 * n) (elem a n i)) 2) s

/-- The signed range of n bits. -/
def sMin (n : Nat) : Int := -(2 ^ (n - 1) : Nat)
def sMax (n : Nat) : Int := (2 ^ (n - 1) : Nat) - 1

/-- Writes a mask after `lat` cycles. -/
def writeMask (n : Nat) (v : Mask) (lat : Nat) : Act Unit := do
  let _ ← launchFlight (.mask n) (some (v.setWidth 2048)) (some lat)
  pure ()

/-- An integer compare: every mask bit of an element's bytes takes the relation, masked-off elements 0 (R200). -/
def vcompare (o : VR) (f : Nat → Nat → Nat → Bool) (s : State) : Host.Outcome State Fault Refusal :=
  vword o.gm (fun m => do
    let (a, b) ← readVV o.a o.b o.ka o.kb
    let n := etBytes o.et
    let r := maskOfBits fun k => lane m n (k / n) && f (8 * n) (elem a n (k / n)) (elem b n (k / n))
    writeMask (o.d.toNat % 8) r 2) s

/-- The elements of a vector that the mask lets through, an identity elsewhere. -/
def elemsOr (m : Mask) (n : Nat) (v : Vec) (ident : Nat) : List Nat :=
  (List.range (256 / n)).map fun i => if lane m n i then elem v n i else ident

/-- A reduction: 32 bits in lane 0, zero elsewhere, after 8 cycles (R204). -/
def reduce (o : VR) (f : Nat → Mask → Vec → Nat) (s : State) : Host.Outcome State Fault Refusal :=
  vcword o.gm (fun m => do
    let a ← readV o.a o.ka
    pushLat (vRef o.d) (vecOfN 4 1 fun _ => f (etBytes o.et) m a) 8) s

/-- The elements as signed numbers, an identity for masked-off ones. -/
def signedOr (m : Mask) (n : Nat) (v : Vec) (ident : Int) : List Int :=
  (List.range (256 / n)).map fun i => if lane m n i then signed (8 * n) (elem v n i) else ident

/-- RIMAX: the lowest index of the largest signed value among the unmasked elements (R204). -/
def indexMax (m : Mask) (n : Nat) (v : Vec) : Nat :=
  let step (best : Option (Nat × Int)) (i : Nat) : Option (Nat × Int) :=
    if lane m n i then
      let x := signed (8 * n) (elem v n i)
      match best with
      | none => some (i, x)
      | some (j, y) => if y < x then some (i, x) else some (j, y)
    else best
  match (List.range (256 / n)).foldl step none with
  | none => 0xFFFFFFFF
  | some (i, _) => i

/-- A mask operand; a pending write of it interlocks (04 R99). -/
def readMask (n : BitVec 4) : Act Mask := do
  maskReady (n.toNat % 8)
  let c ← cx
  pure (c.maskOf (n.toNat % 8))

/-- A mask word of two mask operands; bits under masked-off bytes are 0 (R210). -/
def mask2 (o : VR) (f : Mask → Mask → Mask) (s : State) : Host.Outcome State Fault Refusal :=
  vword o.gm (fun m => do
    let a ← readMask o.a
    let b ← readMask o.b
    writeMask (o.d.toNat % 8) (f a b &&& m) 2) s

/-- A permute of one vector and an a-queue count (R207). -/
def permuteBy (o : VR) (f : Nat → Vec → Nat → Nat → Nat) (s : State) : Host.Outcome State Fault Refusal :=
  vword o.gm (fun m => do
    let rs := [(vRef o.a, o.ka), (aRef .v o.b, o.kb)]
    checkReads rs rs
    let a ← takeQ (vRef o.a) o.ka
    let b ← takeQ (aRef .v o.b) o.kb
    let n := etBytes o.et
    pushLat (vRef o.d) (maskVec m n fun i => f n a (b.setWidth 64).toNat i) 3) s

/-- The element positions that a mask selects. -/
def selected (m : Mask) (n : Nat) : List Nat := (List.range (256 / n)).filter fun i => lane m n i

/-! ## Integer arithmetic (R197, R198) -/

/-- VADD (R197). -/
def execVadd (o : VR) (s : State) : Host.Outcome State Fault Refusal := vint o (fun n a b => (a + b) % 2 ^ n) s

/-- VSUB (R197). -/
def execVsub (o : VR) (s : State) : Host.Outcome State Fault Refusal := vint o (fun n a b => (a + 2 ^ n - b) % 2 ^ n) s

/-- VMUL (R197). -/
def execVmul (o : VR) (s : State) : Host.Outcome State Fault Refusal := vint o (fun n a b => a * b % 2 ^ n) s

/-- VMULH (R197). -/
def execVmulh (o : VR) (s : State) : Host.Outcome State Fault Refusal := vint o (fun n a b => wrapN n (signed n a * signed n b / (2 ^ n : Nat))) s

/-- VMULHU (R197). -/
def execVmulhu (o : VR) (s : State) : Host.Outcome State Fault Refusal := vint o (fun n a b => a * b / 2 ^ n) s

/-- VMAD (R197): the addend is popped from D. -/
def execVmad (o : VR) (s : State) : Host.Outcome State Fault Refusal :=
  vint3 o (fun n a b c => (c + a * b) % 2 ^ n) s

/-- VMIN (R197). -/
def execVmin (o : VR) (s : State) : Host.Outcome State Fault Refusal := vint o (fun n a b => if signed n a ≤ signed n b then a else b) s

/-- VMAX (R197). -/
def execVmax (o : VR) (s : State) : Host.Outcome State Fault Refusal := vint o (fun n a b => if signed n b ≤ signed n a then a else b) s

/-- VMINU (R197). -/
def execVminu (o : VR) (s : State) : Host.Outcome State Fault Refusal := vint o (fun _ a b => min a b) s

/-- VMAXU (R197). -/
def execVmaxu (o : VR) (s : State) : Host.Outcome State Fault Refusal := vint o (fun _ a b => max a b) s

/-- VABS (R197): the most negative value stays. -/
def execVabs (o : VR) (s : State) : Host.Outcome State Fault Refusal := vint1 o (fun n a => wrapN n (signed n a).natAbs) s

/-- VAND (R197). -/
def execVand (o : VR) (s : State) : Host.Outcome State Fault Refusal := vint o (fun _ a b => (BitVec.ofNat 32 a &&& BitVec.ofNat 32 b).toNat) s

/-- VOR (R197). -/
def execVor (o : VR) (s : State) : Host.Outcome State Fault Refusal := vint o (fun _ a b => (BitVec.ofNat 32 a ||| BitVec.ofNat 32 b).toNat) s

/-- VXOR (R197). -/
def execVxor (o : VR) (s : State) : Host.Outcome State Fault Refusal := vint o (fun _ a b => (BitVec.ofNat 32 a ^^^ BitVec.ofNat 32 b).toNat) s

/-- VANDN (R197). -/
def execVandn (o : VR) (s : State) : Host.Outcome State Fault Refusal := vint o (fun _ a b => (BitVec.ofNat 32 a &&& ~~~BitVec.ofNat 32 b).toNat) s

/-- VSHL (R197). -/
def execVshl (o : VR) (s : State) : Host.Outcome State Fault Refusal := vint o (fun n a b => a * 2 ^ (b % n) % 2 ^ n) s

/-- VSHR (R197). -/
def execVshr (o : VR) (s : State) : Host.Outcome State Fault Refusal := vint o (fun n a b => a / 2 ^ (b % n)) s

/-- VSRA (R197). -/
def execVsra (o : VR) (s : State) : Host.Outcome State Fault Refusal := vint o (fun n a b => wrapN n (signed n a / (2 ^ (b % n) : Nat))) s

/-- VFSL (R197, R198): the count is popped from D. -/
def execVfsl (o : VR) (s : State) : Host.Outcome State Fault Refusal :=
  vint3 o (fun n a b c => (a * 2 ^ n + b) * 2 ^ (c % n) / 2 ^ n % 2 ^ n) s

/-- VFSR (R197, R198). -/
def execVfsr (o : VR) (s : State) : Host.Outcome State Fault Refusal :=
  vint3 o (fun n a b c => (a * 2 ^ n + b) / 2 ^ (c % n) % 2 ^ n) s

/-- VCLZ (R197). -/
def execVclz (o : VR) (s : State) : Host.Outcome State Fault Refusal := vint1 o (fun n a => clzFrom a n) s

/-- VPOPC (R197). -/
def execVpopc (o : VR) (s : State) : Host.Outcome State Fault Refusal := vint1 o (fun n a => popFrom a n) s

/-- VADDS (R197). -/
def execVadds (o : VR) (s : State) : Host.Outcome State Fault Refusal :=
  vsat o (fun n a b => clampInt (sMin n) (sMax n) (signed n a + signed n b)) s

/-- VSUBS (R197). -/
def execVsubs (o : VR) (s : State) : Host.Outcome State Fault Refusal :=
  vsat o (fun n a b => clampInt (sMin n) (sMax n) (signed n a - signed n b)) s

/-- VADDSU (R197). -/
def execVaddsu (o : VR) (s : State) : Host.Outcome State Fault Refusal :=
  vsat o (fun n a b => clampInt 0 ((2 ^ n : Nat) - 1) ((a : Int) + b)) s

/-- VSUBSU (R197). -/
def execVsubsu (o : VR) (s : State) : Host.Outcome State Fault Refusal :=
  vsat o (fun n a b => clampInt 0 ((2 ^ n : Nat) - 1) ((a : Int) - b)) s

/-- VAVGU (R197). -/
def execVavgu (o : VR) (s : State) : Host.Outcome State Fault Refusal := vint o (fun _ a b => (a + b + 1) / 2) s

/-! ## Immediates (R199) -/

/-- VADDI (R199). -/
def execVaddi (o : VI) (s : State) : Host.Outcome State Fault Refusal := vimm o (fun n a => wrapN n (a + o.imm.toInt)) s

/-- VANDI (R199). -/
def execVandi (o : VI) (s : State) : Host.Outcome State Fault Refusal :=
  vimm o (fun _ a => (BitVec.ofNat 32 a &&& o.imm.signExtend 32).toNat) s

/-- VSHLI (R199). -/
def execVshli (o : VI) (s : State) : Host.Outcome State Fault Refusal := vimm o (fun n a => a * 2 ^ bits o.imm 0 5 % 2 ^ n) s

/-- VSHRI (R199). -/
def execVshri (o : VI) (s : State) : Host.Outcome State Fault Refusal := vimm o (fun _ a => a / 2 ^ bits o.imm 0 5) s

/-- VSRAI (R199). -/
def execVsrai (o : VI) (s : State) : Host.Outcome State Fault Refusal :=
  vimm o (fun n a => wrapN n (signed n a / (2 ^ bits o.imm 0 5 : Nat))) s

/-! ## Integer compares (R200) -/

/-- VCMP.EQ (R200). -/
def execVcmpEq (o : VR) (s : State) : Host.Outcome State Fault Refusal := vcompare o (fun _ a b => a == b) s

/-- VCMP.NE (R200). -/
def execVcmpNe (o : VR) (s : State) : Host.Outcome State Fault Refusal := vcompare o (fun _ a b => a != b) s

/-- VCMP.LT (R200). -/
def execVcmpLt (o : VR) (s : State) : Host.Outcome State Fault Refusal := vcompare o (fun n a b => decide (signed n a < signed n b)) s

/-- VCMP.GE (R200). -/
def execVcmpGe (o : VR) (s : State) : Host.Outcome State Fault Refusal := vcompare o (fun n a b => decide (signed n b ≤ signed n a)) s

/-- VCMP.LTU (R200). -/
def execVcmpLtu (o : VR) (s : State) : Host.Outcome State Fault Refusal := vcompare o (fun _ a b => decide (a < b)) s

/-- VCMP.GEU (R200). -/
def execVcmpGeu (o : VR) (s : State) : Host.Outcome State Fault Refusal := vcompare o (fun _ a b => decide (b ≤ a)) s

/-! ## Integer reductions and scans (R204, R206) -/

/-- RADD (R204). -/
def execRadd (o : VR) (s : State) : Host.Outcome State Fault Refusal :=
  reduce o (fun n m v => wrapN 32 ((signedOr m n v 0).foldl (· + ·) 0)) s

/-- RMIN (R204). -/
def execRmin (o : VR) (s : State) : Host.Outcome State Fault Refusal :=
  reduce o (fun n m v => wrapN 32 ((signedOr m n v (sMax (8 * n))).foldl min (sMax (8 * n)))) s

/-- RMAX (R204). -/
def execRmax (o : VR) (s : State) : Host.Outcome State Fault Refusal :=
  reduce o (fun n m v => wrapN 32 ((signedOr m n v (sMin (8 * n))).foldl max (sMin (8 * n)))) s

/-- RMINU (R204). -/
def execRminu (o : VR) (s : State) : Host.Outcome State Fault Refusal :=
  reduce o (fun n m v => (elemsOr m n v (2 ^ (8 * n) - 1)).foldl min (2 ^ (8 * n) - 1)) s

/-- RMAXU (R204). -/
def execRmaxu (o : VR) (s : State) : Host.Outcome State Fault Refusal :=
  reduce o (fun n m v => (elemsOr m n v 0).foldl max 0) s

/-- RAND (R204). -/
def execRand (o : VR) (s : State) : Host.Outcome State Fault Refusal :=
  reduce o (fun n m v => (elemsOr m n v (2 ^ (8 * n) - 1)).foldl (fun x y => (BitVec.ofNat 32 x &&& BitVec.ofNat 32 y).toNat) (2 ^ (8 * n) - 1)) s

/-- ROR (R204). -/
def execVredRor (o : VR) (s : State) : Host.Outcome State Fault Refusal :=
  reduce o (fun n m v => (elemsOr m n v 0).foldl (fun x y => (BitVec.ofNat 32 x ||| BitVec.ofNat 32 y).toNat) 0) s

/-- RXOR (R204). -/
def execRxor (o : VR) (s : State) : Host.Outcome State Fault Refusal :=
  reduce o (fun n m v => (elemsOr m n v 0).foldl (fun x y => (BitVec.ofNat 32 x ^^^ BitVec.ofNat 32 y).toNat) 0) s

/-- RIMAX (R204). -/
def execRimax (o : VR) (s : State) : Host.Outcome State Fault Refusal :=
  reduce o (fun n m v => indexMax m n v) s

/-- The running sums of a list. -/
def prefixSums (acc : Nat) : List Nat → List Nat
  | [] => []
  | x :: r => (acc + x) :: prefixSums (acc + x) r

/-- VSCAN (R206): masked-off elements enter as 0 and their own results are 0. -/
def execVscan (o : VR) (s : State) : Host.Outcome State Fault Refusal :=
  vcword o.gm (fun m => do
    let a ← readV o.a o.ka
    let n := etBytes o.et
    let y := prefixSums 0 (elemsOr m n a 0)
    pushLat (vRef o.d) (maskVec m n fun i => y.getD i 0 % 2 ^ (8 * n)) 8) s

/-! ## Permutes (R207, R208) -/

/-- VPERM (R207). -/
def execVperm (o : VR) (s : State) : Host.Outcome State Fault Refusal :=
  vword o.gm (fun m => do
    let (a, b) ← readVV o.a o.b o.ka o.kb
    let n := etBytes o.et
    pushLat (vRef o.d) (maskVec m n fun i => elem a n (elem b n i % (256 / n))) 3) s

/-- VSLUP (R207). -/
def execVslup (o : VR) (s : State) : Host.Outcome State Fault Refusal :=
  permuteBy o (fun n a k i => if k ≤ i then elem a n (i - k) else 0) s

/-- VSLDN (R207). -/
def execVsldn (o : VR) (s : State) : Host.Outcome State Fault Refusal :=
  permuteBy o (fun n a k i => if i + k < 256 / n then elem a n (i + k) else 0) s

/-- VCMPR (R207): B names a mask. -/
def execVcmpr (o : VR) (s : State) : Host.Outcome State Fault Refusal :=
  vword o.gm (fun m => do
    let q ← readMask o.b
    let a ← readV o.a o.ka
    let n := etBytes o.et
    let l := (selected q n).map fun i => elem a n i
    pushLat (vRef o.d) (maskVec m n fun i => l.getD i 0) 3) s

/-- VEXPD (R207): B names a mask. -/
def execVexpd (o : VR) (s : State) : Host.Outcome State Fault Refusal :=
  vword o.gm (fun m => do
    let q ← readMask o.b
    let a ← readV o.a o.ka
    let n := etBytes o.et
    let l := selected q n
    pushLat (vRef o.d) (maskVec m n fun i => if lane q n i then elem a n (l.idxOf i) else 0) 3) s

/-- VSPLT (R207). -/
def execVsplt (o : VR) (s : State) : Host.Outcome State Fault Refusal :=
  permuteBy o (fun n a k _ => elem a n (k % (256 / n))) s

/-! ## Lane moves (R209) -/

/-- VINS (R209): reads the channel in B. -/
def execVins (o : VR) (s : State) : Host.Outcome State Fault Refusal :=
  vword o.gm (fun m => do
    let rs := [(vRef o.a, o.ka), (.chan (o.b.toNat % 8), o.kb)]
    checkReads rs rs
    let a ← takeQ (vRef o.a) o.ka
    let c ← takeQ (.chan (o.b.toNat % 8)) o.kb
    let n := etBytes o.et
    pushLat (vRef o.d) (maskVec m n fun i => if i = 0 then elem c n 0 else elem a n (i - 1)) 3
    outward) s

/-- VEXT (R209): pushes an element to the channel in D. -/
def execVext (o : VR) (s : State) : Host.Outcome State Fault Refusal :=
  vword o.gm (fun _ => do
    let rs := [(vRef o.a, o.ka), (aRef .v o.b, o.kb)]
    checkReads rs rs
    let a ← takeQ (vRef o.a) o.ka
    let k ← takeQ (aRef .v o.b) o.kb
    let n := etBytes o.et
    pushLat (.chan (o.d.toNat % 8)) (BitVec.ofNat 2048 (elem a n ((k.setWidth 64).toNat % (256 / n)))) 3
    outward) s

/-- VBCST (R209): A names a V a queue. -/
def execVbcst (o : VR) (s : State) : Host.Outcome State Fault Refusal :=
  vword o.gm (fun m => do
    let a ← read1 (aRef .v o.a) o.ka
    let n := etBytes o.et
    pushLat (vRef o.d) (maskVec m n fun _ => a.toNat) 3) s

/-! ## Masks (R210) -/

/-- MAND (R210). -/
def execMand (o : VR) (s : State) : Host.Outcome State Fault Refusal := mask2 o (fun a b => a &&& b) s

/-- MOR (R210). -/
def execMor (o : VR) (s : State) : Host.Outcome State Fault Refusal := mask2 o (fun a b => a ||| b) s

/-- MXOR (R210). -/
def execMxor (o : VR) (s : State) : Host.Outcome State Fault Refusal := mask2 o (fun a b => a ^^^ b) s

/-- MANDN (R210). -/
def execMandn (o : VR) (s : State) : Host.Outcome State Fault Refusal := mask2 o (fun a b => a &&& ~~~b) s

/-- MNOT (R210). -/
def execMnot (o : VR) (s : State) : Host.Outcome State Fault Refusal :=
  vword o.gm (fun m => do
    let a ← readMask o.a
    writeMask (o.d.toNat % 8) (~~~a &&& m) 2) s

/-- MPOP (R210): pushes to a V a queue. -/
def execMpop (o : VR) (s : State) : Host.Outcome State Fault Refusal :=
  vword o.gm (fun m => do
    let a ← readMask o.a
    pushLat (aRef .v o.d) (BitVec.ofNat 2048 (popFrom (a &&& m).toNat 256)) 2) s

/-- MSET (R210). -/
def execMset (o : VR) (s : State) : Host.Outcome State Fault Refusal :=
  vword o.gm (fun m => writeMask (o.d.toNat % 8) m 2) s

/-- MCLR (R210). -/
def execMclr (o : VR) (s : State) : Host.Outcome State Fault Refusal :=
  vword o.gm (fun _ => writeMask (o.d.toNat % 8) 0 2) s

/-- MFROMV (R210). -/
def execMfromv (o : VR) (s : State) : Host.Outcome State Fault Refusal :=
  vword o.gm (fun m => do
    let a ← readV o.a o.ka
    writeMask (o.d.toNat % 8) (maskOfBits (fun k => elem a 1 k != 0) &&& m) 2) s

/-- MTOV (R210). -/
def execMtov (o : VR) (s : State) : Host.Outcome State Fault Refusal :=
  vword o.gm (fun m => do
    let a ← readMask o.a
    pushLat (vRef o.d) (vecOf 1 fun i => if bitOf (a &&& m) i then 0xFF else 0) 2) s

end Sys2Proof.Machine
end

