-- ==== Sys2Proof/Machine/VectorFloat.lean ====
section
/-!
DEFINITION. The V stream: floating-point arithmetic, special functions, float compares, conversions, the float reduction
and the float scan (05 R111 to R118, 09 R200 to R206).
-/
namespace Sys2Proof.Machine

/-! ## Lanes of a float word -/

/-- The float format of an element type: 01 BF16, 11 FP16, 10 FP32 (04 R91). -/
def fmtOfEt (e : BitVec 2) : Fmt :=
  match e.toNat with
  | 1 => bf16
  | 3 => fp16
  | _ => fp32

/-- The rounding mode of arithmetic: stochastic acts as nearest even (05 R111). -/
def arithRm (rm : Nat) : Nat := if rm = 1 then 1 else 0

/-- The codes of all elements and the flags of the unmasked ones. -/
def lanesOf (m : Mask) (n : Nat) (f : Nat → Coded) : Vec × FpFlags :=
  let rs := (List.range (256 / n)).map fun i => if lane m n i then f i else (0, FpFlags.none)
  (vecOfList n (rs.map (·.1)), FpFlags.all (rs.map (·.2)))

/-- Pushes lanes with an exposed latency and sets their flags (05 R112). -/
def pushLanes (d : BitVec 4) (m : Mask) (n lat : Nat) (f : Nat → Coded) : Act Unit := do
  let (v, fl) := lanesOf m n f
  pushLat (vRef d) v lat
  setVcsr fl

/-- A float word of two operands; `f` takes the format and the rounding mode (R201). -/
def vfp (o : VR) (f : Fmt → Nat → Nat → Nat → Coded) (s : State) : Host.Outcome State Fault Refusal :=
  vcword o.gm (fun m => do
    let (a, b) ← readVV o.a o.b o.ka o.kb
    let c ← cx
    let n := etBytes o.et
    pushLanes o.d m n 4 fun i => f (fmtOfEt o.et) (arithRm c.rm) (elem a n i) (elem b n i)) s

/-- A float word of one operand with latency `lat`. -/
def vfp1 (o : VR) (lat : Nat) (f : Fmt → Nat → Nat → Coded) (s : State) : Host.Outcome State Fault Refusal :=
  vcword o.gm (fun m => do
    let a ← readV o.a o.ka
    let c ← cx
    let n := etBytes o.et
    pushLanes o.d m n lat fun i => f (fmtOfEt o.et) (arithRm c.rm) (elem a n i)) s

/-! ## FALU (R201, R202) -/

/-- FADD (R201). -/
def execFadd (o : VR) (s : State) : Host.Outcome State Fault Refusal := vfp o Fmt.add s

/-- FSUB (R201). -/
def execFsub (o : VR) (s : State) : Host.Outcome State Fault Refusal := vfp o Fmt.sub s

/-- FMUL (R201). -/
def execFmul (o : VR) (s : State) : Host.Outcome State Fault Refusal := vfp o Fmt.mul s

/-- FMA (R201): the addend is popped from D. -/
def execFma (o : VR) (s : State) : Host.Outcome State Fault Refusal :=
  vcword o.gm (fun m => do
    let (a, b, c) ← readVVV o.a o.b o.d o.ka o.kb
    let x ← cx
    let n := etBytes o.et
    pushLanes o.d m n 4 fun i =>
      (fmtOfEt o.et).fma (arithRm x.rm) (elem a n i) (elem b n i) (elem c n i)) s

/-- The lesser or greater of two codes (R202). -/
def pickFp (greater : Bool) (f : Fmt) (_rm a b : Nat) : Coded :=
  let x := f.value a
  let y := f.value b
  let fl := if x.isSig || y.isSig then fpNv else FpFlags.none
  if x.isNan && y.isNan then (f.nan, fl)
  else if x.isNan then (b, fl)
  else if y.isNan then (a, fl)
  else
    let less := numLt x y || (numEq x y && x.isNeg)
    (if less == greater then b else a, fl)

/-- FMIN (R202). -/
def execFmin (o : VR) (s : State) : Host.Outcome State Fault Refusal := vfp o (pickFp false) s

/-- FMAX (R202). -/
def execFmax (o : VR) (s : State) : Host.Outcome State Fault Refusal := vfp o (pickFp true) s

/-- A code with its sign cleared or inverted; a NaN gives the canonical NaN (R201). -/
def withSign (clear : Bool) (f : Fmt) (_rm a : Nat) : Coded :=
  if (f.value a).isNan then (f.nan, FpFlags.none)
  else if f.signBit ≤ a then (a - f.signBit, FpFlags.none)
  else (if clear then a else a + f.signBit, FpFlags.none)

/-- FABS (R201). -/
def execFabs (o : VR) (s : State) : Host.Outcome State Fault Refusal := vfp1 o 4 (withSign true) s

/-- FNEG (R201). -/
def execFneg (o : VR) (s : State) : Host.Outcome State Fault Refusal := vfp1 o 4 (withSign false) s

/-! ## FSPEC: the exact value rounded once (R203) -/

/-- A NaN operand of a float function (R114). -/
def nanCoded (f : Fmt) (sig : Bool) : Coded := (f.nan, if sig then fpNv else FpFlags.none)

/-- An infinity with flags. -/
def infCoded (f : Fmt) (neg : Bool) (fl : FpFlags) : Coded := (signed1 f neg (f.maxMag + 1), fl)

def fpDz : FpFlags := { FpFlags.none with dz := true }

/-- 1/a. -/
def recip (f : Fmt) (rm a : Nat) : Coded :=
  match f.value a with
  | .nan sg => nanCoded f sg
  | .inf n => (signed1 f n 0, FpFlags.none)
  | .fin n m e =>
    if m = 0 then infCoded f n fpDz
    else
      let (q, k, st) := divBits 1 m 64
      f.encode rm 0 .ieee st (.fin n q (k - e))

/-- An even exponent at or below e, with the mantissa that goes with it. -/
def evenExp (m : Nat) (e : Int) : Nat × Int := if e % 2 = 0 then (m, e) else (2 * m, e - 1)

/-- 1/√a. -/
def recipSqrt (f : Fmt) (rm a : Nat) : Coded :=
  match f.value a with
  | .nan sg => nanCoded f sg
  | .inf n => if n then (f.nan, fpNv) else (0, FpFlags.none)
  | .fin n m e =>
    if m = 0 then infCoded f n fpDz
    else if n then (f.nan, fpNv)
    else
      let (m, e) := evenExp m e
      let r := isqrt (2 ^ 256 / m)
      f.encode rm 0 .ieee (r * r * m != 2 ^ 256) (.fin false r (-128 - e / 2))

/-- √a. -/
def sqrtFp (f : Fmt) (rm a : Nat) : Coded :=
  match f.value a with
  | .nan sg => nanCoded f sg
  | .inf n => if n then (f.nan, fpNv) else infCoded f false FpFlags.none
  | .fin n m e =>
    if m = 0 then (a, FpFlags.none)
    else if n then (f.nan, fpNv)
    else
      let (r, k, st) := sqrtBits m e 64
      f.encode rm 0 .ieee st (.fin false r k)

/-- The bits of working precision of 2^x and log2 x: far more than any operand needs for its rounding to be decided. -/
def workBits : Nat := 320

/-- 2^(x / 2^k) over 2^workBits for the low k bits of x, from the top bit down; `root` is 2^(1/2), 2^(1/4), … in turn. -/
def pow2Frac (x : Nat) : Nat → Nat → Nat → Nat
  | 0, _, acc => acc
  | k + 1, root, acc =>
    pow2Frac x k (isqrt (root * 2 ^ workBits)) (if x / 2 ^ k % 2 = 1 then acc * root / 2 ^ workBits else acc)

/-- 2^a. A magnitude below 2^−40 leaves a value next to 1, and an exponent beyond ±2000 over- or underflows. -/
def exp2Fp (f : Fmt) (rm a : Nat) : Coded :=
  match f.value a with
  | .nan sg => nanCoded f sg
  | .inf n => if n then (0, FpFlags.none) else infCoded f false FpFlags.none
  | .fin n m e =>
    if m = 0 then f.encode rm 0 .ieee false (.fin false 1 0)
    else if e + (bitLen m : Int) < -40 then
      f.encode rm 0 .ieee true (if n then .fin false (2 ^ 64 - 1) (-64) else .fin false (2 ^ 64) (-64))
    else if 0 ≤ e ∨ 11 < e + (bitLen m : Int) then
      let k : Int := if 11 < e + (bitLen m : Int) then 2000 else (m * 2 ^ e.toNat : Nat)
      f.encode rm 0 .ieee false (.fin false 1 (if n then -k else k))
    else
      let k := (-e).toNat
      let x : Int := if n then -(m : Int) else m
      let whole := x / (2 ^ k : Nat)
      let frac := (x % (2 ^ k : Nat)).toNat
      if frac = 0 then f.encode rm 0 .ieee false (.fin false 1 whole)
      else
        let root := isqrt (2 * 2 ^ workBits * 2 ^ workBits)
        let r := pow2Frac frac k root (2 ^ workBits)
        f.encode rm 0 .ieee true (.fin false r (whole - workBits))

/-- The first k bits of log2 of x / 2^workBits, x between 1 and 2. -/
def log2Bits : Nat → Nat → Nat → Nat
  | 0, _, acc => acc
  | k + 1, x, acc =>
    let y := x * x / 2 ^ workBits
    if 2 * 2 ^ workBits ≤ y then log2Bits k (y / 2) (2 * acc + 1) else log2Bits k y (2 * acc)

/-- log2 a. -/
def log2Fp (f : Fmt) (rm a : Nat) : Coded :=
  match f.value a with
  | .nan sg => nanCoded f sg
  | .inf n => if n then (f.nan, fpNv) else infCoded f false FpFlags.none
  | .fin n m e =>
    if m = 0 then infCoded f true fpDz
    else if n then (f.nan, fpNv)
    else
      let k := bitLen m - 1
      let whole := e + (k : Int)
      if m = 2 ^ k then f.encode rm 0 .ieee false (ofInt false whole 0)
      else
        let fr := log2Bits 128 (m * 2 ^ (workBits - k)) 0
        let t : Int := whole * (2 ^ 128 : Nat) + fr
        if 0 ≤ t then f.encode rm 0 .ieee true (.fin false t.toNat (-128))
        else f.encode rm 0 .ieee true (.fin true ((-t).toNat - 1) (-128))

/-- FRCP (R203). -/
def execFrcp (o : VR) (s : State) : Host.Outcome State Fault Refusal := vfp1 o 8 recip s

/-- FRSQ (R203). -/
def execFrsq (o : VR) (s : State) : Host.Outcome State Fault Refusal := vfp1 o 8 recipSqrt s

/-- FSQRT (R203). -/
def execFsqrt (o : VR) (s : State) : Host.Outcome State Fault Refusal := vfp1 o 8 sqrtFp s

/-- FEXP2 (R203). -/
def execFexp2 (o : VR) (s : State) : Host.Outcome State Fault Refusal := vfp1 o 8 exp2Fp s

/-- FLOG2 (R203). -/
def execFlog2 (o : VR) (s : State) : Host.Outcome State Fault Refusal := vfp1 o 8 log2Fp s

/-! ## Float compares (R200) -/

/-- A float compare: the relation and whether it sets NV. -/
def vcompareFp (o : VR) (f : FpNum → FpNum → Bool × Bool) (s : State) : Host.Outcome State Fault Refusal :=
  vword o.gm (fun m => do
    let (a, b) ← readVV o.a o.b o.ka o.kb
    let n := etBytes o.et
    let fm := fmtOfEt o.et
    let r (i : Nat) := f (fm.value (elem a n i)) (fm.value (elem b n i))
    writeMask (o.d.toNat % 8) (maskOfBits fun k => lane m n (k / n) && (r (k / n)).1) 2
    setVcsr { FpFlags.none with nv := (List.range (256 / n)).any fun i => lane m n i && (r i).2 }) s

/-- Either number is a NaN. -/
def eitherNan (x y : FpNum) : Bool := x.isNan || y.isNan

/-- VCMP.FEQ (R200). -/
def execVcmpFeq (o : VR) (s : State) : Host.Outcome State Fault Refusal :=
  vcompareFp o (fun x y => (!eitherNan x y && numEq x y, x.isSig || y.isSig)) s

/-- VCMP.FLT (R200). -/
def execVcmpFlt (o : VR) (s : State) : Host.Outcome State Fault Refusal :=
  vcompareFp o (fun x y => (!eitherNan x y && numLt x y, eitherNan x y)) s

/-- VCMP.FLE (R200). -/
def execVcmpFle (o : VR) (s : State) : Host.Outcome State Fault Refusal :=
  vcompareFp o (fun x y => (!eitherNan x y && (numLt x y || numEq x y), eitherNan x y)) s

/-- VCMP.FUN (R200). -/
def execVcmpFun (o : VR) (s : State) : Host.Outcome State Fault Refusal :=
  vcompareFp o (fun x y => (eitherNan x y, false)) s

/-! ## CVT (05 R115, R116) -/

/-- An integer clamped to the signed range of n bits: a clamped result is inexact (R115 codes 20, 21; DEDUCED, log 73). -/
def clampTo (n : Nat) (x : Int) : Coded :=
  let (y, ch) := clampInt (sMin n) (sMax n) x
  (wrapN n y, { FpFlags.none with sat := ch, nx := ch })

/-- FP32 to E4M3: an infinity gives ±448 with OF, and NX (R115 code 4; DEDUCED, log 73). -/
def toE4m3 (rm u x : Nat) : Coded :=
  match fp32.value x with
  | .inf n => (signed1 e4m3 n e4m3.maxMag, { FpFlags.none with ofl := true, nx := true })
  | v => e4m3.encode rm u .saturate false v

/-- One element of a scalar conversion (R115). -/
def cvtElem (code rm u x : Nat) : Coded :=
  match code with
  | 0 => bf16.encode rm u .ieee false (fp32.value x)
  | 1 => fp16.encode rm u .ieee false (fp32.value x)
  | 2 => fp32.encode rm u .ieee false (bf16.value x)
  | 3 => fp32.encode rm u .ieee false (fp16.value x)
  | 4 => toE4m3 rm u x
  | 5 => e5m2.encode rm u .saturate false (fp32.value x)
  | 6 => fp32.encode rm u .ieee false (e4m3.value x)
  | 7 => fp32.encode rm u .ieee false (e5m2.value x)
  | 12 => toIntCode 32 true rm u (fp32.value x)
  | 13 => toIntCode 32 false rm u (fp32.value x)
  | 14 => fp32.encode rm u .ieee false (intNum (signed 32 x))
  | 15 => fp32.encode rm u .ieee false (intNum x)
  | 16 => toIntCode 8 true rm u (fp32.value x)
  | 17 => fp32.encode rm u .ieee false (intNum (signed 8 x))
  | 18 => toIntCode 16 true rm u (fp32.value x)
  | 19 => fp32.encode rm u .ieee false (intNum (signed 16 x))
  | 20 => clampTo 8 (signed 32 x)
  | 21 => clampTo 16 (signed 32 x)
  | 22 => (wrapN 32 (signed 8 x), FpFlags.none)
  | 23 => (x, FpFlags.none)
  | 24 => (wrapN 32 (signed 16 x), FpFlags.none)
  | 25 => (x, FpFlags.none)
  | 26 => toIntCode 8 false rm u (fp32.value x)
  | _ => fp32.encode rm u .ieee false (intNum x)

/-- A block element rounded to FP32: a NaN sets NV, overflow saturates (R115 codes 9 and 11). -/
def fromBlock (rm u : Nat) (x : FpNum) : Coded :=
  match x with
  | .nan _ => (fp32.nan, fpNv)
  | v => fp32.encode rm u .saturate false v

/-- The number of element i of two MXE4M3 blocks of a vector (R116). -/
def mxElem (v : Vec) (i : Nat) : FpNum := mxValue (elem v 1 (64 + i / 32)) (elem v 1 i)

/-- The side word of block b of two SXP4 blocks of a vector. -/
def sxSide (v : Vec) (b : Nat) : Nat := elem v 4 (8 + b)

/-- The number of element i of two SXP4 blocks: a side word with MBZ bits makes it +0 (R116). -/
def sxElem (v : Vec) (i : Nat) : FpNum :=
  let side := sxSide v (i / 32)
  if side / 65536 ≠ 0 then .fin false 0 0 else sxValue side (elem v 1 (i / 2) / 16 ^ (i % 2) % 16)

/-- FP32 to MXE4M3 over 64 elements: masked-off elements enter as +0 (R116, R117). -/
def cvtToMx (m : Mask) (v : Vec) : Vec × FpFlags :=
  let blk (b : Nat) := encodeMx ((List.range 32).map fun i =>
    if lane m 1 (32 * b + i) then fp32.value (elem v 4 (32 * b + i)) else .fin false 0 0)
  let b0 := blk 0
  let b1 := blk 1
  (vecOfList 1 (b0.2.1 ++ b1.2.1 ++ [b0.1, b1.1]), b0.2.2.or b1.2.2)

/-- Pairs of 4-bit codes as bytes, the even element low. -/
def packNibbles : List Nat → List Nat
  | x :: y :: r => (x + 16 * y) :: packNibbles r
  | _ => []

/-- A 32-bit number as four bytes. -/
def bytes4 (x : Nat) : List Nat := [x % 256, x / 256 % 256, x / 65536 % 256, x / 16777216 % 256]

/-- FP32 to SXP4 over 64 elements (R116, R118). -/
def cvtToSx (m : Mask) (v : Vec) : Vec × FpFlags :=
  let blk (b : Nat) := encodeSx ((List.range 32).map fun i =>
    if lane m 1 ((32 * b + i) / 2) then fp32.value (elem v 4 (32 * b + i)) else .fin false 0 0)
  let b0 := blk 0
  let b1 := blk 1
  (vecOfList 1 (packNibbles (b0.2.1 ++ b1.2.1) ++ bytes4 b0.1 ++ bytes4 b1.1), b0.2.2.or b1.2.2)

/-- The 16-bit random value of element i: draw i / 4 from the position p, bits [16 (i mod 4) + 15 : 16 (i mod 4)] (R113). -/
def drawOf (c : Ctx) (p : Word) (i : Nat) : Nat :=
  bits (rng c.rngkey c.rngstream (p + BitVec.ofNat 64 (i / 4))) (16 * (i % 4)) 16

/-- CVT over 64 elements (R116): the converted vector and its flags. -/
def cvtVec (code rm : Nat) (u : Nat → Nat) (m : Mask) (v : Vec) : Vec × FpFlags :=
  match code with
  | 8 => cvtToMx m v
  | 9 => lanesOf m 4 fun i => fromBlock rm (u i) (mxElem v i)
  | 10 => cvtToSx m v
  | 11 =>
    let (r, fl) := lanesOf m 4 fun i => fromBlock rm (u i) (sxElem v i)
    let bad := (List.range 64).any fun i => lane m 4 i && sxSide v (i / 32) / 65536 != 0
    (r, if bad then fl.or fpNv else fl)
  | _ =>
    let (sw, dw) := cvtBytes code
    let rs := (List.range 64).map fun i =>
      if lane m dw i then cvtElem code rm (u i) (elem v sw i) else (0, FpFlags.none)
    (vecOfList dw (rs.map (·.1)), FpFlags.all (rs.map (·.2)))

/-- CVT (R116): a stochastic conversion takes 16 draws, or traps RNGOVF before any (R113). -/
def execCvt (o : VR) (code : BitVec 5) (s : State) : Host.Outcome State Fault Refusal :=
  vcword o.gm (fun m => do
    let a ← readV o.a o.ka
    checkPush (vRef o.d)
    let c ← cx
    if c.rm = 2 ∧ code ≠ 8#5 ∧ code ≠ 10#5 then
      drawCheck 16
      outward
      let p ← takeDraws 16
      let (v, fl) := cvtVec code.toNat 2 (drawOf c p) m a
      pushLat (vRef o.d) v 3
      setVcsr fl
    else
      let (v, fl) := cvtVec code.toNat c.rm (fun _ => 0) m a
      pushLat (vRef o.d) v 3
      setVcsr fl) s

/-! ## RFADD and VFSCAN (R205, R206) -/

/-- Adds neighbours, the lower first, each sum rounded once to FP32. -/
def addPairs (rm : Nat) : List Coded → List Coded
  | x :: y :: r =>
    let z := fp32.add rm x.1 y.1
    (z.1, (x.2.or y.2).or z.2) :: addPairs rm r
  | l => l

/-- The tree of R205 over 64 lanes. -/
def treeSum (rm : Nat) (l : List Coded) : Coded :=
  ((List.range 6).foldl (fun l _ => addPairs rm l) l).headD (0, FpFlags.none)

/-- The elements as exact numbers, −0 for masked-off ones. -/
def floatsOr (fm : Fmt) (m : Mask) (n : Nat) (v : Vec) : List FpNum :=
  (List.range (256 / n)).map fun i => if lane m n i then fm.value (elem v n i) else .fin true 0 0

/-- The lane values of RFADD: FP32 elements, or the rounded sum of two 16-bit ones (R205). -/
def laneValues (rm n : Nat) (l : List FpNum) : List Coded :=
  if n = 4 then l.map fun x => ((fp32.encode 0 0 .ieee false x).1, FpFlags.none)
  else (List.range 64).map fun j =>
    fp32.finish rm (addNum (l.getD (2 * j) (.fin true 0 0)) (l.getD (2 * j + 1) (.fin true 0 0)))

/-- RFADD: a NaN anywhere, or infinities of both signs, gives the canonical NaN and NV (R205). -/
def execRfadd (o : VR) (s : State) : Host.Outcome State Fault Refusal :=
  vcword o.gm (fun m => do
    let a ← readV o.a o.ka
    let c ← cx
    let n := etBytes o.et
    let l := floatsOr (fmtOfEt o.et) m n a
    let bad := l.any FpNum.isNan || (l.any (fun x => x.isInf && x.isNeg) && l.any fun x => x.isInf && !x.isNeg)
    let r := treeSum (arithRm c.rm) (laneValues (arithRm c.rm) n l)
    pushLat (vRef o.d) (vecOfN 4 1 fun _ => if bad then fp32.nan else r.1) 8
    setVcsr (if bad then r.2.or fpNv else r.2)) s

/-- One round of VFSCAN at distance d: all values come from the round before. -/
def scanRound (rm d : Nat) (l : List Coded) : List Coded :=
  (List.range l.length).map fun i =>
    let y := l.getD i (0, FpFlags.none)
    if i < d then y
    else
      let z := fp32.add rm (l.getD (i - d) (0, FpFlags.none)).1 y.1
      (z.1, y.2.or z.2)

/-- The rounds of VFSCAN: distances 1, 2, 4, … below the count. -/
def scanRounds (rm : Nat) : Nat → Nat → List Coded → List Coded
  | 0, _, l => l
  | k + 1, d, l => if d < l.length then scanRounds rm k (2 * d) (scanRound rm d l) else l

/-- VFSCAN (R206): 16-bit elements are rounded once more at the end. -/
def execVfscan (o : VR) (s : State) : Host.Outcome State Fault Refusal :=
  vcword o.gm (fun m => do
    let a ← readV o.a o.ka
    let c ← cx
    let n := etBytes o.et
    let rm := arithRm c.rm
    let y := scanRounds rm 8 1 ((floatsOr (fmtOfEt o.et) m n a).map fun x => fp32.encode 0 0 .ieee false x)
    pushLanes o.d m n 8 fun i =>
      let z := y.getD i (0, FpFlags.none)
      if n = 4 then z
      else
        let r := (fmtOfEt o.et).encode rm 0 .ieee false (fp32.value z.1)
        (r.1, z.2.or r.2)) s

end Sys2Proof.Machine
end

