-- ==== Sys2Proof/Machine/Window.lean ====
section
/-!
DEFINITION. Window descriptors: fields, the checks at use, the output size and the walker (15 R291 to R298).
-/
namespace Sys2Proof.Machine

/-! ## The descriptor (R291) -/

/-- A window descriptor. -/
abbrev Wd := BitVec 512

def Wd.base (d : Wd) : Nat := bits d 0 32
def Wd.pitch (d : Wd) : Nat := bits d 32 32
def Wd.h (d : Wd) : Nat := bits d 64 16
def Wd.w (d : Wd) : Nat := bits d 80 16
def Wd.c (d : Wd) : Nat := bits d 96 16
def Wd.kh (d : Wd) : Nat := bits d 112 8
def Wd.kw (d : Wd) : Nat := bits d 120 8
def Wd.sh (d : Wd) : Nat := bits d 128 8
def Wd.sw (d : Wd) : Nat := bits d 136 8
def Wd.dh (d : Wd) : Nat := bits d 144 8
def Wd.dw (d : Wd) : Nat := bits d 152 8
def Wd.pt (d : Wd) : Nat := bits d 160 8
def Wd.pb (d : Wd) : Nat := bits d 168 8
def Wd.pl (d : Wd) : Nat := bits d 176 8
def Wd.pr (d : Wd) : Nat := bits d 184 8
def Wd.pad (d : Wd) : Nat := bits d 192 8
def Wd.mode (d : Wd) : Nat := bits d 200 8
/-- PXS′: PXS, or C where PXS is 0. -/
def Wd.pxs (d : Wd) : Nat := if bits d 208 16 = 0 then d.c else bits d 208 16
def Wd.pix (d : Wd) : Nat := bits d 256 32
def Wd.tap (d : Wd) : Nat := bits d 288 16

/-- A descriptor with a field replaced. -/
def Wd.put (d : Wd) (lo w x : Nat) : Wd := BitVec.ofNat 512 (putBits d.toNat lo w x)

def Wd.setPix (d : Wd) (x : Nat) : Wd := d.put 256 32 x
def Wd.setTap (d : Wd) (x : Nat) : Wd := d.put 288 16 x
def Wd.setEmpty (d : Wd) (b : Bool) : Wd := d.put 319 1 b.toNat

/-! ## Output size and taps (R293) -/

/-- One output dimension. -/
def outDim (n p q k s dil : Nat) : Nat := if n + p + q < dil * (k - 1) + 1 then 0 else (n + p + q - dil * (k - 1) - 1) / s + 1

def Wd.ho (d : Wd) : Nat := outDim d.h d.pt d.pb d.kh d.sh d.dh
def Wd.wo (d : Wd) : Nat := outDim d.w d.pl d.pr d.kw d.sw d.dw

/-- The output is empty. -/
def Wd.empty (d : Wd) : Bool := d.ho * d.wo == 0

/-- The AB offset of channel byte 0 of tap (ky, kx) of output pixel p, or none where the tap lies outside the image. -/
def Wd.tapAt (d : Wd) (p ky kx : Nat) : Option Nat :=
  let iy : Int := (p / d.wo * d.sh + ky * d.dh : Nat) - (d.pt : Int)
  let ix : Int := (p % d.wo * d.sw + kx * d.dw : Nat) - (d.pl : Int)
  if 0 ≤ iy ∧ iy < d.h ∧ 0 ≤ ix ∧ ix < d.w then some (d.base + iy.toNat * d.pitch + ix.toNat * d.pxs) else none

/-- The end of the image's span in AB (check 5 of R292). -/
def Wd.spanEnd (d : Wd) : Nat := d.base + (d.h - 1) * d.pitch + (d.w - 1) * d.pxs + d.c

/-- The range that a windowed access reads (R296). -/
def Wd.seg (d : Wd) : List Seg := Machine.seg .ab d.base (d.spanEnd - d.base)

/-! ## The checks at use (R292) -/

/-- The lowest byte with a non-zero MBZ bit. -/
def Wd.mbzByte (d : Wd) : Option Nat :=
  let bad (k : Nat) : Bool :=
    if 28 ≤ k ∧ k ≤ 31 ∨ 40 ≤ k then bits d (8 * k) 8 != 0
    else if k = 38 then bits d 304 8 != 0
    else if k = 39 then bits d 312 7 != 0
    else false
  (List.range 64).find? bad

/-- The offset of the first field that is 0, of those that must be at least 1. -/
def Wd.zeroField (d : Wd) : Option Nat :=
  ([(d.h, 8), (d.w, 10), (d.kh, 14), (d.kw, 15), (d.sh, 16), (d.sw, 17), (d.dh, 18), (d.dw, 19)].find? fun p => p.1 == 0).map (·.2)

/-- The byte offset that the first failing check reports: `modes` suit the instruction, `eb` are the element bytes,
`group` is the channel group of the vector path. -/
def Wd.fails (d : Wd) (limit : Nat) (modes : List Nat) (eb : Nat) (group : Option Nat) : Option Nat :=
  match d.mbzByte with
  | some k => some k
  | none =>
    if !modes.contains d.mode then some 25
    else match d.zeroField with
      | some k => some k
      | none =>
        if d.c % eb ≠ 0 then some 12
        else if d.pxs < d.c then some 26
        else if limit < d.spanEnd then some 0
        else if group.any fun g => d.c < (64 * g + 64) * eb then some 12
        else if !d.empty && decide (d.ho * d.wo ≤ d.pix) then some 32
        else none

/-- The descriptor of a number, checked: a failing check traps BUFACC with bit 63 and the byte offset (R292). -/
def useWd (n : Nat) (modes : List Nat) (eb : Nat) (group : Option Nat) : Act Wd := do
  let c ← cx
  let limit ← (fun s => .ok (s.limit s.cur .ab, s) : Act Nat)
  let d : Wd := Table.get c.wd 0 n
  match d.fails limit modes eb group with
  | some k => trapNow .bufacc (BitVec.ofNat 64 (2 ^ 63 + k))
  | none => pure d

/-! ## The dense walker (R295) -/

/-- Where byte q of the K of output pixel p lies in AB: none for a pad byte; the outer none is a byte beyond the total K. -/
def Wd.kByte (d : Wd) (p q : Nat) : Option (Option Nat) :=
  if d.kh * d.kw * d.c ≤ q then none
  else
    let t := q / d.c
    some ((d.tapAt p (t / d.kw) (t % d.kw)).map (· + q % d.c))

/-- The 192 bytes of slice sl of pixel p, each with its poison; the units consumed are the offsets of poisoned bytes. -/
def Wd.sliceRow (d : Wd) (rd : Nat → Byte × Bool) (p sl : Nat) : List (Byte × Bool × Nat) :=
  (List.range 192).map fun k =>
    match d.kByte p (192 * sl + k) with
    | none => (0, false, 0)
    | some none => (BitVec.ofNat 8 d.pad, false, 0)
    | some (some a) => ((rd a).1, (rd a).2, a)

/-! ## The vector window path (R297, R298) -/

/-- The element bytes of the window path: E4M3, BF16, FP32, FP16. -/
def winBytes (et : BitVec 2) : Nat :=
  match et.toNat with
  | 0 => 1
  | 2 => 4
  | _ => 2

/-- The format of the window path. -/
def winFmt (et : BitVec 2) : Fmt :=
  match et.toNat with
  | 0 => e4m3
  | 1 => bf16
  | 2 => fp32
  | _ => fp16

/-- Bytes as a number of the format. -/
def winNum (et : BitVec 2) (l : List Byte) : FpNum := (winFmt et).value (ofBytes l)

/-- The pad value: every byte of the element reads PAD (R293). -/
def Wd.padNum (d : Wd) (et : BitVec 2) : FpNum := winNum et (List.replicate (winBytes et) (BitVec.ofNat 8 d.pad))

/-- The bytes of the 64 channels of group g of a tap at AB offset a. -/
def tapBytes (et : BitVec 2) (g : Nat) (rd : Nat → Nat → List (Byte × Bool)) (a : Nat) : List (Byte × Bool) :=
  rd (a + 64 * g * winBytes et) (64 * winBytes et)

/-- Channel c among the bytes of a tap, poisoned units read as zeros. -/
def tapNum (et : BitVec 2) (l : List Byte) (c : Nat) : FpNum :=
  winNum et ((l.drop (c * winBytes et)).take (winBytes et))

/-- The cursor after one tap (R298). -/
def Wd.nextTap (d : Wd) : Wd :=
  if d.tap + 1 = d.kh * d.kw then (d.setTap 0).setPix ((d.pix + 1) % (d.ho * d.wo)) else d.setTap (d.tap + 1)

/-- The cursor after one pooled pixel. -/
def Wd.nextPix (d : Wd) : Wd := (d.setTap 0).setPix ((d.pix + 1) % (d.ho * d.wo))

/-- All taps of the current pixel in order: the AB offset, or none outside the image. -/
def Wd.taps (d : Wd) : List (Option Nat) := (List.range (d.kh * d.kw)).map fun t => d.tapAt d.pix (t / d.kw) (t % d.kw)

/-- FP32 of an exact number with the flags of its NaN. -/
def asFp32 (x : FpNum) : Coded := fp32.encode 0 0 .ieee false x

/-- The greater of two numbers that are not NaN; +0 beats −0. -/
def maxNum (x y : FpNum) : FpNum := if numLt x y || (numEq x y && x.isNeg) then y else x

/-- The maximum of taps: a NaN gives the canonical NaN; no tap gives +0 (R218, R298). -/
def poolMax (l : List FpNum) : Coded :=
  match l with
  | [] => (0, FpFlags.none)
  | x :: r =>
    if l.any FpNum.isNan then (fp32.nan, if l.any FpNum.isSig then fpNv else FpFlags.none) else asFp32 (r.foldl maxNum x)

/-- The sum of taps in order, rounded at each step, divided once by the count (R218). -/
def poolAvg (rm : Nat) (l : List FpNum) : Coded :=
  match l with
  | [] => (0, FpFlags.none)
  | x :: r =>
    let s := r.foldl (fun (a : Coded) y =>
      let z := fp32.finish rm (addNum (fp32.value a.1) y)
      (z.1, a.2.or z.2)) (asFp32 x)
    match fp32.value s.1 with
    | .fin n m e =>
      if m = 0 then s
      else
        let (q, k, st) := divBits m l.length 64
        let z := fp32.encode rm 0 .ieee st (.fin n q (e + k))
        (z.1, s.2.or z.2)
    | _ => s

end Sys2Proof.Machine
end

