-- ==== Sys2Proof/Machine/VectorMem.lean ====
section
/-!
DEFINITION. The V stream's memory words and window words: VLD, VST, VSTB, VGATH, VSCAT, VWMAC, VWPOOL, and what they do
when their accesses are done (09 R211 to R218, 15 R297, R298).
-/
namespace Sys2Proof.Machine

/-! ## Addresses (R211) -/

/-- The space of a SP field: AB, CB, shared store, virtual memory. -/
def vSpace (sp : BitVec 2) : Space :=
  match sp.toNat with
  | 0 => .ab
  | 1 => .cb
  | 2 => .ss
  | _ => .vm

/-- A typed buffer named by context B of a SOLO cell traps BUFACC after the queue checks (02 R30, 04 R97 step 5). -/
def soloB (sp : Space) (taddr : Word) : Act Unit := fun s =>
  let buffer := match sp with
    | .ab => true
    | .wb => true
    | .cb => true
    | _ => false
  if buffer && s.cur.bank == Bank.b && !(s.cell s.cur.cell).pair then trapNow .bufacc taddr s else .ok ((), s)

/-- A run of bytes of an access: its position in the vector, its address, its length. -/
abbrev Run := Nat × Word × Nat

/-- Every run of an access lies within the space; of several that do not, the first in element order gives `TADDR` (DESIGN CHOICE,
log 96). -/
def allInLimit (sp : Space) : List Run → Act Unit
  | [] => pure ()
  | (_, a, n) :: r => do
    inLimit sp a.toNat n a
    allInLimit sp r

/-- Every run of an access is aligned to `al` bytes; of several that are not, the first in element order gives `TADDR` (DESIGN CHOICE,
log 96). -/
def allAligned (al : Nat) : List Run → Act Unit
  | [] => pure ()
  | (_, a, _) :: r => do
    trapIf (a.toNat % al != 0) .align a
    allAligned al r

/-- The translation faults of runs: each run's first, at its lowest address. -/
def State.runFaults (s : State) (u : Use) (runs : List Run) : List (Cause × Word) :=
  runs.filterMap fun r => match s.vmParts s.cur s.curSt u 0 (piecesOf r.2.1.toNat r.2.2) with
    | .error f => some f
    | .ok _ => none

/-- Of some faults the one at the lowest virtual address (17 R336). -/
def lowestFault : List (Cause × Word) → Option (Cause × Word)
  | [] => none
  | f :: r => match lowestFault r with
    | some g => if g.2 < f.2 then some g else some f
    | none => some f

/-- A gather or scatter whose elements do not all translate reports the lowest faulting address (17 R336). -/
def runsTranslate (u : Use) (runs : List Run) : Act Unit := fun s =>
  match lowestFault (s.runFaults u runs) with
  | some (cause, a) => faultNow u cause a s
  | none => .ok ((), s)

/-- The part that spans two parts of one 64-byte unit. -/
def Part.join (p q : Part) : Part :=
  let lo := min p.va.toNat q.va.toNat
  { p with pos := lo, len := max (p.va.toNat + p.len) (q.va.toNat + q.len) - lo, addr := min p.addr q.addr,
           va := BitVec.ofNat 64 lo }

/-- A part in its place among the units that an access touches, in ascending address. -/
def joinPart (p : Part) : List Part → List Part
  | [] => [p]
  | q :: r =>
    if p.va.toNat / 64 = q.va.toNat / 64 then p.join q :: r else if p.va.toNat < q.va.toNat then p :: q :: r else q :: joinPart p r

/-- The parts of a V access: each 64-byte unit is one, in ascending address, and a part's position is its address (18 R345). -/
def unitParts (ps : List Part) : List Part := ps.foldl (fun l p => joinPart { p with pos := p.va.toNat } l) []

/-- The parts of all runs. -/
def allParts (sp : Space) (u : Use) : List Run → Act (List Part)
  | [] => pure []
  | (_, a, n) :: r => do
    let ps ← (match sp with
      | .vm => translate u a n
      | .ss => fun s => .ok (ssParts s.cur.cell a.toNat n, s)
      | _ => pure [])
    let qs ← allParts sp u r
    pure (ps ++ qs)

/-- The checks of a V access over its runs, and its translated parts: BUFACC then ALIGN for the buffers and the shared store,
ALIGN then translation for virtual memory (R211, 04 R97). The limits of all runs come before the alignment of any (DESIGN CHOICE,
log 96). `al` is 1 where any byte address will do. -/
def vCheck (sp : Space) (u : Use) (al : Nat) (runs : List Run) : Act (List Part) := do
  (match sp with
    | .vm => do allAligned al runs; runsTranslate u runs
    | _ => do allInLimit sp runs; allAligned al runs)
  let ps ← allParts sp u runs
  pure (unitParts ps)

/-- The runs as the record of an operation holds them. -/
def plainRuns (runs : List Run) : List (Nat × Nat × Nat) := runs.map fun r => (r.1, r.2.1.toNat, r.2.2)

/-- The span of runs in a buffer or the shared store: from the lowest to the highest byte (R213, 14 R277). -/
def spanSeg (sp : Space) (runs : List Run) : List Seg :=
  match sp, runs with
  | .vm, _ => []
  | _, [] => []
  | _, (_, a, n) :: r =>
    let lo := r.foldl (fun m x => min m x.2.1.toNat) a.toNat
    let hi := r.foldl (fun m x => max m (x.2.1.toNat + x.2.2)) (a.toNat + n)
    seg sp lo (hi - lo)

/-- The address of a V memory word, modulo 2^64 in every space: the rule states the wrap for AOP results (DESIGN CHOICE, log 96). -/
def vAddr (o : VM) (a : Word) : Word := a + BitVec.ofNat 64 (256 * o.off.toNat)

/-- The ranges of a buffer or of the shared store that runs name. -/
def runSegs (sp : Space) (runs : List Run) : List Seg :=
  match sp with
  | .vm => []
  | _ => runs.map fun r => { space := sp, addr := r.2.1.toNat, len := r.2.2 }

/-- The position in the vector of the byte at an address: that of the last run that covers it (R213). -/
def runAt (runs : List (Nat × Nat × Nat)) (x : Nat) : Option Nat :=
  (runs.reverse.find? fun r => decide (r.2.1 ≤ x) && decide (x < r.2.1 + r.2.2)).map fun r => r.1 + (x - r.2.1)

/-- The addresses that runs cover. -/
def runsCover (runs : List Run) (x : Nat) : Bool := (runAt (plainRuns runs) x).isSome

/-- Issues the accesses of a V operation; bytes are named by their addresses. -/
def vAccesses (id : Nat) (kind : AccKind) (data : Nat → Byte × Bool) (mask : Nat → Bool) (ps : List Part) : Act Unit := fun s =>
  .ok ((), s.issueParts id (.stream s.cur .v) kind false false 0 (fun p => if kind = .read then .engine id p else .none)
    data mask ps)

/-! ## Completion -/

/-- The bytes of a vector by position. -/
def vecByte (v : Vec) (k : Nat) : Byte × Bool := (BitVec.ofNat 8 (elem v 1 k), false)

/-- The flags of an operation that no younger CSR write has overtaken. -/
def EngineOp.kept (o : EngineOp) (csr : Nat) (fl : Word) : Word := fl &&& ~~~(Table.get o.lost 0 csr)

/-- The bytes of each run: from the buffer, or as the accesses have read them. -/
def State.runBytes (s : State) (c : CtxRef) (o : EngineOp) (sp : Space) (runs : List (Nat × Nat × Nat)) :
    List (Nat × Nat × List (Byte × Bool)) :=
  runs.map fun (pos, a, n) =>
    (pos, a, match sp with
      | .ss => (List.range n).map fun k => Table.get o.buf (0, false) (a + k)
      | .vm => (List.range n).map fun k => Table.get o.buf (0, false) (a + k)
      | _ => s.bufRead c sp a n)

/-- A vector from runs of bytes under a byte mask; a poisoned unit reads as zeros (R214). -/
def vecOfRuns (mask : Mask) (l : List (Nat × Nat × List (Byte × Bool))) : Vec :=
  vecOf 1 fun k =>
    if bitOf mask k then
      match l.find? fun r => decide (r.1 ≤ k) && decide (k < r.1 + r.2.2.length) with
      | some r => ((zeroed r.2.2).getD (k - r.1) 0).toNat
      | none => 0
    else 0

/-- The end of a V load or gather (R212 to R214). -/
def State.vreadDone (s : State) (c : CtxRef) (o : EngineOp) (sp : Space) (runs : List (Nat × Nat × Nat)) (mask : Mask)
    (tok : Option Nat) : State :=
  let l := s.runBytes c o sp runs
  let (s, gone, t) := s.consumeLate c .v o.it o.id sp false ((l.map fun r => badUnits r.2.1 r.2.2).flatten.eraseDups) false
  if gone then s else (s.modCtx c fun x => x.fillTok tok (vecOfRuns mask l)).raiseLate c t

/-- The end of a V store or scatter: the buffers take their bytes, run by run (R212, R213). -/
def State.vwriteDone (s : State) (c : CtxRef) (sp : Space) (runs : List (Nat × Nat × Nat)) (v : Vec) (mask : Mask) : State :=
  match sp with
  | .ss => s
  | .vm => s
  | _ => runs.foldl (fun s (pos, a, n) => s.bufWrite c sp a ((List.range n).map fun k =>
      if bitOf mask (pos + k) then some (vecByte v (pos + k)) else none)) s

/-- The units of AB that taps have consumed. -/
def tapUnits (l : List (Nat × List (Byte × Bool))) : List Nat := (l.map fun p => badUnits p.1 p.2).flatten.eraseDups

/-- What VWMAC computes (R217): the new accumulator lanes and the flags. -/
def vwmacLanes (et : BitVec 2) (d : Wd) (w acc : Vec) (m : Mask) (rm : Nat) (tap : Option (List Byte)) : Vec × FpFlags :=
  let rs := (List.range 64).map fun c =>
    if lane m 4 c then
      let x := match tap with
        | some l => tapNum et l c
        | none => d.padNum et
      fp32.finish rm (fmaNum x ((winFmt et).value (elem w (winBytes et) c)) (fp32.value (elem acc 4 c)))
    else (0, FpFlags.none)
  (vecOfList 4 (rs.map (·.1)), FpFlags.all (rs.map (·.2)))

/-- The bytes of a tap's 64 channels at an AB offset. -/
def State.tapRead (s : State) (c : CtxRef) (et : BitVec 2) (g a : Nat) : Nat × List (Byte × Bool) :=
  (a + 64 * g * winBytes et, s.bufRead c .ab (a + 64 * g * winBytes et) (64 * winBytes et))

/-- The end of VWMAC: accumulator, cursor, flags (R217, R298). An output that is not empty clears EMPTY (DEDUCED, log 76). -/
def State.vwmacDone (s : State) (c : CtxRef) (o : EngineOp) (et : BitVec 2) (wd : Nat) (d : Wd) (g : Nat) (w acc : Vec)
    (cb : Option Nat) (m : Mask) (rm : Nat) (tok : Option Nat) : State :=
  if d.empty then
    s.modCtx c fun x => { x.fillTok tok acc with wd := Table.put x.wd 0 wd (d.setEmpty true) }
  else
    let tap := (d.tapAt d.pix (d.tap / d.kw) (d.tap % d.kw)).map (s.tapRead c et g)
    let row := match cb with
      | some a => s.bufRead c .cb a 256
      | none => []
    let acc := if cb.isSome then vecOfList 1 ((zeroed row).map (·.toNat)) else acc
    let (r, fl) := vwmacLanes et d w acc m rm (tap.map fun t => zeroed t.2)
    let (s, g1, t1) := s.consumeLate c .v o.it o.id .ab false (tapUnits tap.toList) false
    let (s, g2, t2) := if g1 then (s, true, none)
      else s.consumeLate c .v o.it o.id .cb false (badUnits (cb.getD 0) row) false
    if g2 then s
    else
      let s := s.modCtx c fun x =>
        { x.fillTok tok r with wd := Table.put x.wd 0 wd (d.setEmpty false).nextTap,
                               vcsr := x.vcsr ||| o.kept 0x078 fl.toWord }
      let s := match cb with
        | some a => s.bufWrite c .cb a ((List.range 256).map fun k =>
            if lane m 4 (k / 4) then some (BitVec.ofNat 8 (elem r 1 k), false) else none)
        | none => s
      s.raiseLate c (if t1.isSome then t1 else t2)

/-- The end of VWPOOL (R218, R298). An output that is not empty clears EMPTY (DEDUCED, log 76). -/
def State.vwpoolDone (s : State) (c : CtxRef) (o : EngineOp) (et : BitVec 2) (wd : Nat) (d : Wd) (g : Nat)
    (m : Mask) (rm : Nat) (tok : Option Nat) : State :=
  if d.empty then
    s.modCtx c fun x => { x.fillTok tok 0 with wd := Table.put x.wd 0 wd (d.setEmpty true) }
  else
    let taps := d.taps.map fun t => t.map (s.tapRead c et g)
    let nums (k : Nat) : List FpNum := taps.filterMap fun t =>
      match t with
      | some l => some (tapNum et (zeroed l.2) k)
      | none => if d.mode = 3 then some (d.padNum et) else none
    let rs := (List.range 64).map fun k =>
      if lane m 4 k then (if d.mode = 2 then poolMax (nums k) else poolAvg rm (nums k)) else (0, FpFlags.none)
    let (s, gone, t) := s.consumeLate c .v o.it o.id .ab false (tapUnits (taps.filterMap id)) false
    if gone then s
    else (s.modCtx c fun x =>
      { x.fillTok tok (vecOfList 4 (rs.map (·.1))) with
        wd := Table.put x.wd 0 wd (d.setEmpty false).nextPix
        vcsr := x.vcsr ||| o.kept 0x078 (FpFlags.all (rs.map (·.2))).toWord }).raiseLate c t

/-! ## What an operation reads (15 R294) -/

/-- The in-image taps that a window word reads, as ranges of AB. -/
def tapSegs (et : BitVec 2) (g : Nat) (l : List (Option Nat)) : List Seg :=
  l.filterMap fun t => t.map fun a => { space := .ab, addr := a + 64 * g * winBytes et, len := 64 * winBytes et }

/-- The CB row of a VWMAC. -/
def cbRow (cb : Option Nat) : List Seg := (cb.map fun a => { space := .cb, addr := a, len := 256 }).toList

/-- What VWMAC reads: its tap and its CB row, and nothing where the output is empty. -/
def vwmacReads (et : BitVec 2) (d : Wd) (g : Nat) (cb : Option Nat) : List Seg :=
  if d.empty then [] else tapSegs et g [d.tapAt d.pix (d.tap / d.kw) (d.tap % d.kw)] ++ cbRow cb

/-- What VWPOOL reads. -/
def vwpoolReads (et : BitVec 2) (d : Wd) (g : Nat) : List Seg := if d.empty then [] else tapSegs et g d.taps

/-- The bytes that an operation of V reads. -/
def OpKind.vReads (k : OpKind) : List Seg :=
  match k with
  | .vread sp runs _ _ => runs.map fun r => { space := sp, addr := r.2.1, len := r.2.2 }
  | .vwmac et _ d g _ _ cb _ _ _ => vwmacReads et d g cb
  | .vwpool et _ d g _ _ _ => vwpoolReads et d g
  | .tableLoad _ sp a => [{ space := sp, addr := a, len := 64 }]
  | _ => []

/-! ## A word that takes its bytes as it issues (R214) -/

/-- One access of V takes all its steps. -/
def State.vStepThrough (s : State) (c : CtxRef) (a : Access) : State :=
  let (t, v) := s.takeBytes a
  match a.sink with
  | .engine op pos => ((t.dropAcc a.id).bufTakes c op pos v).settle a
  | _ => t

/-- The operation of a number ends in the step in which it issued: its accesses are done, then `done` (R214, log 13). -/
def endNow (now : Bool) (id : Nat) (done : State → CtxRef → EngineOp → State) : Act Unit := fun s =>
  .ok ((),
    if now then
      let t := (s.accs.filter fun a => a.rank == id).foldl (fun t a => t.vStepThrough s.cur a) s
      match (t.ctx s.cur).op id with
      | some o => done ((t.endOp s.cur id).eccSegs s.cur o.kind.vReads) s.cur o
      | none => t
    else s)

/-! ## VLD, VST, VSTB (R212) -/

/-- The precise POISON of a V word that reads parts of virtual memory or the shared store, or ranges of the typed buffers. -/
def vPoison (sp : Space) (cover : Nat → Bool) (ps : List Part) (segs reads writes : List Seg) : Act Bool := fun s =>
  poisonAtIssue sp (ps.map (s.probe (.stream s.cur .v) .read false false 0 cover)) segs reads writes s

/-- A V load of runs: checks, precise POISON, the operation and its accesses. -/
def vLoadRuns (sp : Space) (al : Nat) (runs : List Run) (bm : Mask) (tok : Option Nat) : Act Unit := do
  let ps ← vCheck sp .read al runs
  let now ← vPoison sp (runsCover runs) ps (runSegs sp runs) (spanSeg sp runs) []
  let id ← newOp (.vread sp (plainRuns runs) bm tok) (spanSeg sp runs) [] ps
  vAccesses id .read (fun _ => (0, false)) (runsCover runs) ps
  endNow now id fun s c o => s.vreadDone c o sp (plainRuns runs) bm tok

/-- VLD (R212, R214): reads all 256 bytes whatever the mask. -/
def execVld (o : VM) (s : State) : Host.Outcome State Fault Refusal :=
  vword o.gm (fun m => do
    let a ← read1 (aRef .v o.a) o.ka
    let tok ← reserve (vRef o.d)
    let ad := vAddr o a
    soloB (vSpace o.sp) ad
    vLoadRuns (vSpace o.sp) (etBytes o.et) [(0, ad, 256)] (byteMask m (etBytes o.et)) tok) s

/-- A store to virtual memory or to CB is an outward effect (08 R188). -/
def outwardStore (sp : Space) : Act Unit :=
  match sp with
  | .vm => outward
  | .cb => outward
  | _ => pure ()

/-- A V store of runs: checks, the outward test, the operation and its accesses. -/
def vStoreRuns (sp : Space) (al : Nat) (runs : List Run) (v : Vec) (bm : Mask) : Act Unit := do
  let ps ← vCheck sp .write al runs
  outwardStore sp
  let id ← newOp (.vwrite sp (plainRuns runs) v bm) [] (spanSeg sp runs) ps
  let at_ := runAt (plainRuns runs)
  vAccesses id .write (fun x => vecByte v ((at_ x).getD 0)) (fun x => (at_ x).any fun k => bitOf bm k) ps

/-- VST and VSTB: the address, then the data from D. -/
def vstore (o : VM) (al : Nat) (s : State) : Host.Outcome State Fault Refusal :=
  vword o.gm (fun m => do
    let rs := [(aRef .v o.a, o.ka), (vRef o.d, o.kd)]
    checkReads rs rs
    let a ← takeQ (aRef .v o.a) o.ka
    let v ← takeQ (vRef o.d) o.kd
    let ad := vAddr o (a.setWidth 64)
    soloB (vSpace o.sp) ad
    vStoreRuns (vSpace o.sp) al [(0, ad, 256)] v (byteMask m (etBytes o.et))) s

/-- VST (R212). -/
def execVst (o : VM) (s : State) : Host.Outcome State Fault Refusal := vstore o (etBytes o.et) s

/-- VSTB: any byte address, the mask by bytes (R212). -/
def execVstb (o : VM) (s : State) : Host.Outcome State Fault Refusal := vstore o 1 s

/-! ## VSEL, and the forward words of fused code (R208, 22 R408, R409) -/

/-- Where a forward word's original site reads its address, and what KEEP does with it (22 R409, R414). -/
structure ForwardSite where
  addr  : QRef
  keep  : Bool
  store : Bool
  sp    : BitVec 2
  off   : Nat
  deriving DecidableEq, Repr, Inhabited

/-- A forward word's site by its entry of the splice map. -/
def forwardSite (e : Word) : ForwardSite :=
  { addr := aRef .v (BitVec.ofNat 4 (bits e 45 4)), keep := bitOf e 44, store := !bitOf e 62,
    sp := BitVec.ofNat 2 (bits e 56 2), off := bits e 49 7 }

/-- The context runs a pair spliced under KEEP (22 R411). -/
def State.keeps (s : State) (c : CtxRef) : Bool :=
  match (s.ctx c).running with
  | some r => match r.splice with
    | some k => s.hub.cache.any fun p => p.1 == k && p.2.mode == 2#2
    | none => false
  | none => false

/-- Under KEEP a forward store also writes its vector, as the original VST (22 R409). -/
def keepStore (f : ForwardSite) (et : BitVec 2) (a : Word) (v : Vec) (m : Mask) : Act Unit := fun s =>
  if f.store && s.keeps s.cur then
    (do
      let ad := a + BitVec.ofNat 64 (256 * f.off)
      soloB (vSpace f.sp) ad
      vStoreRuns (vSpace f.sp) (etBytes et) [(0, ad, 256)] v (byteMask m (etBytes et))) s
  else .ok ((), s)

/-- The splice-map entry of the word that is issued, if it is a forward word. -/
def forwardEntry : Act (Option Word) := fun s => .ok (s.curFwd, s)

/-- VSEL (R208): GM selects; a stage predicate guards the whole word. A forward word also reads its original site's address
operand, after its own reads. -/
def execVsel (o : VR) (s : State) : Host.Outcome State Fault Refusal :=
  vword o.gm (fun m => do
    let n := etBytes o.et
    let pick (a b : Vec) : Vec := vecOf n fun i => if lane m n i then elem a n i else elem b n i
    match ← forwardEntry with
    | none =>
      let (a, b) ← readVV o.a o.b o.ka o.kb
      pushLat (vRef o.d) (pick a b) 3
    | some e =>
      let f := forwardSite e
      let rs := [(vRef o.a, o.ka), (vRef o.b, o.kb), (f.addr, f.keep)]
      checkReads rs rs
      let a ← takeQ (vRef o.a) o.ka
      let b ← takeQ (vRef o.b) o.kb
      let ad ← takeQ f.addr f.keep
      pushLat (vRef o.d) (pick a b) 3
      keepStore f o.et (ad.setWidth 64) (pick a b) m) s

/-! ## VGATH and VSCAT (R213) -/

/-- The runs of the unmasked elements: element i at the base plus lane i, modulo 2^64 in every space (DESIGN CHOICE, log 96). -/
def gatherRuns (m : Mask) (n : Nat) (base : Word) (idx : Vec) : List Run :=
  ((List.range 64).filter fun i => lane m n i).map fun i => (i * n, base + BitVec.ofNat 64 (elem idx 4 i), n)

/-- VGATH (R213). -/
def execVgath (o : VM) (s : State) : Host.Outcome State Fault Refusal :=
  vword o.gm (fun m => do
    let rs := [(aRef .v o.a, o.ka), (vRef o.d, o.kd)]
    checkReads rs rs
    let a ← takeQ (aRef .v o.a) o.ka
    let idx ← takeQ (vRef o.d) o.kd
    let tok ← reserve (vRef o.d)
    let ad := vAddr o (a.setWidth 64)
    soloB (vSpace o.sp) ad
    let n := etBytes o.et
    vLoadRuns (vSpace o.sp) n (gatherRuns m n ad idx) (byteMask m n) tok) s

/-- VSCAT (R213): the index vector, then the data vector, both popped from D. -/
def execVscat (o : VM) (s : State) : Host.Outcome State Fault Refusal :=
  vword o.gm (fun m => do
    let rs := [(aRef .v o.a, o.ka), (vRef o.d, false), (vRef o.d, false)]
    checkReads rs rs
    let a ← takeQ (aRef .v o.a) o.ka
    let idx ← takeQ (vRef o.d) false
    let v ← takeQ (vRef o.d) false
    let ad := vAddr o (a.setWidth 64)
    soloB (vSpace o.sp) ad
    let n := etBytes o.et
    vStoreRuns (vSpace o.sp) n (gatherRuns m n ad idx) v (byteMask m n)) s

/-! ## VWMAC and VWPOOL (R217, R218, 15 R297, R298) -/

/-- A vector window word waits for the window words and the WDLD in progress that name its descriptor (R217, 07 R174). -/
def wdFree (n : Nat) : Act Unit := do
  let c ← cx
  waitIf (c.ops.any (fun p => p.st == .v && p.kind.usesWd n) || c.wdPending n)

/-- VWMAC (R217): the weights from A, the addend from D, or from the CB row that the a queue in D names. `TADDR` of context B's BUFACC
is 0, and the descriptor's BUFACC comes before that of the CB row (DESIGN CHOICE, log 96). -/
def execVwmac (o : VW) (s : State) : Host.Outcome State Fault Refusal :=
  vword o.gm (fun m => do
    let cb := bitOf o.mode 6
    let g := bits o.mode 0 6
    let n := o.wd.toNat
    let q := if cb then aRef .v o.d else vRef o.d
    let rs := [(vRef o.a, o.ka), (q, false)]
    checkReads rs rs
    let w ← takeQ (vRef o.a) o.ka
    let acc ← takeQ q false
    let row := acc.setWidth 64
    wdFree n
    let tok ← (if cb then pure none else reserve (vRef o.d))
    soloB .ab 0
    trapIf (cb && row.toNat % 256 != 0) .align row
    let d ← useWd n [1] (winBytes o.et) (some g)
    (if cb then inLimit .cb row.toNat 256 row else pure ())
    let at_ := if cb then some row.toNat else none
    let now ← vPoison .ab (fun _ => true) [] (vwmacReads o.et d g at_) (d.seg ++ cbRow at_) (cbRow at_)
    outward
    let c ← cx
    let id ← newOp (.vwmac o.et n d g w acc at_ m (arithRm c.rm) tok) (d.seg ++ cbRow at_) (cbRow at_) []
    endNow now id fun s r p => s.vwmacDone r p o.et n d g w acc at_ m (arithRm c.rm) tok) s

/-- VWPOOL (R218). `TADDR` of context B's BUFACC is 0 (DESIGN CHOICE, log 96). -/
def execVwpool (o : VW) (s : State) : Host.Outcome State Fault Refusal :=
  vword o.gm (fun m => do
    let g := bits o.mode 0 6
    let n := o.wd.toNat
    wdFree n
    let tok ← reserve (vRef o.d)
    soloB .ab 0
    let d ← useWd n [2, 3, 4] (winBytes o.et) (some g)
    let now ← vPoison .ab (fun _ => true) [] (vwpoolReads o.et d g) d.seg []
    let c ← cx
    let id ← newOp (.vwpool o.et n d g m (arithRm c.rm) tok) d.seg [] []
    endNow now id fun s r p => s.vwpoolDone r p o.et n d g m (arithRm c.rm) tok) s

end Sys2Proof.Machine
end

