-- ==== Sys2Proof/Machine/Coder.lean ====
section
/-!
DEFINITION. The coder of the V stream: frequency tables, the range coder's steps, the coding words, and the traffic of the
slots (10 R220 to R239).
-/
namespace Sys2Proof.Machine

/-! ## The range coder (R228) -/

/-- An encoder in the midst of a step: its slot, the bytes emitted so far, and whether PEND has passed 65,535. -/
structure EncStep where
  s    : SlotState
  out  : List Byte
  past : Bool
  deriving DecidableEq, Repr, Inhabited

/-- n bytes of one value. -/
def sameBytes (n : Nat) (b : Byte) : List Byte := List.replicate n b

/-- `shift_low`. -/
def EncStep.shiftLow (x : EncStep) : EncStep :=
  let s := x.s
  let b : Byte := BitVec.ofNat 8 (s.low.toNat / 2 ^ 24)
  let low := s.low <<< 8
  if b = 0xFF#8 then { x with s := { s with low := low, pend := s.pend + 1 }, past := x.past || s.pend == 0xFFFF#16 }
  else
    { x with
      s := { s with low := low, cache := b, cvalid := true, pend := 0 }
      out := x.out ++ (if s.cvalid then [s.cache] else []) ++ sameBytes s.pend.toNat 0xFF#8 }

/-- `carry`. -/
def EncStep.carry (x : EncStep) : EncStep :=
  let s := x.s
  if s.pend = 0 then { x with s := { s with cache := s.cache + 1 } }
  else
    { x with
      s := { s with cache := 0, pend := 0 }
      out := x.out ++ [s.cache + 1] ++ sameBytes (s.pend.toNat - 1) 0x00#8 }

/-- The renormalisation loop of an encoder: at most twice (R228). -/
def EncStep.renorm (x : EncStep) : Nat → EncStep
  | 0 => x
  | n + 1 =>
    if x.s.range.toNat < 0x01000000 then
      let y := x.shiftLow
      ({ y with s := { y.s with range := y.s.range <<< 8 } }).renorm n
    else x

/-- `encode(c, f)`. -/
def SlotState.encode (s : SlotState) (c f : Nat) : EncStep :=
  let r := s.range.toNat / 2 ^ 12
  let t := s.low.toNat + r * c
  let x : EncStep := { s := { s with range := BitVec.ofNat 32 (r * f), low := BitVec.ofNat 32 t }, out := [], past := false }
  (if 2 ^ 32 ≤ t then x.carry else x).renorm 4

/-- `flush`: four shifts, then the release. -/
def SlotState.flush (s : SlotState) : EncStep :=
  let x := (({ s := s, out := [], past := false } : EncStep).shiftLow.shiftLow.shiftLow).shiftLow
  { x with
    s := { x.s with cvalid := false, pend := 0 }
    out := x.out ++ (if x.s.cvalid then [x.s.cache] else []) ++ sameBytes x.s.pend.toNat 0xFF#8 }

/-- `encode_init`. -/
def SlotState.encodeInit (s : SlotState) : SlotState :=
  { s with low := 0, range := 0xFFFFFFFF#32, cache := 0, cvalid := false, pend := 0 }

/-- The symbol s with cum[s] ≤ v < cum[s + 1], with cum[s] and f[s]. -/
def symbolAt (i cum v : Nat) : List Nat → Nat × Nat × Nat
  | [] => (i, cum, 0)
  | f :: r => if v < cum + f then (i, cum, f) else symbolAt (i + 1) (cum + f) v r

/-- How many bytes a decoder takes to bring RANGE to 2^24. -/
def renormCount (range : Nat) : Nat → Nat
  | 0 => 0
  | n + 1 => if range < 0x01000000 then renormCount (range * 256) n + 1 else 0

/-- A decoder before its renormalisation: slot, symbol, how many bytes it takes, and whether the stream is ill-formed. -/
structure DecStep where
  s    : SlotState
  sym  : Nat
  need : Nat
  ill  : Bool
  deriving DecidableEq, Repr, Inhabited

/-- `decode` up to its renormalisation. -/
def SlotState.decode (s : SlotState) (f : List Nat) : DecStep :=
  let r := s.range.toNat / 2 ^ 12
  let v := s.code.toNat / r
  let ill := decide (4096 ≤ v)
  let (sym, cum, fs) := symbolAt 0 0 (if ill then 4095 else v) f
  { s := { s with code := BitVec.ofNat 32 (s.code.toNat - r * cum), range := BitVec.ofNat 32 (r * fs),
                  illformed := s.illformed || ill }
    sym := sym, need := renormCount (r * fs) 4, ill := ill }

/-- A stream position after n bytes more, held at 2^32 − 1 (R226). -/
def posAfter (pos : BitVec 32) (n : Nat) : BitVec 32 := BitVec.ofNat 32 (min (pos.toNat + n) 0xFFFFFFFF)

/-- The offsets below CAPACITY among the next k bytes. -/
def SlotState.offsets (s : SlotState) (k : Nat) : List Nat :=
  (List.range k).filterMap fun i => if s.pos.toNat + i < s.capacity.toNat then some (s.pos.toNat + i) else none

/-- Whether a `next()` among the next k reads past CAPACITY (R228). -/
def SlotState.overruns (s : SlotState) (k : Nat) : Bool := decide (0 < k) && decide (s.capacity.toNat < s.pos.toNat + k)

/-- `next()` k times, each byte shifted into CODE; `rd` gives the bytes below CAPACITY. -/
def SlotState.take (s : SlotState) (rd : Nat → Byte) (k : Nat) : SlotState :=
  let code := (List.range k).foldl (fun (c : Nat) i =>
    let o := s.pos.toNat + i
    (c * 256 + (if o < s.capacity.toNat then (rd o).toNat else 0)) % 2 ^ 32) s.code.toNat
  let pos := posAfter s.pos k
  { s with code := BitVec.ofNat 32 code, range := s.range <<< (8 * k), pos := pos, overrun := s.overrun || s.overruns k,
           win := s.win.filter fun w => decide (pos.toNat ≤ w.off) }

/-! ## Tables and slots of a context (R223, R226) -/

def Ctx.table (c : Ctx) (n : Nat) : FreqTable := Table.get c.tables FreqTable.init n

def Ctx.slot (c : Ctx) (n : Nat) : Slot := Table.get c.slots Slot.init n

def Ctx.setSlot (c : Ctx) (n : Nat) (x : SlotState) : Ctx :=
  { c with slots := Table.set c.slots n { c.slot n with now := x } }

/-- The 32 frequencies as numbers. -/
def FreqTable.freqs (t : FreqTable) : List Nat := (List.range 32).map fun i => (t.f.getD i 0).toNat

/-- A table load that has not completed (R239). -/
def Ctx.tablePending (c : Ctx) (n : Nat) : Bool :=
  c.ops.any fun o => match o.kind with
    | .tableLoad f _ _ => f == n
    | _ => false

/-- An RCFLUSH of a slot is not done. -/
def Ctx.flushPending (c : Ctx) (n : Nat) : Bool :=
  c.ops.any fun o => match o.kind with
    | .flush e _ _ => e == n
    | _ => false

/-- A slot whose write is not complete: RCDEC within its latency, RCFLUSH, or an emission that has not entered the window
(R233, R239). -/
def Ctx.slotBusy (c : Ctx) (n : Nat) : Bool :=
  c.pending (.slot n) != 0 || c.flushPending n || ((c.slot n).emits && decide (64 < (c.slot n).now.win.length))

/-- The virtual address of a stream byte. -/
def SlotState.va (s : SlotState) (off : Nat) : Word := BitVec.ofNat 64 (s.base.toNat + off)

/-- `TADDR` of RCCAP (R230). -/
def rccapAddr (slot reason : Nat) : Word := BitVec.ofNat 64 (slot + 2 ^ 8 * reason)

/-! ## Coding one symbol in each of some slots (R230) -/

/-- One lane: what ZPROB reports, the slot, the table, and the symbol to encode, or none to decode. -/
structure CodeLane where
  tag  : Nat
  slot : Nat
  f    : List Nat
  tv   : Bool
  sym  : Option Nat
  deriving DecidableEq, Repr, Inhabited

/-- Step 1: the slot is bound and its direction suits. Of several lanes the lowest that fails either test is reported (DESIGN CHOICE,
log 96). -/
def CodeLane.bindFault (c : Ctx) (l : CodeLane) : Option Word :=
  let s := (c.slot l.slot).now
  if !s.bound then some (rccapAddr l.slot 0)
  else if s.decodes != l.sym.isNone then some (rccapAddr l.slot 3)
  else none

/-- Step 2: the table and the symbol. -/
def CodeLane.probFault (l : CodeLane) : Option Word :=
  if !l.tv then some (BitVec.ofNat 64 (2 ^ 63 + l.tag))
  else match l.sym with
    | some k => if 32 ≤ k ∨ l.f.getD k 0 = 0 then some (BitVec.ofNat 64 l.tag) else none
    | none => none

/-- The encoder's step of a lane. -/
def CodeLane.enc (c : Ctx) (l : CodeLane) (k : Nat) : EncStep :=
  (c.slot l.slot).now.encode ((l.f.take k).foldl (· + ·) 0) (l.f.getD k 0)

/-- The decoder's step of a lane. -/
def CodeLane.dec (c : Ctx) (l : CodeLane) : DecStep := (c.slot l.slot).now.decode l.f

/-- Step 3. -/
def CodeLane.pendFault (c : Ctx) (l : CodeLane) : Option Word :=
  match l.sym with
  | some k => if (l.enc c k).past then some (rccapAddr l.slot 2) else none
  | none => none

/-- Emitted bytes that pass CAPACITY. -/
def SlotState.overflows (s : SlotState) (out : List Byte) : Bool := decide (s.capacity.toNat < s.pos.toNat + out.length)

/-- Step 4. -/
def CodeLane.capFault (c : Ctx) (l : CodeLane) : Option Word :=
  match l.sym with
  | some k => if (c.slot l.slot).now.overflows (l.enc c k).out then some (rccapAddr l.slot 1) else none
  | none => none

/-- Step 5. -/
def CodeLane.endFault (c : Ctx) (l : CodeLane) : Option Word :=
  match l.sym with
  | some _ => none
  | none =>
    let s := (c.slot l.slot).now
    if s.endtrap && s.overruns (l.dec c).need then some (rccapAddr l.slot 6) else none

/-- What a lane needs of memory: a byte to come, a fault, or a poisoned unit. -/
inductive CodeNeed where
  | missing | fault (u : Use) (cause : Cause) (a : Word) | bad (unit : Nat)
  deriving DecidableEq, Repr, Inhabited

/-- Why a stream byte cannot be read: its translation, or the peer that refuses it (17 R332). -/
def State.byteFault (s : State) (r : CtxRef) (va : Word) : Option Cause :=
  match s.lookup r .v va .read with
  | .error cause => some cause
  | .ok e => if beyondPeer (e.place va).1 (e.place va).2 1 then some .prot else none

/-- The needs of a decoder's offsets. -/
def State.readNeeds (s : State) (r : CtxRef) (x : SlotState) (offs : List Nat) : List CodeNeed :=
  offs.filterMap fun o =>
    match x.win.find? fun w => w.off == o with
    | some w => if w.bad then some (.bad ((x.va o).toNat / 8 * 8)) else none
    | none => match s.byteFault r (x.va o) with
      | some cause => some (.fault .read cause (x.va o))
      | none => some .missing

/-- The need of bytes to be written from the slot's POS. -/
def State.writeNeeds (s : State) (r : CtxRef) (x : SlotState) (n : Nat) : List CodeNeed :=
  match s.vmParts r .v .write 0 (piecesOf (x.va x.pos.toNat).toNat n) with
  | .error (cause, a) => [.fault .write cause a]
  | .ok _ => []

/-- The needs of a lane, by rising address. -/
def State.laneNeeds (s : State) (r : CtxRef) (l : CodeLane) : List CodeNeed :=
  let c := s.ctx r
  let x := (c.slot l.slot).now
  match l.sym with
  | some k => s.writeNeeds r x (l.enc c k).out.length
  | none => s.readNeeds r x (x.offsets (l.dec c).need)

/-- The poisoned units among needs. -/
def needUnits (l : List CodeNeed) : List Nat :=
  (l.filterMap fun n => match n with
    | .bad u => some u
    | _ => none).eraseDups

/-- Whether a need stops the word: a fault always, a poisoned unit under TRAP or where the iteration rolls back. -/
def CodeNeed.stops (strict : Bool) (n : CodeNeed) : Bool :=
  match n with
  | .fault .. => true
  | .bad _ => strict
  | .missing => false

/-- The precise POISON of a coder word. -/
def poisonStop {α : Type} (t : Trap) (units : List Nat) : Act α := fun _ => .error (.poison t { units := [(.vm, units)], reads := [] })

/-- The rollback that poison consumed by the word that issues would bring (08 R189). -/
def rollsNow : Act Bool := fun s => .ok (((s.ctx s.cur).rollsBack s.curIt).isSome, s)

/-- Step 6: the word waits for bytes to come; then the lowest lane's lowest fault; poison under ZERO is logged and counted. In an
iteration that rolls back poison discards the word (R222, 08 R189): the answer says so. -/
def codeNeeds (needs : List (List CodeNeed)) : Act Bool := do
  let c ← cx
  let all := needs.flatten
  waitIf (all.contains .missing)
  let st ← curStream
  let rolls ← rollsNow
  match all.find? (CodeNeed.stops (c.poisonTrap || rolls)) with
  | some (.fault u cause a) => faultNow u cause a
  | some (.bad u) =>
    if rolls then consumeNow .vm (needUnits all)
    else poisonStop { cause := .poison, addr := BitVec.ofNat 64 u, st := st, async := false } (needUnits all)
  | _ => consumeNow .vm (needUnits all)

/-- The traps of an optional address, raised if there is one. -/
def trapSome (cause : Cause) (a : Option Word) : Act Unit :=
  match a with
  | some x => trapNow cause x
  | none => pure ()

/-- Appends emitted bytes to the slot's window. -/
def SlotState.emit (s : SlotState) (out : List Byte) (rank : Nat) (pc : Word) : SlotState :=
  { s with
    win := s.win ++ (List.range out.length).map fun i =>
      { off := s.pos.toNat + i, byte := out.getD i 0, bad := false, rank := rank, pc := pc }
    pos := posAfter s.pos out.length }

/-- The byte of the window as the coder takes it: a poisoned one reads 0 (R222). -/
def SlotState.byteAt (s : SlotState) (off : Nat) : Byte :=
  match s.win.find? fun w => w.off == off with
  | some w => if w.bad then 0 else w.byte
  | none => 0

/-- A lane's effect: the slot, the sticky flags, and the decoded symbol. -/
def codeLane (rank : Nat) (l : CodeLane) : Act Nat := do
  let c ← cx
  match l.sym with
  | some k =>
    let x := l.enc c k
    modCx fun c => c.setSlot l.slot (x.s.emit x.out rank c.sv.pc)
    pure k
  | none =>
    let x := l.dec c
    let now := (c.slot l.slot).now
    modCx fun c => c.setSlot l.slot (x.s.take now.byteAt x.need)
    (if x.ill then setRcsr 1 else pure ())
    (if now.overruns x.need then setRcsr 2 else pure ())
    pure x.sym

/-- All lanes in turn. -/
def codeEach (rank : Nat) : List CodeLane → Act (List Nat)
  | [] => pure []
  | l :: r => do
    let k ← codeLane rank l
    let ks ← codeEach rank r
    pure (k :: ks)

/-- A coding word over its unmasked lanes (R230): the interlocks, the traps in order, then every slot. An outward effect (08 R188) is
tested after the coder's own traps (DEDUCED, log 77). No symbols come from a word that poison discards (R222). -/
def code (lanes : List CodeLane) : Act (Option (List Nat)) := do
  let c ← cx
  waitIf (lanes.any fun l => c.slotBusy l.slot) .lock
  trapSome .rccap (lanes.findSome? (CodeLane.bindFault c))
  trapSome .zprob (lanes.findSome? CodeLane.probFault)
  trapSome .rccap (lanes.findSome? (CodeLane.pendFault c))
  trapSome .rccap (lanes.findSome? (CodeLane.capFault c))
  trapSome .rccap (lanes.findSome? (CodeLane.endFault c))
  let needs ← (fun s => .ok (lanes.map (s.laneNeeds s.cur), s) : Act (List (List CodeNeed)))
  if ← codeNeeds needs then pure none
  else do
    outward
    let rank ← freshId
    countEvent 9 lanes.length
    let ks ← codeEach rank lanes
    pure (some ks)

/-- A lane that codes with a table. -/
def tableLane (c : Ctx) (tag slot table : Nat) (sym : Option Nat) : CodeLane :=
  { tag := tag, slot := slot, f := (c.table table).freqs, tv := (c.table table).tv, sym := sym }

/-- A word waits for the loads of the tables that it names (R231, R239). -/
def tablesReady (l : List Nat) : Act Unit := do
  let c ← cx
  waitIf (l.any c.tablePending) .lock

/-! ## RCENC, RCDEC (R233) -/

/-- RCENC. -/
def execRcenc (o : VC) (s : State) : Host.Outcome State Fault Refusal :=
  vword o.gm (fun _ => do
    let v ← read1 (aRef .v o.x) o.kx
    tablesReady [o.fr.toNat]
    let c ← cx
    let _ ← code [tableLane c (min v.toNat 63) o.e.toNat o.fr.toNat (some v.toNat)]
    pure ()) s

/-- RCDEC: its slot and its result are due in 8 cycles. `TADDR` of its ZPROB has no lane and no symbol to name: bits [5:0] are 0
(DESIGN CHOICE, log 78). -/
def execRcdec (o : VC) (s : State) : Host.Outcome State Fault Refusal :=
  vword o.gm (fun _ => do
    checkPush (aRef .v o.x)
    tablesReady [o.fr.toNat]
    let c ← cx
    match ← code [tableLane c 0 o.e.toNat o.fr.toNat none] with
    | none => pure ()
    | some ks => do
      let _ ← launchFlight (.slot o.e.toNat) (some 0) (some 8)
      pushLat (aRef .v o.x) (BitVec.ofNat 2048 (ks.headD 0)) 8) s

/-! ## RCENCV, RCDECV (R234) -/

/-- The unmasked lanes below n. -/
def activeLanes (m : Mask) (n : Nat) : List Nat := (List.range n).filter fun j => lane m 4 j

/-- The table of lane j. -/
def tableOfLane (o : VC) (j : Nat) : Nat := if bitOf o.mode 0 then o.fr.toNat else j

/-- A vector with the results of lanes, zero elsewhere. -/
def laneVec (js ks : List Nat) : Vec :=
  vecOfN 4 64 fun j => match (js.zip ks).find? fun p => p.1 == j with
    | some p => p.2
    | none => 0

/-- RCENCV. -/
def execRcencv (o : VC) (s : State) : Host.Outcome State Fault Refusal :=
  vword o.gm (fun m => do
    let v ← readV o.x o.kx
    let js := activeLanes m 16
    tablesReady (js.map (tableOfLane o))
    let c ← cx
    let _ ← code (js.map fun j => tableLane c j (o.e.toNat + j) (tableOfLane o j) (some (elem v 4 j)))
    pure ()) s

/-- RCDECV. -/
def execRcdecv (o : VC) (s : State) : Host.Outcome State Fault Refusal :=
  vword o.gm (fun m => do
    checkPush (vRef o.x)
    let js := activeLanes m 16
    tablesReady (js.map (tableOfLane o))
    let c ← cx
    match ← code (js.map fun j => tableLane c j (o.e.toNat + j) (tableOfLane o j) none) with
    | none => pure ()
    | some ks => pushSoon (vRef o.x) (laneVec js ks)) s

/-! ## RCBINV (R235) -/

/-- The lanes of RCBINV: each with a table of two entries. -/
def binLanes (o : VC) (m : Mask) (q : Vec) (sym : Nat → Option Nat) : List CodeLane :=
  (activeLanes m ((o.mode &&& 31#7).toNat + 1)).map fun j =>
    let p := elem q 4 j % 4096
    { tag := j, slot := o.e.toNat + j, f := [p, 4096 - p], tv := true, sym := sym j }

/-- RCBINV, decoding. -/
def execRcbinv (o : VC) (s : State) : Host.Outcome State Fault Refusal :=
  vword o.gm (fun m => do
    let q ← readV o.x o.kx
    checkPush (vRef o.x)
    match ← code (binLanes o m q fun _ => none) with
    | none => pure ()
    | some ks => pushSoon (vRef o.x) (laneVec (activeLanes m ((o.mode &&& 31#7).toNat + 1)) ks)) s

/-- RCBINV.enc: the probabilities under KX, then the bits. -/
def execRcbinvEnc (o : VC) (s : State) : Host.Outcome State Fault Refusal :=
  vword o.gm (fun m => do
    let (q, b) ← readVV o.x o.x o.kx false
    let _ ← code (binLanes o m q fun j => some (elem b 4 j % 2))
    pure ()) s

/-! ## PQUANT (R224, R231) -/

/-- A lane's value as an exact multiple of 2^-149, or none where it is negative, NaN or infinite; −0 counts as 0 (DEDUCED,
log 74). -/
def quantValue (x : Nat) : Option Nat :=
  match fp32.value x with
  | .fin n m e => if n && m != 0 then none else some (m * 2 ^ (e + 149).toNat)
  | _ => none

/-- One unit to each of the `left` lanes of `l` that rank lowest under `before`. -/
def giveUnits (l : List Nat) (before : Nat → Nat → Bool) (left : Nat) (f : Nat → Nat) (i : Nat) : Nat :=
  f i + (if l.contains i && decide ((l.filter fun j => before j i).length < left) then 1 else 0)

/-- The frequencies of PQUANT over active lanes `act` with values p. -/
def quantize (always : Bool) (act : List Nat) (p : Nat → Nat) : List Nat :=
  let total := act.foldl (fun t i => t + p i) 0
  let nz := act.filter fun i => always || decide (0 < p i)
  let f (i : Nat) : Nat :=
    if total = 0 then (if act.contains i then 4096 / act.length else 0)
    else if nz.contains i then 1 + p i * (4096 - nz.length) / total else 0
  let left := 4096 - (List.range 32).foldl (fun t i => t + f i) 0
  let rem (i : Nat) : Nat := if total = 0 then 0 else p i * (4096 - nz.length) % total
  (List.range 32).map (giveUnits (if total = 0 then act else nz)
    (fun j i => decide (rem i < rem j) || (rem j == rem i && decide (j < i))) left f)

/-- PQUANT. -/
def execPquant (o : VC) (s : State) : Host.Outcome State Fault Refusal :=
  vword o.gm (fun m => do
    let v ← readV o.x o.kx
    tablesReady [o.fr.toNat]
    outward
    let act := activeLanes m ((o.mode &&& 31#7).toNat + 1)
    let p (i : Nat) : Nat := (quantValue (elem v 4 i)).getD 0
    let bad := act.isEmpty || act.any (fun i => (quantValue (elem v 4 i)).isNone) || act.all fun i => p i == 0
    (if bad then setRcsr 0 else pure ())
    modCx fun c =>
      let t := if act.isEmpty then { c.table o.fr.toNat with tv := false }
        else { f := (quantize (bitOf o.mode 6) act p).map (BitVec.ofNat 13), tv := true }
      { c with tables := Table.set c.tables o.fr.toNat t }) s

/-! ## PLDF, PSTF (R225, R229) -/

/-- The end of PLDF (R225): the halfwords, TV and TBLBAD. -/
def State.tableDone (s : State) (c : CtxRef) (o : EngineOp) (n : Nat) (sp : Space) (a : Nat) : State :=
  let bs := ((s.runBytes c o sp [(0, a, 64)]).map fun r => r.2.2).flatten
  let (s, gone, t) := s.consumeLate c .v o.it o.id sp false (badUnits a bs) false
  if gone then s
  else
    let z := zeroed bs
    let h := (List.range 32).map fun i => (z.getD (2 * i) 0).toNat + 256 * (z.getD (2 * i + 1) 0).toNat
    let f := h.map (· % 2 ^ 13)
    let ok := h.all (fun x => decide (x < 2 ^ 13)) && f.foldl (· + ·) 0 == 4096
    (s.modCtx c fun x =>
      { x with
        tables := Table.set x.tables n { f := f.map (BitVec.ofNat 13), tv := ok }
        rcsr := if ok then x.rcsr else x.rcsr ||| o.kept 0x07A 8#64 }).raiseLate c t

/-- PLDF: the table is written when the operation completes. -/
def execPldf (o : VC) (s : State) : Host.Outcome State Fault Refusal :=
  vword o.gm (fun _ => do
    let a ← read1 (aRef .v o.x) o.kx
    let sp := vSpace (BitVec.ofNat 2 (o.mode.toNat % 4))
    tablesReady [o.fr.toNat]
    soloB sp a
    let runs : List Run := [(0, a, 64)]
    let ps ← vCheck sp .read 64 runs
    let now ← vPoison sp (runsCover runs) ps (runSegs sp runs) (spanSeg sp runs) []
    outward
    let id ← newOp (.tableLoad o.fr.toNat sp a.toNat) (spanSeg sp runs) [] ps
    vAccesses id .read (fun _ => (0, false)) (runsCover runs) ps
    endNow now id fun s c p => s.tableDone c p o.fr.toNat sp a.toNat) s

/-- PSTF. -/
def execPstf (o : VC) (s : State) : Host.Outcome State Fault Refusal :=
  vword o.gm (fun _ => do
    let a ← read1 (aRef .v o.x) o.kx
    let sp := vSpace (BitVec.ofNat 2 (o.mode.toNat % 4))
    tablesReady [o.fr.toNat]
    soloB sp a
    let c ← cx
    vStoreRuns sp 64 [(0, a, 64)] (vecOfList 2 (c.table o.fr.toNat).freqs) (BitVec.allOnes 256)
    outward) s

/-! ## RCINIT (R220, R232) -/

/-- The descriptor's fields as a number of 256 bits. -/
structure StreamDesc where
  v : Nat
  deriving DecidableEq, Repr, Inhabited

def StreamDesc.decodes (d : StreamDesc) : Bool := bitsN d.v 128 1 == 1

/-- The slot that a descriptor binds, before its initialisation. -/
def StreamDesc.slot (d : StreamDesc) (daddr : Word) : SlotState :=
  { SlotState.init with
    bound := true, decodes := d.decodes, endtrap := bitsN d.v 129 1 == 1, base := BitVec.ofNat 55 d.v,
    capacity := BitVec.ofNat 32 (bitsN d.v 64 32), pos := BitVec.ofNat 32 (bitsN d.v 96 32),
    daddr := BitVec.ofNat 55 daddr.toNat }

/-- A coder write of a slot that has not been acknowledged. -/
def State.emissionOut (s : State) (c : CtxRef) (n : Nat) : Bool :=
  s.accs.any fun a => a.agent == .stream c .v && a.isWrite && (match a.sink with
    | .coder k _ => k == n
    | _ => false)

/-- Bytes that an RCINIT has read, from a position on, with the poison of their units. -/
def InitRead.bytes (r : InitRead) (lo n : Nat) : List (Byte × Bool) :=
  (List.range n).map fun k => Table.get r.got (0, false) (lo + k)

/-- All bytes asked for have come. -/
def InitRead.full (r : InitRead) : Bool := r.got.length == r.len

/-- Issues the reads of an RCINIT. -/
def initReads (r : InitRead) (lo : Nat) (ps : List Part) : Act Unit := fun s =>
  .ok ((), (s.modCtx s.cur fun c => { c with initRead := some r }).issueParts r.id (.stream s.cur .v) .read false false 0
    (fun p => .init r.id (lo + p)) (fun _ => (0, false)) (fun _ => true) ps)

/-- The poisoned units of an RCINIT's bytes: POISON under TRAP, or a rollback, which discards the word (R222, R232). -/
def initPoison (units : List Nat) : Act Bool := do
  let c ← cx
  let rolls ← rollsNow
  if c.poisonTrap || rolls then consumeNow .vm units else pure false

/-- How a try of RCINIT ends: it waits for bytes, poison discards it, or it binds a slot, with the units that it consumed under ZERO. -/
inductive InitEnd where
  | waits
  | gone
  | binds (x : SlotState) (units : List Nat)
  deriving DecidableEq, Repr, Inhabited

/-- The descriptor that has been read: a poisoned one reads as all zeros (R232). -/
def InitRead.desc (r : InitRead) : StreamDesc :=
  let bs := r.bytes 0 32
  { v := if bs.any (·.2) then 0 else ofBytes (bs.map (·.1)) }

/-- The checks of a descriptor (R220): MBZ fields, POSITION above CAPACITY of an encoder, the address of the stream. -/
def descCheck (n : Nat) (d : StreamDesc) : Act Unit := do
  trapIf (d.v / 2 ^ 130 != 0) .rccap (rccapAddr n 5)
  trapIf (!d.decodes && decide (bitsN d.v 64 32 < bitsN d.v 96 32)) .rccap (rccapAddr n 1)
  (if bitsN d.v 55 9 != 0 then faultNow (if d.decodes then .read else .write) .prot (BitVec.ofNat 64 (d.v % 2 ^ 64)) else pure ())

/-- The end of a try that binds a slot: an outward effect (08 R188), tested after the word's own traps (DEDUCED, log 77). -/
def initBinds (x : SlotState) (units : List Nat) : Act InitEnd := do
  outward
  pure (.binds x units)

/-- The first bytes of a stream to decode: asked for, then taken (R228, R232). `du` are the poisoned units of the descriptor. -/
def initCode (n : Nat) (r : InitRead) (x : SlotState) (du : List Nat) : Act InitEnd := do
  trapIf (x.endtrap && x.overruns 4) .rccap (rccapAddr n 6)
  let offs := x.offsets 4
  let va := x.va x.pos.toNat
  if r.code ∨ offs.isEmpty then do
    let bs := r.bytes 32 offs.length
    let su := badUnits va.toNat bs
    if ← initPoison su then pure .gone
    else do
      let z := zeroed bs
      initBinds (({ x with range := 0 }).take (fun off => z.getD (off - x.pos.toNat) 0) 4) (du ++ su)
  else do
    let ps ← translate .read va offs.length
    initReads { r with code := true, len := 32 + offs.length } 32 ps
    pure .waits

/-- One try of RCINIT: it asks for the descriptor, then for the first bytes of a stream to decode, and binds the slot once all have
come. -/
def initTry (o : VC) : Act InitEnd := do
  let n := o.e.toNat
  let q := aRef .v o.x
  checkRead q 1
  let c ← cx
  let a := (c.front q).1.setWidth 64
  trapIf (a.toNat % 32 != 0) .align a
  let out ← (fun s => .ok (s.emissionOut s.cur n, s) : Act Bool)
  waitIf (c.slotBusy n) .lock
  waitIf (out || (c.slot n).emits)
  match c.initRead with
  | none => do
    let ps ← translate .read a 32
    let id ← freshId
    initReads { id := id, addr := a, code := false, len := 32, got := [] } 0 ps
    pure .waits
  | some r =>
    if !r.full then pure .waits
    else do
      let du := badUnits a.toNat (r.bytes 0 32)
      if ← initPoison du then pure .gone
      else do
        let d := r.desc
        descCheck n d
        let x := d.slot a
        if x.decodes then initCode n r x du else initBinds x.encodeInit du

/-- A read of a stream byte for a slot (R221). -/
def Access.isAhead (a : Access) (c : CtxRef) (n : Nat) : Bool :=
  a.agent == .stream c .v && a.kind == .read && match a.sink with
    | .coder k _ => k == n
    | _ => false

/-- Reads of a slot that are on their way, or PERFORMed and not READ, are dropped: they belong to a binding that has ended (R221, R232). -/
def dropAhead (n : Nat) : Act Unit := fun s =>
  .ok ((), ({ s with accs := s.accs.filter fun a => !a.isAhead s.cur n }).settleFences s.cur)

/-- RCINIT (R232). -/
def execRcinit (o : VC) (s : State) : Host.Outcome State Fault Refusal :=
  finish 1 false (do
    match ← vMask o.gm with
    | none => pure .seq
    | some _ =>
      match ← initTry o with
      | .waits => pure .stay
      | .gone => do
        let _ ← takeQ (aRef .v o.x) o.kx
        modCx fun c => { c with initRead := none }
        pure .seq
      | .binds x units => do
        let _ ← takeQ (aRef .v o.x) o.kx
        let _ ← consumeNow .vm units
        (if x.overrun then setRcsr 2 else pure ())
        let y := if x.decodes then { x with range := 0xFFFFFFFF#32 } else x
        dropAhead o.e.toNat
        modCx fun c =>
          { c with initRead := none, slots := Table.set c.slots o.e.toNat { c.slot o.e.toNat with now := y, marked := false } }
        pure .seq) s

/-- Bytes arrive at a word that holds its stream's issue until it has read its descriptor. -/
def InitRead.take (r : InitRead) (pos : Nat) (l : List (Byte × Bool)) : InitRead :=
  { r with got := (List.range l.length).foldl (fun t k => Table.set t (pos + k) (l.getD k (0, false))) r.got }

/-- Bytes for the reader of a number. -/
def arriveAt (id pos : Nat) (l : List (Byte × Bool)) : Option InitRead → Option InitRead
  | some r => some (if r.id = id then r.take pos l else r)
  | none => none

/-- Bytes of an RCINIT, of an XCPY2 or of an RWPOST arrive. -/
def State.initArrives (s : State) (c : CtxRef) (id pos : Nat) (l : List (Byte × Bool)) : State :=
  s.modCtx c fun x => { x with
    initRead := arriveAt id pos l x.initRead, xcpy2 := arriveAt id pos l x.xcpy2, rwpost := arriveAt id pos l x.rwpost }

/-! ## RCFLUSH, RCMARK, RCBACK, RCSTAT (R236 to R238) -/

/-- RCFLUSH: its bytes, the write of POSITION and the end of the operation hold V's issue (R236). -/
def execRcflush (o : VC) (s : State) : Host.Outcome State Fault Refusal :=
  vword o.gm (fun _ => do
    let n := o.e.toNat
    let c ← cx
    waitIf (c.slotBusy n) .lock
    let x := (c.slot n).now
    trapIf (!x.bound) .rccap (rccapAddr n 0)
    let f := if x.decodes then ({ s := x, out := [], past := false } : EncStep) else x.flush
    trapIf f.past .rccap (rccapAddr n 2)
    trapIf (!x.decodes && x.overflows f.out) .rccap (rccapAddr n 1)
    let needs ← (fun s => .ok (s.writeNeeds s.cur x f.out.length, s) : Act (List CodeNeed))
    let _ ← codeNeeds [needs]
    let daddr : Word := x.daddr.setWidth 64
    let ps ← translate .write (daddr + 12) 4
    outward
    let rank ← freshId
    let y := if x.decodes then x else (f.s.emit f.out rank c.sv.pc).encodeInit
    modCx fun c => c.setSlot n y
    let _ ← newOp (.flush n daddr y.pos) [] [] ps
    pure ()) s

/-- RCMARK. -/
def execRcmark (o : VC) (s : State) : Host.Outcome State Fault Refusal :=
  vword o.gm (fun _ => do
    let n := o.e.toNat
    let c ← cx
    waitIf (c.slotBusy n) .lock
    outward
    modCx fun c => { c with slots := Table.set c.slots n { c.slot n with saved := (c.slot n).now, marked := true } }) s

/-- RCBACK. -/
def execRcback (o : VC) (s : State) : Host.Outcome State Fault Refusal :=
  vword o.gm (fun _ => do
    let n := o.e.toNat
    let c ← cx
    waitIf (c.slotBusy n) .lock
    trapIf (!(c.slot n).marked) .rccap (rccapAddr n 4)
    outward
    modCx fun c => c.setSlot n (c.slot n).saved) s

/-- The word that RCSTAT pushes (R238). -/
def Slot.stat (x : Slot) : Word :=
  let s := x.now
  BitVec.ofNat 64 (2 ^ 48 * s.pend.toNat + 2 ^ 40 * s.cache.toNat + 2 ^ 37 * x.marked.toNat + 2 ^ 36 * s.cvalid.toNat +
    2 ^ 35 * s.illformed.toNat + 2 ^ 34 * s.overrun.toNat + 2 ^ 33 * s.decodes.toNat + 2 ^ 32 * s.bound.toNat + s.pos.toNat)

/-- RCSTAT. -/
def execRcstat (o : VC) (s : State) : Host.Outcome State Fault Refusal :=
  vword o.gm (fun _ => do
    checkPush (.chan (o.x.toNat % 8))
    let c ← cx
    waitIf (c.slotBusy o.e.toNat) .lock
    pushSoon (.chan (o.x.toNat % 8)) (wide (c.slot o.e.toNat).stat)
    outward) s

/-! ## The traffic of the slots (R221, R236) -/

/-- The bytes of one instruction at the front of a window that lie in one 64-byte unit, in offset order. -/
def frontRun (s : SlotState) : List WinByte :=
  match s.win with
  | [] => []
  | w :: r => w :: ((r.zip (List.range r.length)).takeWhile fun p =>
      p.1.rank == w.rank && p.1.off == w.off + p.2 + 1 && (s.va p.1.off).toNat / 64 == (s.va w.off).toNat / 64).map (·.1)

/-- A slot may write: its bytes wait, none of its writes is out, no fault has stopped it, and no cut or handler holds the operations; a
flush that has started goes on through a cut. -/
def State.mayEmit (s : State) (c : CtxRef) (n : Nat) : Bool :=
  let x := s.ctx c
  (x.slot n).emits && (x.slot n).stopped.isNone && !s.emissionOut c n && (!x.holdsOps || x.flushPending n)

/-- CODER_EMISSION_WRITE (R221): the next bytes of the slot, up to a 64-byte unit, go to memory; a translation fault that has
come since their issue stops the slot and stays pending with it (12 R244). -/
def State.emitBytes (s : State) (c : CtxRef) (n : Nat) : State :=
  let x := ((s.ctx c).slot n).now
  let run := frontRun x
  match run with
  | [] => s
  | w :: _ =>
    match s.vmParts c .v .write 0 (piecesOf (x.va w.off).toNat run.length) with
    | .error (cause, a) =>
      let f : Trap := { cause := cause, addr := a, st := .v, async := true, word := some w.pc, syn := some (s.synOf c .write a) }
      (s.noteMiss c f).modCtx c fun y => { y with slots := Table.set y.slots n { y.slot n with stopped := some f } }
    | .ok ps =>
      ((s.modCtx c fun y => y.setSlot n { x with win := x.win.drop run.length }).fillFor c .v ps).issueParts w.rank (.stream c .v) .write false
        false 0 (fun _ => .coder n w.off) (fun k => (((run.getD k w).byte), false)) (fun _ => true) ps

def execCoderEmissionWrite (c : CtxRef) (slot : Nat) (s : State) : Host.Outcome State Fault Refusal :=
  .next (if s.mayEmit c slot then s.emitBytes c slot else s)

/-- Whether a read of a stream byte is on its way. -/
def State.aheadOut (s : State) (c : CtxRef) (n off : Nat) : Bool :=
  s.accs.any fun a => a.agent == .stream c .v && a.kind == .read && (match a.sink with
    | .coder k o => k == n && decide (o ≤ off) && decide (off < o + a.len)
    | _ => false)

/-- The first byte that a decoder may read ahead, that translates and that it has not asked for, with the end of what it may read
(R221, R222). -/
def State.aheadFrom (s : State) (c : CtxRef) (n : Nat) : Option (Nat × Nat) :=
  let x := ((s.ctx c).slot n).now
  let hi := min (x.pos.toNat + 64) x.capacity.toNat
  let want (k : Nat) : Bool :=
    decide (x.pos.toNat + k < hi) && !(x.win.any fun w => w.off == x.pos.toNat + k) && !s.aheadOut c n (x.pos.toNat + k) &&
      (s.byteFault c (x.va (x.pos.toNat + k))).isNone
  ((List.range 64).find? want).map fun k => (x.pos.toNat + k, hi)

/-- CODER_READ_AHEAD (R221): the bytes of one 64-byte unit; a fault stays for the instruction that needs the byte (R222). -/
def State.readAhead (s : State) (c : CtxRef) (n : Nat) : State :=
  let x := ((s.ctx c).slot n).now
  if !x.bound ∨ !x.decodes ∨ (s.ctx c).holdsOps then s
  else match s.aheadFrom c n with
    | none => s
    | some (off, hi) =>
      let va := x.va off
      let len := min (hi - off) (64 - va.toNat % 64)
      match s.vmParts c .v .read 0 (piecesOf va.toNat len) with
      | .error _ => s
      | .ok ps => (s.fillFor c .v ps).issueParts s.nextId (.stream c .v) .read false false 0 (fun p => .coder n (off + p))
          (fun _ => (0, false)) (fun _ => true) ps

def execCoderReadAhead (c : CtxRef) (slot : Nat) (s : State) : Host.Outcome State Fault Refusal :=
  .next (s.readAhead c slot)

/-- Bytes read ahead arrive: those that the slot can still take enter its window. `va` is the address of the first. -/
def SlotState.arrive (x : SlotState) (off : Nat) (va : Word) (l : List (Byte × Bool)) : SlotState :=
  if !x.bound ∨ !x.decodes ∨ x.va off ≠ va then x
  else
    { x with win := x.win ++ (List.range l.length).filterMap fun k =>
        let o := off + k
        if x.pos.toNat ≤ o ∧ o < x.pos.toNat + 64 ∧ o < x.capacity.toNat ∧ !(x.win.any fun w => w.off == o) then
          some { off := o, byte := (l.getD k (0, false)).1, bad := (l.getD k (0, false)).2, rank := 0, pc := 0 }
        else none }

def State.coderRead (s : State) (c : CtxRef) (n off : Nat) (va : Word) (l : List (Byte × Bool)) : State :=
  s.modCtx c fun x => x.setSlot n ((x.slot n).now.arrive off va l)

/-- The next step of an RCFLUSH: once its bytes stand in memory, POSITION is written; once that is done, it ends (R236). -/
def State.flushStep (s : State) (c : CtxRef) (o : EngineOp) (n : Nat) (daddr : Word) (pos : BitVec 32) : State :=
  match o.phase with
  | .writing => if s.accs.any fun a => a.rank == o.id then s else s.endOp c o.id
  | _ =>
    if ((s.ctx c).slot n).emits || s.emissionOut c n then s
    else
      match s.vmParts c .v .write 0 (piecesOf (daddr + 12).toNat 4) with
      | .error (cause, a) =>
        let f : Trap :=
          { cause := cause, addr := a, st := .v, async := true, word := some o.pc, syn := some (s.synOf c .write a) }
        (s.noteMiss c f).modCtx c fun x => x.setOp { o with pending := some f }
      | .ok ps =>
        ((s.modCtx c fun x => x.setOp { o with phase := .writing }).fillFor c .v ps).issueParts o.id (.stream c .v) .write false false 0
          (fun _ => .none) (fun k => (BitVec.ofNat 8 (pos.toNat / 2 ^ (8 * k)), false)) (fun _ => true) ps

end Sys2Proof.Machine
end

