-- ==== Sys2Proof/Machine/Matrix.lean ====
section
/-!
DEFINITION. The M stream: formats and planes, MLDW, MSWAP, MZERO, MSTR, MWIN, MOUT and MKAT, and what their operations do
when they complete (05 R119 to R123, 15 R280 to R301).
-/
namespace Sys2Proof.Machine

/-! ## Formats (R281) -/

/-- The bytes of an element of the formats that MFMT.t may exchange. -/
def fmtWidth (f : Nat) : Nat := if f = 1 ∨ f = 2 then 2 else 1

/-- Blocks of a 192-byte slice and bytes of a side entry: MXE4M3 and SXP4. -/
def sideBlocks (f : Nat) : Nat := if f = 5 then 6 else if f = 6 then 12 else 0
def sideEntry (f : Nat) : Nat := if f = 5 then 1 else if f = 6 then 4 else 0

/-- The side bytes of a column or of a row. -/
def sidePer (f : Nat) : Nat := sideBlocks f * sideEntry f

/-- The elements of a slice as exact numbers (05 R108, R109, R120). -/
def elemsOf (f : Nat) (bs : List Byte) (sides : List Nat) : List FpNum :=
  let b (k : Nat) : Nat := (bs.getD k 0).toNat
  match f with
  | 1 => (List.range 96).map fun k => bf16.value (b (2 * k) + 256 * b (2 * k + 1))
  | 2 => (List.range 96).map fun k => fp16.value (b (2 * k) + 256 * b (2 * k + 1))
  | 4 => bs.map fun x => e5m2.value x.toNat
  | 5 => (List.range 192).map fun k => mxValue (sides.getD (k / 32) 0) (b k)
  | 6 => (List.range 384).map fun k => sxValue (sides.getD (k / 32) 0) (b (k / 2) / 16 ^ (k % 2) % 16)
  | _ => bs.map fun x => e4m3.value x.toNat

/-- The blocks of a row that lie below KLEN, at least in part (R289). -/
def blocksBelow (f klen : Nat) : Nat := if sideBlocks f = 0 then 0 else (klen + 192 / sideBlocks f - 1) / (192 / sideBlocks f)

/-- The elements of a row that take part: blocks wholly at or above KLEN add nothing (R289). -/
def rowElems (f klen : Nat) (bs : List Byte) (sides : List Nat) : List FpNum :=
  let l := elemsOf f bs sides
  if sideBlocks f = 0 then l else l.take (32 * blocksBelow f klen)

/-! ## The slice rules (05 R120, R121) -/

/-- The sticky bits of MCSR. -/
def mAccSat : Nat := 0x100
def mIntSat : Nat := 0x200
def mNanAcc : Nat := 0x400

/-- R120: an accumulator and the terms of one slice, summed exactly and rounded once. -/
def accFloat (ieee : Bool) (acc : Nat) (row col : List FpNum) : Nat × Nat :=
  let sum := (row.zip col).foldl (fun (x : FpNum) p => (addNum x (mulNum p.1 p.2).num).num) (fp32.value acc)
  match sum with
  | .nan _ => (fp32.nan, mNanAcc)
  | .inf n => (signed1 fp32 n (fp32.maxMag + 1), 0)
  | .fin .. =>
    let y := fp32.encode 0 0 (if ieee then .ieee else .saturate) false sum
    (y.1, if y.2.ofl && !ieee then mAccSat else 0)

/-- R121. -/
def accInt (acc : Nat) (row col : List Byte) : Nat × Nat :=
  let sum := (row.zip col).foldl (fun (x : Int) p => x + p.1.toInt * p.2.toInt) (signed 32 acc)
  let (y, ch) := clampInt (-(2 ^ 31 : Nat)) ((2 ^ 31 : Nat) - 1) sum
  (wrapN 32 y, if ch then mIntSat else 0)

/-! ## Poison of an engine operation (14 R273) -/

/-- A consumed unit or side word: its space, whether it is a side word, its address. -/
structure Eaten where
  space : Space
  side  : Bool
  addr  : Nat
  deriving DecidableEq, Repr, Inhabited

/-- The poisoned units of a run, as consumed units. -/
def eatenOf (sp : Space) (a : Nat) (l : List (Byte × Bool)) : List Eaten :=
  (badUnits a l).map fun u => { space := sp, side := false, addr := u }

/-- An operation logs and counts everything it has consumed, space by space; the first asynchronous POISON is raised. -/
def State.eatAll (s : State) (c : CtxRef) (o : EngineOp) (l : List Eaten) : State × Bool × Option Trap :=
  [(Space.vm, false), (.ab, false), (.wb, false), (.cb, false), (.ss, false), (.ab, true), (.wb, true), (.ss, true),
    (.vm, true)].foldl (fun (r : State × Bool × Option Trap) k =>
      let units := ((l.filter fun e => e.space == k.1 && e.side == k.2).map (·.addr)).eraseDups
      let (s', g, t) := r.1.consumeLate c o.st (if r.2.1 then none else o.it) o.id k.1 k.2 units
      (s', r.2.1 || g, r.2.2.orElse fun _ => t)) (s, false, none)

/-- Bytes of a context's buffer with the units consumed. -/
def State.eat (s : State) (c : CtxRef) (sp : Space) (a n : Nat) : List Byte × List Eaten :=
  let l := s.bufRead c sp a n
  (zeroed l, eatenOf sp a l)

/-- Little-endian numbers of `w` bytes. -/
def words (w n : Nat) (l : List Byte) : List Nat := (List.range n).map fun k => ofBytes ((l.drop (w * k)).take w)

/-- Side words of an SXP4 slice: a block whose side word has MBZ bits reads as 32 elements of +0 (R110, R286, R290). -/
def fixSides (sp : Space) (addr : Nat) (bs : List Byte) (sides : List Nat) : List Byte × List Nat × List Eaten :=
  let bad (b : Nat) : Bool := decide (65536 ≤ sides.getD b 0)
  ((List.range bs.length).map fun k => if bad (k / 16) then 0 else bs.getD k 0,
    sides.map (fun w => if 65536 ≤ w then 0x7F else w),
    ((List.range sides.length).filter bad).map fun b => { space := sp, side := true, addr := addr + 4 * b })

/-! ## Planes (R280, R283) -/

/-- Where the side plane stands beside its plane. -/
def planeSize : Nat := 49152

/-- The plane store that a context streams against: its own in PAIR mode, the active one in SOLO mode. -/
def Cell.activeStore (l : Cell) (k : Bank) : Bool := if l.pair then k == Bank.b else l.active1

/-- The plane store that MLDW loads: the context's own in PAIR mode, the shadow plane in SOLO mode. -/
def Cell.loadStore (l : Cell) (k : Bank) : Bool := if l.pair then k == Bank.b else !l.active1

def Cell.plane (l : Cell) (one : Bool) : Memory := if one then l.plane1 else l.plane0

def Cell.setPlane (l : Cell) (one : Bool) (m : Memory) : Cell := if one then { l with plane1 := m } else { l with plane0 := m }

/-- A plane store from its bytes. -/
def planeOf (bs : List Byte) : Memory :=
  { base := 0, cells := ((List.range bs.length).zip bs).filter fun p => p.2 != 0, marks := [] }

/-- The bytes and side numbers of a column. -/
def planeColumn (m : Memory) (f j : Nat) : List Byte × List Nat :=
  (m.readN (192 * j) 192, words (sideEntry f) (sideBlocks f) (m.readN (planeSize + sidePer f * j) (sidePer f)))

/-! ## Issue (R282, R284 to R289, R296, R299, R301) -/

/-- A word of the M stream by context B of a SOLO cell traps BUFACC (02 R30). -/
def soloM (taddr : Word) : Act Unit := soloB .ab taddr

/-- FMTMIX: CF in bits [7:4], the active plane's tag in [3:0] (R282). -/
def fmtMix (bad : Bool) : Act Unit := do
  let c ← cx
  trapIf bad .fmtmix (BitVec.ofNat 64 (16 * c.issCf.toNat + c.issAct.toNat))

/-- MFMT (R285). -/
def execMfmt (o : MA) (s : State) : Host.Outcome State Fault Refusal :=
  word o.g (do
    soloM 0
    let f : BitVec 4 := o.mode.setWidth 4
    modCx fun c => { c with cf := f, issCf := f }) s

/-- The youngest MSWAP that has not taken effect activates the new tag; otherwise the plane has it at once. -/
def Ctx.retag (c : Ctx) (f : BitVec 4) : Ctx :=
  match (c.ops.filter fun o => o.kind.isMswap).getLast? with
  | some o => match o.kind with
    | .mswap _ sh => c.setOp { o with kind := .mswap f sh }
    | _ => c
  | none => { c with tagAct := f }

/-- MFMT.t (R285). -/
def execMfmtT (o : MA) (s : State) : Host.Outcome State Fault Refusal :=
  word o.g (do
    soloM 0
    let f : BitVec 4 := o.mode.setWidth 4
    let c ← cx
    let t := c.issAct.toNat
    fmtMix (t == 0 || t == 5 || t == 6 || f.toNat == 5 || f.toNat == 6 || fmtWidth t != fmtWidth f.toNat)
    modCx fun c => { c.retag f with cf := f, issCf := f, issAct := f }) s

/-- The bytes of the side planes of a format. -/
def sidePlane (f : Nat) : Nat := 256 * sidePer f

/-- MLDW (R286). -/
def execMldw (o : MA) (s : State) : Host.Outcome State Fault Refusal :=
  word o.g (do
    let (w, sd) ← read2 (aRef .m o.a) o.k1 (aRef .m o.b) o.k2
    soloM w
    let c ← cx
    let f := c.issCf.toNat
    let side := sidePlane f
    fmtMix (f == 0)
    trapIf (w.toNat % 256 != 0) .align w
    inLimit .wb w.toNat planeSize w
    (if 0 < side then inLimit .wb sd.toNat side sd else pure ())
    trapIf (f == 6 && sd.toNat % 4 != 0) .align sd
    outward
    let l ← curCell
    let _ ← newOp (.mldw f w.toNat sd.toNat) (seg .wb w.toNat planeSize ++ seg .wb sd.toNat side) [] []
    modCx fun c => { c with issSh := c.issCf, issAct := if l.pair then 0 else c.issAct, ldSince := true }) s

/-- MSWAP (R287). -/
def execMswap (o : MA) (s : State) : Host.Outcome State Fault Refusal :=
  word o.g (do
    soloM 0
    outward
    let c ← cx
    let l ← curCell
    let sh := if l.pair then c.issSh else c.issAct
    let _ ← newOp (.mswap c.issSh sh) [] [] []
    modCx fun x => { x with issAct := c.issSh, issSh := sh, ldSince := false }) s

/-- MZERO (R288). -/
def execMzero (o : MA) (s : State) : Host.Outcome State Fault Refusal :=
  word o.g (do
    let (a, nw) ← read2 (aRef .m o.a) o.k1 (aRef .m o.b) o.k2
    soloM a
    let n := nw.toNat % 2 ^ 11
    trapIf (a.toNat % 1024 != 0) .align a
    inLimit .cb a.toNat (1024 * n) a
    outward
    let _ ← newOp .mzero [] (seg .cb a.toNat (1024 * n)) []
    pure ()) s

/-- KLEN: 0 means 192, and a row has no byte beyond 192 (R289). -/
def klenOf (x : Nat) : Nat := if x = 0 then 192 else min x 192

/-- MSTR (R289, R290). With N = 0 it finishes at once, and no operation is recorded. The alignments are tested in the order aA, PITCH, aC,
and `TADDR` is the value of the field that fails (DESIGN CHOICE, log 96). -/
def execMstr (o : MA) (s : State) : Host.Outcome State Fault Refusal :=
  word o.g (do
    let (a, c, p) ← readMA .m o
    soloM a
    let x ← cx
    let f := x.issCf.toNat
    let n := bits p 0 11
    let pitch := bits p 12 20
    let side := bits p 32 21
    let acc := bitOf o.mode 0
    fmtMix (x.issCf != x.issAct || f == 0)
    trapIf (a.toNat % 64 != 0) .align a
    trapIf (pitch % 64 != 0) .align (BitVec.ofNat 64 pitch)
    trapIf (c.toNat % 1024 != 0) .align c
    trapIf (f == 6 && side % 4 != 0) .align (BitVec.ofNat 64 side)
    (if 0 < n then do
        inLimit .ab a.toNat ((n - 1) * pitch + 192) a
        inLimit .cb c.toNat (1024 * n) c
        (if sidePer f = 0 then pure () else inLimit .ab side (n * sidePer f) (BitVec.ofNat 64 side))
      else pure ())
    outward
    let rows := seg .cb c.toNat (1024 * n)
    let ab := if n = 0 then [] else seg .ab a.toNat ((n - 1) * pitch + 192) ++ seg .ab side (n * sidePer f)
    if n = 0 then pure ()
    else do
      let _ ← newOp (.mstr acc x.accOvf f a.toNat c.toNat n pitch side (klenOf (bits p 53 8)))
        (ab ++ if acc then rows else []) rows []) s

/-- MWIN (R296): the descriptor and the cursor are captured at issue, and the cursor advances. -/
def execMwin (o : MA) (s : State) : Host.Outcome State Fault Refusal :=
  word o.g (do
    let (c, sl, p) ← readMA .m o
    let k := bits o.mode 1 2
    wdFree k
    soloM c
    let x ← cx
    let f := x.issCf.toNat
    let n := bits p 0 11
    let acc := bitOf o.mode 0
    fmtMix (x.issCf != x.issAct || f == 0 || f == 5 || f == 6)
    let d ← useWd k [0] (fmtWidth f) none
    trapIf (c.toNat % 1024 != 0) .align c
    inLimit .cb c.toNat (1024 * n) c
    outward
    if d.empty then modCx fun y => { y with wd := Table.put y.wd 0 k (d.setEmpty true) }
    else do
      let rows := seg .cb c.toNat (1024 * n)
      let _ ← newOp (.mwin acc x.accOvf f k d d.pix n c.toNat (bits sl 0 16)) (d.seg ++ if acc then rows else []) rows []
      modCx fun y =>
        { y with wd := Table.put y.wd 0 k ((d.setEmpty false).setPix ((d.pix + n) % (d.ho * d.wo))) }) s

/-- The bytes of an output row, and of its side entries (R299). -/
def outRow (f : Nat) : Nat := if f = 8 then 1024 else if f = 1 ∨ f = 2 then 512 else if f = 6 then 128 else 256
def outSide (f : Nat) : Nat := if f = 5 then 8 else if f = 6 then 32 else 0

/-- The fields of MOUT's operands (R299). -/
def moutAb (d : Word) : Nat := bits d 0 21
def moutSide (d : Word) : Nat := bits d 21 21
def moutN (p : Word) : Nat := bits p 0 11
def moutRm (p : Word) : Nat := if bits p 11 2 = 1 then 1 else 0
def moutPitch (p : Word) : Nat := bits p 13 19
def moutPb (p : Word) : Nat := bits p 32 21

/-- MOUT (R299, R300). `TADDR` of a misaligned pitch is the pitch (DESIGN CHOICE, log 96). -/
def execMout (o : MA) (s : State) : Host.Outcome State Fault Refusal :=
  word o.g (do
    let (c, d, p) ← readMA .m o
    soloM c
    let f := bits o.mode 0 4
    let n := moutN p
    trapIf (c.toNat % 1024 != 0) .align c
    trapIf (moutAb d % 64 != 0) .align (BitVec.ofNat 64 (moutAb d))
    trapIf (moutPitch p % 64 != 0) .align (BitVec.ofNat 64 (moutPitch p))
    trapIf (moutPb p % 1024 != 0) .align (BitVec.ofNat 64 (moutPb p))
    trapIf (f == 6 && moutSide d % 4 != 0) .align (BitVec.ofNat 64 (moutSide d))
    inLimit .cb c.toNat (1024 * n) c
    inLimit .cb (moutPb p) 3072 (BitVec.ofNat 64 (moutPb p))
    (if 0 < n then do
        inLimit .ab (moutAb d) (moutPitch p * (n - 1) + outRow f) (BitVec.ofNat 64 (moutAb d))
        (if outSide f = 0 then pure () else inLimit .ab (moutSide d) (n * outSide f) (BitVec.ofNat 64 (moutSide d)))
      else pure ())
    outward
    let reads := if n = 0 then [] else seg .cb c.toNat (1024 * n) ++ seg .cb (moutPb p) 3072
    let writes := if n = 0 then [] else
      seg .ab (moutAb d) (moutPitch p * (n - 1) + outRow f) ++ seg .ab (moutSide d) (n * outSide f)
    let _ ← newOp (.mout f (bits o.mode 4 2) c.toNat d.toNat p) reads writes []
    pure ()) s

/-- MKAT (R301): a counted skip where the shadow plane is busy; otherwise an operation that holds M's issue. -/
def execMkat (o : MA) (sig : BitVec 32) (s : State) : Host.Outcome State Fault Refusal :=
  finish 2 false (guarded o.g (seqOf (do
    let a ← read1 (aRef .m o.a) o.k1
    soloM 0
    outward
    let c ← cx
    let l ← curCell
    if l.pair || c.ldSince then modCurCell fun l => { l with katskip := BitVec.ofNat 32 (satAdd32 l.katskip.toNat 1) }
    else do
      let _ ← newOp (.mkat (a.setWidth 32) sig) [] [] []
      modCx fun c => { c with issSh := 0 }))) s

/-! ## Completion -/

/-- MLDW (R286). -/
def State.mldwDone (s : State) (c : CtxRef) (o : EngineOp) (f w side : Nat) : State :=
  let l := s.cell c.cell
  let store := l.loadStore c.bank
  let (bs, e1) := s.eat c .wb w planeSize
  let (sb, e2) := s.eat c .wb side (sidePlane f)
  let cols := (List.range 256).map fun j =>
    let col := (bs.drop (192 * j)).take 192
    let raw := (sb.drop (sidePer f * j)).take (sidePer f)
    if f = 6 then
      let (x, ws, e) := fixSides .wb (side + 48 * j) col (words 4 12 raw)
      (x, (ws.map fun v => toBytes v 4).flatten, e)
    else (col, raw, [])
  let sides := if sidePlane f = 0 then (l.plane store).readN planeSize 12288 else (cols.map fun x => x.2.1).flatten
  let m := planeOf ((cols.map fun x => x.1).flatten ++ sides)
  let s := s.modCell c.cell fun l => l.setPlane store m
  let (s, _, t) := s.eatAll c o (e1 ++ e2 ++ (cols.map fun x => x.2.2).flatten)
  (s.modCtx c fun x => { x with tagSh := BitVec.ofNat 4 f }).raiseLate c t

/-- MSWAP (R287). -/
def State.mswapDone (s : State) (c : CtxRef) (act sh : BitVec 4) : State :=
  (s.modCell c.cell fun l => if l.pair then l else { l with active1 := !l.active1 }).modCtx c fun x =>
    { x with tagAct := act, tagSh := sh }

/-- MZERO (R288). -/
def State.mzeroDone (s : State) (c : CtxRef) (o : EngineOp) : State :=
  o.writes.foldl (fun s g => s.bufWrite c .cb g.addr (cleanBytes (List.replicate g.len 0))) s

/-- The in-image bytes of slice sl of pixel p (R294). -/
def Wd.sliceSegs (d : Wd) (p sl : Nat) : List Seg :=
  (List.range 192).filterMap fun k => (d.kByte p (192 * sl + k)).join.map fun a => { space := .ab, addr := a, len := 1 }

/-- The bytes that an operation of M reads: no byte at or above KLEN, no side entry of a block wholly there, no pad (R289, R294). -/
def OpKind.mReads (k : OpKind) : List Seg :=
  let accRow (acc : Bool) (aC r : Nat) : List Seg := if acc then [{ space := .cb, addr := aC + 1024 * r, len := 1024 }] else []
  match k with
  | .mldw f w side => [{ space := .wb, addr := w, len := planeSize }, { space := .wb, addr := side, len := sidePlane f }]
  | .mstr acc _ f aA aC n pitch side klen => ((List.range n).map fun r =>
      [{ space := .ab, addr := aA + r * pitch, len := klen },
       { space := .ab, addr := side + r * sidePer f, len := blocksBelow f klen * sideEntry f }] ++ accRow acc aC r).flatten
  | .mwin acc _ _ _ d pix n aC slice => ((List.range n).map fun r =>
      Wd.sliceSegs d ((pix + r) % (Wd.ho d * Wd.wo d)) slice ++ accRow acc aC r).flatten
  | .mout _ _ aC _ p =>
    if moutN p = 0 then [] else [{ space := .cb, addr := aC, len := 1024 * moutN p }, { space := .cb, addr := moutPb p, len := 3072 }]
  | _ => []

/-- A streamed row: its bytes, the side numbers and what it consumed. -/
structure StreamRow where
  bytes : List Byte
  sides : List Nat
  eaten : List Eaten
  deriving DecidableEq, Repr, Inhabited

/-- Row r of MSTR (R289, R290). -/
def State.mstrRow (s : State) (c : CtxRef) (f aA pitch side klen r : Nat) : StreamRow :=
  let (bs, e1) := s.eat c .ab (aA + r * pitch) klen
  let row := bs ++ List.replicate (192 - klen) 0
  let n := blocksBelow f klen
  let (sb, e2) := s.eat c .ab (side + r * sidePer f) (n * sideEntry f)
  let ws := words (sideEntry f) n sb
  if f = 6 then
    let (x, ws, e3) := fixSides .ab (side + r * sidePer f) row ws
    { bytes := x, sides := ws, eaten := e1 ++ e2 ++ e3 }
  else { bytes := row, sides := ws, eaten := e1 ++ e2 }

/-- Row r of MWIN (R295, R296): only in-image bytes of the slice are read (R294). -/
def State.mwinRow (s : State) (c : CtxRef) (d : Wd) (pix slice r : Nat) : StreamRow :=
  let l := d.sliceRow (fun a => (s.bufRead c .ab a 1).headD (0, false)) ((pix + r) % (d.ho * d.wo)) slice
  { bytes := l.map fun x => if x.2.1 then 0 else x.1
    sides := []
    eaten := ((l.filter fun x => x.2.1).map fun x => { space := .ab, side := false, addr := x.2.2 / 8 * 8 : Eaten }).eraseDups }

/-- One row against every column of the plane: the CB words, the flags, and what was consumed (R289). -/
def State.accRow (s : State) (c : CtxRef) (acc ovf : Bool) (f : Nat) (cols : List (List Byte × List FpNum)) (klen at_ : Nat)
    (row : StreamRow) : List Nat × Nat × List Eaten :=
  let (ab, e) := if acc then s.eat c .cb at_ 1024 else ([], [])
  let old := words 4 256 ab
  let nums := rowElems f klen row.bytes row.sides
  let rs := (List.range 256).map fun j =>
    let a := if acc then old.getD j 0 else 0
    let (cb, cn) := cols.getD j ([], [])
    if f = 7 then accInt a row.bytes cb else accFloat ovf a nums cn
  (rs.map (·.1), rs.foldl (fun fl r => (BitVec.ofNat 64 fl ||| BitVec.ofNat 64 r.2).toNat) 0, row.eaten ++ e)

/-- The columns of the plane that a context streams against. -/
def State.columns (s : State) (c : CtxRef) (f : Nat) : List (List Byte × List FpNum) :=
  let l := s.cell c.cell
  let m := l.plane (l.activeStore c.bank)
  (List.range 256).map fun j =>
    let (bs, ws) := planeColumn m f j
    (bs, if f = 7 then [] else elemsOf f bs ws)

/-- All rows of a streaming operation in turn: each CB row is written before the next is read; under TRAP a row that derives
from poison is written with marks (14 R273). -/
def State.streamRows (s : State) (c : CtxRef) (acc ovf : Bool) (f klen aC : Nat) (row : State → Nat → StreamRow) :
    List Nat → State × Nat × List Eaten
  | [] => (s, 0, [])
  | r :: rest =>
    let (ws, fl, e) := s.accRow c acc ovf f (s.columns c f) klen (aC + 1024 * r) (row s r)
    let bad := !e.isEmpty && (s.ctx c).poisonTrap
    let s := s.bufWrite c .cb (aC + 1024 * r) ((ws.map fun w => toBytes w 4).flatten.map fun b => some (b, bad))
    let (s, fl', e') := s.streamRows c acc ovf f klen aC row rest
    (s, (BitVec.ofNat 64 fl ||| BitVec.ofNat 64 fl').toNat, e ++ e')

/-- The end of MSTR and MWIN: flags that no younger CSR write has overtaken, and the poison consumed. -/
def State.streamDone (s : State) (c : CtxRef) (o : EngineOp) (acc ovf : Bool) (f klen aC n : Nat)
    (row : State → Nat → StreamRow) : State :=
  let (s, fl, e) := s.streamRows c acc ovf f klen aC row (List.range n)
  let s := s.modCell c.cell fun l => l.count 6 n
  let s := s.modCtx c fun x => { x with mcsr := x.mcsr ||| o.kept 0x079 (BitVec.ofNat 64 fl) }
  let (s, _, t) := s.eatAll c o e.eraseDups
  s.raiseLate c t

/-! ## MOUT (05 R123, 15 R299) -/

/-- act(u): 0 none, 1 ReLU, 2 clamp. -/
def moutAct (act lo hi u : Nat) : Nat :=
  match act with
  | 1 => match fp32.value u with
    | .nan _ => fp32.nan
    | v => if v.isNeg || v.isZero then 0 else u
  | 2 => match fp32.value u with
    | .nan _ => u
    | _ => (pickFp false fp32 0 (pickFp true fp32 0 u lo).1 hi).1
  | _ => u

/-- One column: rnd32(a × scale), rnd32(t + bias), the activation. -/
def moutValue (iacc : Bool) (act lo hi a scale bias : Nat) : Nat :=
  let x := if iacc then intNum (signed 32 a) else fp32.value a
  let t := (fp32.finish 0 (mulNum x (fp32.value scale))).1
  moutAct act lo hi (fp32.add 0 t bias).1

/-- A value rounded once to a format with saturation; an infinity saturates as well. -/
def satCode (f : Fmt) (rm x : Nat) : Nat :=
  match fp32.value x with
  | .inf n => signed1 f n f.maxMag
  | v => (f.encode rm 0 .saturate false v).1

/-- An output row and its side entries as bytes. -/
def moutRow (f rm : Nat) (vs : List Nat) : List Byte × List Byte :=
  let bytesOf (w : Nat) (l : List Nat) : List Byte := (l.map fun v => toBytes v w).flatten
  let block (b : Nat) : List FpNum := (List.range 32).map fun i => fp32.value (vs.getD (32 * b + i) 0)
  match f with
  | 1 => (bytesOf 2 (vs.map (satCode bf16 rm)), [])
  | 2 => (bytesOf 2 (vs.map (satCode fp16 rm)), [])
  | 3 => (bytesOf 1 (vs.map (satCode e4m3 rm)), [])
  | 4 => (bytesOf 1 (vs.map (satCode e5m2 rm)), [])
  | 5 =>
    let bs := (List.range 8).map fun b => encodeMx (block b)
    (bytesOf 1 (bs.map fun x => x.2.1).flatten, bytesOf 1 (bs.map fun x => x.1))
  | 6 =>
    let bs := (List.range 8).map fun b => encodeSx (block b)
    (bytesOf 1 (packNibbles (bs.map fun x => x.2.1).flatten), bytesOf 4 (bs.map fun x => x.1))
  | 7 => (bytesOf 1 (vs.map fun v => (toIntCode 8 true rm 0 (fp32.value v)).1), [])
  | _ => (bytesOf 4 vs, [])

/-- The columns that derive from poisoned CB units of a row, as output byte positions: a whole block for the block formats
(14 R273). -/
def moutBad (f aRow : Nat) (all : Bool) (e : List Eaten) (j : Nat) : Bool :=
  let hit (k : Nat) : Bool := all || e.any fun x => x.addr == (aRow + 4 * k) / 8 * 8
  if f = 5 ∨ f = 6 then (List.range 32).any fun i => hit (j / 32 * 32 + i) else hit j

/-- One row of MOUT. -/
def State.moutOne (s : State) (c : CtxRef) (f act aC : Nat) (d p : Word) (prm : List Byte) (all : Bool) (r : Nat) :
    State × List Eaten :=
  let aRow := aC + 1024 * r
  let (bs, e) := s.eat c .cb aRow 1024
  let ws := words 4 256 bs
  let pw := words 4 514 prm
  let vs := (List.range 256).map fun j =>
    moutValue (bitOf p 63) act (pw.getD 512 0) (pw.getD 513 0) (ws.getD j 0) (pw.getD j 0) (pw.getD (256 + j) 0)
  let (row, side) := moutRow f (moutRm p) vs
  let mark := (s.ctx c).poisonTrap
  let put (per : Nat) (l : List Byte) : List (Option (Byte × Bool)) :=
    (List.range l.length).map fun k => some (l.getD k 0, mark && moutBad f aRow all e (k * 256 / per))
  let s := s.bufWrite c .ab (moutAb d + moutPitch p * r) (put (outRow f) row)
  let s := if side.isEmpty then s else s.bufWrite c .ab (moutSide d + outSide f * r) (put (outSide f) side)
  (s, e)

/-- The rows of MOUT in turn. -/
def State.moutRows (s : State) (c : CtxRef) (f act aC : Nat) (d p : Word) (prm : List Byte) (all : Bool) :
    List Nat → State × List Eaten
  | [] => (s, [])
  | r :: rest =>
    let (s, e) := s.moutOne c f act aC d p prm all r
    let (s, e') := s.moutRows c f act aC d p prm all rest
    (s, e ++ e')

/-- The end of MOUT: it sets no flag. -/
def State.moutDone (s : State) (c : CtxRef) (o : EngineOp) (f act aC aD : Nat) (p : Word) : State :=
  let n := moutN p
  if n = 0 then s
  else
    let (prm, e) := s.eat c .cb (moutPb p) 3072
    let (s, e') := s.moutRows c f act aC (BitVec.ofNat 64 aD) p prm (!e.isEmpty) (List.range n)
    let s := s.modCell c.cell fun l => l.count 7 n
    let (s, _, t) := s.eatAll c o (e ++ e').eraseDups
    s.raiseLate c t

/-! ## MKAT (R301) -/

/-- One step of the byte sequence. -/
def katNext (x : BitVec 32) : BitVec 32 := (x <<< 1) ^^^ (if bitOf x 31 then 0x04C11DB7#32 else 0#32)

/-- The next n bytes of the sequence, newest first, and its state. -/
def katBytes (x : BitVec 32) (acc : List Byte) : Nat → BitVec 32 × List Byte
  | 0 => (x, acc)
  | n + 1 => katBytes (katNext x) ((katNext x).setWidth 8 :: acc) n

/-- The signature over rows and columns. -/
def katSig (rows cols : List (List Byte)) : BitVec 32 :=
  rows.foldl (fun g r => cols.foldl (fun (g : BitVec 32) c =>
    g.rotateLeft 1 ^^^ BitVec.ofInt 32 ((r.zip c).foldl (fun (x : Int) p => x + p.1.toInt * p.2.toInt) 0)) g) 0

/-- Bytes in runs of 192. -/
def runs192 (n : Nat) (l : List Byte) : List (List Byte) := (List.range n).map fun k => (l.drop (192 * k)).take 192

/-- The end of MKAT: the shadow plane holds the sequence, its tag is NONE; a mismatch counts, and traps where KATTRAP is
set. -/
def State.mkatDone (s : State) (c : CtxRef) (seed sig : BitVec 32) : State :=
  let (x, plane) := katBytes (if seed = 0 then 1 else seed) [] planeSize
  let (_, act) := katBytes x [] 3072
  let g := katSig (runs192 16 act.reverse) (runs192 256 plane.reverse)
  let l := s.cell c.cell
  let store := l.loadStore c.bank
  let s := s.modCell c.cell fun l =>
    l.setPlane store (planeOf (plane.reverse ++ (l.plane store).readN planeSize 12288))
  let s := s.modCtx c fun x => { x with tagSh := 0 }
  if g = sig then s
  else
    let s := s.modCell c.cell fun l =>
      { l with katfail := BitVec.ofNat 32 (satAdd32 l.katfail.toNat 1), score := min (l.score + 32) 0xFFFF }
    s.raiseLate c (if bitOf (s.ctx c).status 9 then
      some { cause := .katfail, addr := g.setWidth 64, st := .m, async := false, word := s.curPc } else none)

end Sys2Proof.Machine
end

