-- ==== Sys2Proof/Machine/Copy.lean ====
section
/-!
DEFINITION. The X stream: the words that start copies, gathers, scatters, fills, superstep and peer transfers, reductions
and prefetches, letterboxes and XSTAT; and the progress of X operations, row by row (16 R303 to R325).
-/
namespace Sys2Proof.Machine

/-! ## Spaces and checks (R303) -/

/-- The space of a 2-bit code: AB, WB, shared store, virtual memory. -/
def xSpace (n : Nat) : Space :=
  match n with
  | 0 => .ab
  | 1 => .wb
  | 2 => .ss
  | _ => .vm

/-- The BUFACC of a range: X never reads WB, and a range that ends beyond its limit traps. -/
def State.rangeBad (s : State) (write : Bool) (g : Seg) : Bool :=
  g.space != .vm && ((g.space == .wb && !write) || (g.len != 0 && decide (s.limit s.cur g.space < g.addr + g.len)))

/-- A virtual address with bits [63:55] not zero. -/
def vmBad (g : Seg) : Bool := g.space == .vm && decide (2 ^ 55 ≤ g.addr)

/-- The BUFACC of ranges, each with whether it is written, in order (R303). -/
def State.rangeBufacc (s : State) (l : List (Bool × Seg)) : Option (Cause × Word) :=
  (l.find? fun p => s.rangeBad p.1 p.2).map fun p => (.bufacc, BitVec.ofNat 64 p.2.addr)

/-- The PROT of ranges (R303). -/
def rangeProt (l : List (Bool × Seg)) : Option (Cause × Word) :=
  (l.find? fun p => vmBad p.2).map fun p => (.prot, BitVec.ofNat 64 p.2.addr)

/-- The first trap of ranges: BUFACC in order, then PROT (R303, 04 R97). -/
def State.rangeFault (s : State) (l : List (Bool × Seg)) : Option (Cause × Word) :=
  (s.rangeBufacc l).orElse fun _ => rangeProt l

/-- Raises a fault that a check has found; `l` are the ranges, for the access type of a PROT. -/
def trapFault (l : List (Bool × Seg)) (f : Option (Cause × Word)) : Act Unit :=
  match f with
  | some (.prot, a) => faultNow (if ((l.find? fun p => vmBad p.2).map (·.1)).getD false then .write else .read) .prot a
  | some (cause, a) => trapNow cause a
  | none => pure ()

def checkRanges (l : List (Bool × Seg)) : Act Unit := fun s => trapFault l (s.rangeFault l) s

/-- The ranges that the range checker records: none of virtual memory (14 R277). -/
def recordSegs (l : List Seg) : List Seg := l.filter fun g => g.space != .vm && g.len != 0

/-- A write to virtual memory is an outward effect (08 R188). -/
def outwardDst (sp : Space) : Act Unit := if sp = .vm then outward else pure ()

/-! ## Conversions of a copy (R309) -/

/-- The alignment of the source and of the destination: their element size. -/
def convSrcAlign (code : Nat) : Nat := if code = 8 ∨ code = 10 then 4 else (convShape code).su
def convDstAlign (code : Nat) : Nat := if code = 9 ∨ code = 11 then 4 else (convShape code).du

/-- The draws of a row of `len` source bytes: one for four destination elements (R309). -/
def convDraws (code len : Nat) : Nat := (len / (convShape code).su * (convShape code).el + 3) / 4

/-- The random value of destination element i (05 R113). -/
def XConv.u (x : XConv) (row draws i : Nat) : Nat :=
  bits (rng x.key x.strm (x.draw + BitVec.ofNat 64 (row * draws + i / 4))) (16 * (i % 4)) 16

/-- What a conversion writes: bytes, side entries, flags, and the blocks whose side word has MBZ bits. -/
structure ConvOut where
  main : List (Byte × Bool)
  side : List (Byte × Bool)
  fl   : FpFlags
  mbz  : List Nat
  deriving DecidableEq, Repr, Inhabited

/-- n bytes with one mark. -/
def markedBytes (v n : Nat) (bad : Bool) : List (Byte × Bool) := (toBytes v n).map fun b => (b, bad)

/-- A row of a converting copy (R309, 05 R115 to R118): a mark follows what derives from poison (14 R273). -/
def convRow (code rm : Nat) (u : Nat → Nat) (main side : List (Byte × Bool)) : ConvOut :=
  let sh := convShape code
  let n := main.length / sh.su
  match code with
  | 8 =>
    let bs := (List.range n).map fun b =>
      (encodeMx ((List.range 32).map fun i => fp32.value (numAt main (128 * b + 4 * i) 4).1), (numAt main (128 * b) 128).2)
    { main := (bs.map fun x => x.1.2.1.map fun v => (BitVec.ofNat 8 v, x.2)).flatten
      side := bs.map fun x => (BitVec.ofNat 8 x.1.1, x.2)
      fl := FpFlags.all (bs.map fun x => x.1.2.2), mbz := [] }
  | 10 =>
    let bs := (List.range n).map fun b =>
      (encodeSx ((List.range 32).map fun i => fp32.value (numAt main (128 * b + 4 * i) 4).1), (numAt main (128 * b) 128).2)
    { main := (bs.map fun x => (packNibbles x.1.2.1).map fun v => (BitVec.ofNat 8 v, x.2)).flatten
      side := (bs.map fun x => markedBytes x.1.1 4 x.2).flatten
      fl := FpFlags.all (bs.map fun x => x.1.2.2), mbz := [] }
  | 9 =>
    let rs := (List.range (32 * n)).map fun i =>
      let sc := numAt side (i / 32) 1
      let x := numAt main i 1
      (fromBlock rm (u i) (mxValue sc.1 x.1), sc.2 || x.2)
    { main := (rs.map fun r => markedBytes r.1.1 4 r.2).flatten, side := [], fl := FpFlags.all (rs.map fun r => r.1.2), mbz := [] }
  | 11 =>
    let rs := (List.range (32 * n)).map fun i =>
      let w := numAt side (4 * (i / 32)) 4
      let x := numAt main (i / 2) 1
      if 65536 ≤ w.1 then ((0, FpFlags.none), true)
      else (fromBlock rm (u i) (sxValue w.1 (x.1 / 16 ^ (i % 2) % 16)), w.2 || x.2)
    { main := (rs.map fun r => markedBytes r.1.1 4 r.2).flatten, side := [], fl := FpFlags.all (rs.map fun r => r.1.2)
      mbz := (List.range n).filter fun b => decide (65536 ≤ (numAt side (4 * b) 4).1) }
  | _ =>
    let rs := (List.range n).map fun i =>
      let x := numAt main (sh.su * i) sh.su
      (cvtElem code rm (u i) x.1, x.2)
    { main := (rs.map fun r => markedBytes r.1.1 sh.du r.2).flatten, side := [], fl := FpFlags.all (rs.map fun r => r.1.2), mbz := [] }

/-! ## XCPY and XCPY2 (R308 to R310) -/

/-- What a copy asks for: spaces, addresses of row 0, bytes per row, conversion, side distance, pitches and rows. -/
structure CopyReq where
  word : Word
  ssp  : Space
  sa   : Word
  dsp  : Space
  da   : Word
  len  : Nat
  ce   : Bool
  cv   : Nat
  rm   : Nat
  soff : Nat
  sp   : Int
  dp   : Int
  rows : Nat
  deriving DecidableEq, Repr, Inhabited

/-- The units of a row. -/
def CopyReq.units (r : CopyReq) : Nat := if r.ce then r.len / (convShape r.cv).su else 0

/-- The bytes that a row writes. -/
def CopyReq.dlen (r : CopyReq) : Nat := if r.ce then r.units * (convShape r.cv).du else r.len

/-- The ranges of row i: source, destination, their side ranges. -/
def CopyReq.ranges (r : CopyReq) (i : Nat) : List (Bool × Seg) :=
  let s := rowAddr r.ssp r.sa.toNat r.sp i
  let d := rowAddr r.dsp r.da.toNat r.dp i
  [(false, { space := r.ssp, addr := s, len := r.len }), (true, { space := r.dsp, addr := d, len := r.dlen })] ++
    if r.ce then
      [(false, { space := r.ssp, addr := s + r.soff, len := r.units * (convShape r.cv).ss }),
       (true, { space := r.dsp, addr := d + r.soff, len := r.units * (convShape r.cv).ds })].filter fun p => p.2.len != 0
    else []

/-- A row that lies below address 0 of its buffer. -/
def CopyReq.below (r : CopyReq) (i : Nat) : Option (Cause × Word) :=
  if r.ssp ≠ .vm ∧ (r.sa.toNat : Int) + i * r.sp < 0 then some (.bufacc, BitVec.ofInt 64 ((r.sa.toNat : Int) + i * r.sp))
  else if r.dsp ≠ .vm ∧ (r.da.toNat : Int) + i * r.dp < 0 then some (.bufacc, BitVec.ofInt 64 ((r.da.toNat : Int) + i * r.dp))
  else none

/-- Steps 1 to 3 of R309 for row i, with the ranges of R303. -/
def State.copyFault (s : State) (r : CopyReq) (i : Nat) : Option (Cause × Word) :=
  let a := rowAddr r.ssp r.sa.toNat r.sp i
  let d := rowAddr r.dsp r.da.toNat r.dp i
  if r.ce && (decide (28 ≤ r.cv) || r.rm == 2 && (r.cv == 8 || r.cv == 10)) then some (.illop, r.word)
  else if r.ce && r.len % (convShape r.cv).su != 0 then some (.align, BitVec.ofNat 64 r.len)
  else if r.ce && a % convSrcAlign r.cv != 0 then some (.align, BitVec.ofNat 64 a)
  else if r.ce && d % convDstAlign r.cv != 0 then some (.align, BitVec.ofNat 64 d)
  else (r.below i).orElse fun _ => s.rangeFault (r.ranges i)

/-- The draws of all rows. -/
def CopyReq.draws (r : CopyReq) : Nat := if r.ce && r.rm == 2 then r.rows * convDraws r.cv r.len else 0

/-- The span of ranges over the first and the last row. -/
def spanOf (write : Bool) (first last : List (Bool × Seg)) : List Seg :=
  recordSegs (((first.zip last).filter fun p => p.1.1 == write).map fun p =>
    { p.1.2 with addr := min p.1.2.addr p.2.2.addr, len := max p.1.2.addr p.2.2.addr + p.1.2.len - min p.1.2.addr p.2.2.addr })

/-- The rounding mode of a copy: 3 acts as 0. -/
def copyRm (rm : Nat) : Nat := if rm = 3 then 0 else rm

/-- Starts a copy: the checks row by row, the draws, the operation; one of no bytes is complete at once (R308, R310). -/
def startCopy (r : CopyReq) : Act Unit := do
  let f ← (fun s => .ok ((List.range r.rows).findSome? (s.copyFault r), s) : Act (Option (Cause × Word)))
  trapFault ((List.range r.rows).map r.ranges).flatten f
  drawCheck r.draws
  (if 0 < r.rows then outwardDst r.dsp else pure ())
  (if 0 < r.draws then outward else pure ())
  let c ← cx
  let conv : Option XConv := if r.ce then
    some { code := r.cv, rm := copyRm r.rm, key := c.rngkey, strm := c.rngstream, draw := c.rngpos } else none
  let src : Seg := { space := r.ssp, addr := r.sa.toNat, len := r.len }
  let dst : Seg := { space := r.dsp, addr := r.da.toNat, len := r.dlen }
  (if r.len = 0 ∨ r.rows = 0 then modCx fun c => { c with xdone := c.xdone + 1 }
  else do
    let first := r.ranges 0
    let last := r.ranges (r.rows - 1)
    let _ ← newOp (.copy conv r.soff src dst r.sp r.dp r.rows) (spanOf false first last) (spanOf true first last) []
    pure ())
  let _ ← takeDraws r.draws
  pure ()

/-- The word of an MA instruction, as ILLOP reports it. -/
def maWord (op : Nat) (o : MA) : Word :=
  BitVec.ofNat 64 (2 ^ 31 * o.j.toNat + 2 ^ 25 * op + 2 ^ 21 * o.a.toNat + 2 ^ 17 * o.b.toNat + 2 ^ 13 * o.c.toNat +
    2 ^ 12 * o.k1.toNat + 2 ^ 11 * o.k2.toNat + 2 ^ 10 * o.k3.toNat + 2 ^ 6 * o.g.toNat + o.mode.toNat)

/-- Destination and source space of MODE. -/
def modeDst (o : MA) : Space := xSpace (bits o.mode 0 2)
def modeSrc (o : MA) : Space := xSpace (bits o.mode 2 2)

/-- XCPY (R308, R309). -/
def execXcpy (o : MA) (s : State) : Host.Outcome State Fault Refusal :=
  word o.g (do
    let (d, a, p) ← readMA .x o
    soloB (modeSrc o) a
    soloB (modeDst o) d
    startCopy { word := maWord 1 o, ssp := modeSrc o, sa := a, dsp := modeDst o, da := d, len := bits p 0 32,
                ce := bitOf p 32, cv := bits p 33 5, rm := bits p 38 2, soff := 64 * bits p 40 24, sp := 0, dp := 0,
                rows := 1 }) s

/-- The check of an XCPY2 descriptor: the byte offset of the first field that fails (R310). -/
def copyDescBad (v : Nat) : Option Nat :=
  match (List.range 64).find? fun k => bitsN (v / 2 ^ 304 * 2 ^ 304 + bitsN v 268 12 * 2 ^ 268) (8 * k) 8 != 0 with
  | some k => some k
  | none =>
    let rows := bitsN v 160 32
    let rb := bitsN v 128 32
    if rows != 0 && (rb == 0 || decide (2 ^ 24 < rb)) then some 16 else none

/-- The copy that a descriptor asks for. -/
def copyOfDesc (word : Word) (v : Nat) : CopyReq :=
  { word := word, ssp := xSpace (bitsN v 258 2), sa := BitVec.ofNat 64 (bitsN v 64 64), dsp := xSpace (bitsN v 256 2),
    da := BitVec.ofNat 64 (bitsN v 0 64), len := bitsN v 128 32, ce := bitsN v 260 1 == 1, cv := bitsN v 261 5,
    rm := bitsN v 266 2, soff := 64 * bitsN v 280 24, sp := signed 32 (bitsN v 224 32), dp := signed 32 (bitsN v 192 32),
    rows := bitsN v 160 32 }

/-- One try of XCPY2: it asks for the descriptor, and answers it once all bytes have come; what a word before it has read at another
address is of no use. -/
def descTry (o : MA) : Act (Option InitRead) := do
  let q := aRef .x o.a
  checkRead q 1
  let c ← cx
  let a := (c.front q).1.setWidth 64
  trapIf (a.toNat % 64 != 0) .align a
  match c.xcpy2.filter fun r => r.addr == a with
  | some r => pure (if r.full then some r else none)
  | none => do
    let ps ← translate .read a 64
    let id ← freshId
    (fun s => .ok ((), (s.modCtx s.cur fun c => { c with xcpy2 := some { id := id, addr := a, code := false, len := 64, got := [] } }).issueParts
      id (.stream s.cur .x) .read false false 0 (fun p => .init id p) (fun _ => (0, false)) (fun _ => true) ps))
    pure none

/-- XCPY2 (R310): it holds X until its descriptor is there; a poisoned one reads as zeros under ZERO, and starts nothing in an iteration
that rolls back (08 R189). -/
def execXcpy2 (o : MA) (s : State) : Host.Outcome State Fault Refusal :=
  finish 1 false (guarded o.g (do
    match ← descTry o with
    | none => pure .stay
    | some r => do
      let l := r.bytes 0 64
      let units := badUnits r.addr.toNat l
      let gone ← consumeNow .vm units
      (if gone then pure ()
      else do
        let v := if units.isEmpty then ofBytes (l.map (·.1)) else 0
        (match copyDescBad v with
          | some k => trapNow .bufacc (BitVec.ofNat 64 (2 ^ 63 + k))
          | none => pure ())
        startCopy (copyOfDesc (maWord 2 o) v))
      let _ ← takeQ (aRef .x o.a) o.k1
      modCx fun c => { c with xcpy2 := none }
      pure .seq)) s

/-! ## XGATH, XSCAT, XFILL (R311, R312) -/

/-- The whole of a space, for the range checker. -/
def State.wholeSpace (s : State) (sp : Space) : List Seg := recordSegs [{ space := sp, addr := 0, len := s.limit s.cur sp }]

/-- XGATH and XSCAT. -/
def indexed (gather : Bool) (o : MA) (s : State) : Host.Outcome State Fault Refusal :=
  word o.g (do
    let (d, a, i) ← readMA .x o
    let lsp : Space := if bitOf i 27 then .ab else .ss
    let rb := bits i 48 16
    let n := bits i 32 11
    let list : Seg := { space := lsp, addr := bits i 0 27, len := 4 * n }
    let src : Seg := { space := modeSrc o, addr := a.toNat, len := n * rb }
    let dst : Seg := { space := modeDst o, addr := d.toNat, len := n * rb }
    soloB src.space a
    soloB dst.space d
    trapIf (list.addr % 4 != 0) .align (BitVec.ofNat 64 list.addr)
    checkRanges [(false, list), (false, if gather then { src with len := 0 } else src),
      (true, if gather then dst else { dst with len := 0 })]
    outwardDst dst.space
    let whole ← (fun s => .ok (s.wholeSpace (if gather then src.space else dst.space), s) : Act (List Seg))
    let _ ← newOp (if gather then .gather n rb list dst src else .scatter n rb list dst src)
      (recordSegs [list] ++ if gather then whole else recordSegs [src]) (if gather then recordSegs [dst] else whole) []
    pure ()) s

/-- XGATH (R311). -/
def execXgath (o : MA) (s : State) : Host.Outcome State Fault Refusal := indexed true o s

/-- XSCAT (R311). -/
def execXscat (o : MA) (s : State) : Host.Outcome State Fault Refusal := indexed false o s

/-- XFILL (R312). -/
def execXfill (o : MA) (s : State) : Host.Outcome State Fault Refusal :=
  word o.g (do
    let (d, v, n) ← readMA .x o
    let dst : Seg := { space := modeDst o, addr := d.toNat, len := bits n 0 32 }
    soloB dst.space d
    checkRanges [(true, dst)]
    outwardDst dst.space
    let _ ← newOp (.fill v dst) [] (recordSegs [dst]) []
    pure ()) s

/-! ## XSEND, XRED, XREDS, XPEER (R313 to R316) -/

/-- The SOLO size of a space (14 R262). -/
def soloSize (n : Nat) : Nat := limitOf false .a (xSpace n)

/-- The checks of a superstep transfer of `len` bytes from `src` to a member (R313 to R315): each BUFACC that R313 does not place after
the domain's check comes before DOMERR (04 R97). -/
def checkMember (sc : DomScope) (m : Word) (len : Word) (n : Nat) (src : Seg) : Act Unit := do
  trapIf (memberSpace m == 3) .bufacc m
  trapIf (decide (2 ^ 24 < n)) .bufacc len
  (fun s => trapFault [(false, src)] (s.rangeBufacc [(false, src)]) s)
  domCheck sc
  let pkg ← (fun s => .ok (s.cfg.package, s) : Act Nat)
  trapIf ((sc == .t || sc == .d) && memberPkg m != pkg) .bufacc m
  trapIf (decide (soloSize (memberSpace m) < memberOff m + n)) .bufacc m
  trapFault [(false, src)] (rangeProt [(false, src)])

/-- XSEND (R314). -/
def execXsend (o : MA) (s : State) : Host.Outcome State Fault Refusal :=
  word o.g (do
    let (m, a, l) ← readMA .x o
    let sc := scopeOf (bits o.mode 0 2)
    let src : Seg := { space := modeSrc o, addr := a.toNat, len := l.toNat }
    soloB src.space a
    checkMember sc m l l.toNat src
    outward
    let _ ← newOp (.send sc m src) (recordSegs [src]) [] []
    pure ()) s

/-- The element bytes of a reduction: FP32, BF16, INT32. -/
def redBytes (ty : Nat) : Nat := if ty = 1 then 2 else 4

/-- The source space of a reduction: MODE[5]. -/
def redSrc (o : MA) : Space := if bitOf o.mode 5 then .ss else .ab

/-- XRED, the local form (R315). -/
def execXred (o : MA) (s : State) : Host.Outcome State Fault Refusal :=
  word o.g (do
    let (d, a, l) ← readMA .x o
    let ty := bits o.mode 2 2
    let e := redBytes ty
    let n := bits l 0 32
    let src : Seg := { space := redSrc o, addr := a.toNat, len := n }
    let dst : Seg := { space := modeDst o, addr := d.toNat, len := n }
    soloB src.space a
    soloB dst.space d
    trapIf (n % e != 0) .align (BitVec.ofNat 64 n)
    trapIf (a.toNat % e != 0) .align a
    trapIf (d.toNat % e != 0) .align d
    checkRanges [(false, src), (false, dst)]
    outward
    let _ ← newOp (.reduce ty dst src) (recordSegs [src, dst]) (recordSegs [dst]) []
    pure ()) s

/-- XREDS, the superstep form (R315). -/
def execXreds (o : MA) (s : State) : Host.Outcome State Fault Refusal :=
  word o.g (do
    let (m, a, l) ← readMA .x o
    let sc := scopeOf (bits o.mode 0 2)
    let ty := bits o.mode 2 2
    let e := redBytes ty
    let n := bits l 0 32
    let src : Seg := { space := redSrc o, addr := a.toNat, len := n }
    soloB src.space a
    trapIf (n % e != 0) .align (BitVec.ofNat 64 n)
    trapIf (a.toNat % e != 0) .align a
    trapIf (memberOff m % e != 0) .align m
    checkMember sc m (BitVec.ofNat 64 n) n src
    outward
    let _ ← newOp (.sendReduce sc ty m src) (recordSegs [src]) [] []
    pure ()) s

/-- XPEER (R316). -/
def execXpeer (o : MA) (s : State) : Host.Outcome State Fault Refusal :=
  word o.g (do
    let (m, a, l) ← readMA .x o
    let src : Seg := { space := modeSrc o, addr := a.toNat, len := l.toNat }
    soloB src.space a
    trapIf (memberSpace m == 3) .bufacc m
    trapIf (decide (2 ^ 24 < l.toNat)) .bufacc l
    trapIf (decide (soloSize (memberSpace m) < memberOff m + l.toNat)) .bufacc m
    checkRanges [(false, src)]
    outward
    let _ ← newOp (.peer m src) (recordSegs [src]) [] []
    pure ()) s

/-! ## Letterboxes, XPREF, XSTAT (R319 to R323) -/

/-- XLBW (R320): the test and the subtraction are one step. -/
def execXlbw (o : MA) (s : State) : Host.Outcome State Fault Refusal :=
  word o.g (do
    let (b, n) ← read2 (aRef .x o.a) o.k1 (aRef .x o.b) o.k2
    let l ← curCell
    let k := bits b 0 6
    let have_ := (Table.get l.letters 0 k).toNat
    waitIf (decide (have_ < bits n 0 32)) .outside
    modCurCell fun l => { l with letters := Table.put l.letters 0 k (BitVec.ofNat 32 (have_ - bits n 0 32)) }) s

/-- XLBC (R320): the read and the clear are one step. -/
def execXlbc (o : MA) (s : State) : Host.Outcome State Fault Refusal :=
  word o.g (do
    let b ← read1 (aRef .x o.b) o.k2
    let l ← curCell
    let k := bits b 0 6
    pushSoon (aRef .x o.a) (wide ((Table.get l.letters 0 k).setWidth 64))
    modCurCell fun l => { l with letters := Table.erase l.letters k }) s

/-- XPREF (R322). -/
def execXpref (o : MA) (s : State) : Host.Outcome State Fault Refusal :=
  word o.g (do
    let (a, n) ← read2 (aRef .x o.a) o.k1 (aRef .x o.b) o.k2
    let _ ← newOp (.prefetch a (bits n 0 32)) [] [] []
    pure ()) s

/-- The word that XSTAT pushes (R323). -/
def Ctx.xstat (c : Ctx) : Word :=
  BitVec.ofNat 64 (2 ^ 48 * (c.ops.filter fun o => o.st == Stream.x).length + 2 ^ 16 * (c.xdone % 2 ^ 32) + bits c.xerr 0 16)

/-- XSTAT (R323). -/
def execXstat (o : MS) (s : State) : Host.Outcome State Fault Refusal :=
  plain (do
    let c ← cx
    pushSoon (.chan (o.a.toNat % 8)) (wide c.xstat)
    outward) s

/-! ## Rows of an operation -/

/-- The bytes of ranges: from the typed buffers, or as accesses have brought them. -/
def State.segBytes (s : State) (c : CtxRef) (o : EngineOp) (pos : Nat) : List Seg → List (Byte × Bool)
  | [] => []
  | g :: r =>
    (if g.space.byAccess then (List.range g.len).map fun k => Table.get o.buf (0, false) (pos + k)
     else s.bufRead c g.space g.addr g.len) ++ s.segBytes c o (pos + g.len) r

/-! ## Issue of a row's accesses (R305) -/

/-- Issues the accesses that the present row still needs. `u` says whether it reads or writes. A fault stops the operation at
the faulting page. -/
def State.issueRow (s : State) (c : CtxRef) (o : EngineOp) (u : Use) (l : List Seg) : State :=
  let (ps, e, f) := s.segParts c u o.pos (dropSegs o.pos l)
  let t := f.map fun x => ({ cause := x.1, addr := x.2, st := .x, async := true, word := some o.pc, syn := some (s.synOf c u x.2) } : Trap)
  let s := t.elim s (s.noteMiss c)
  ((s.modCtx c fun x => x.setOp { o with pos := e, pending := t }).fillFor c .x ps).issueParts o.id (.stream c .x)
    (if u = .read then .read else .write) false false 0
    (fun p => if u = .read then .engine o.id (o.base + p) else .none)
    (fun k => Table.get o.buf (0, false) (o.base + k)) (fun _ => true) ps

/-! ## What a row computes -/

/-- One element of a reduction (R315). -/
def redElem (ty d x : Nat) : Nat :=
  match ty with
  | 0 => (fp32.add 0 d x).1
  | 1 => (bf16.add 0 d x).1
  | _ => (d + x) % 2 ^ 32

/-- The elements of a local reduction in ascending order: a source element that is an earlier destination element, `back`
elements before, is read as just written (R315). -/
def redElems (ty back : Nat) (src dst : List (Nat × Bool)) : List (Nat × Bool) :=
  (List.range dst.length).foldl (fun out n =>
    let x := if 0 < back ∧ back ≤ n then out.getD (n - back) (0, false) else src.getD n (0, false)
    let d := dst.getD n (0, false)
    out ++ [(redElem ty d.1 x.1, d.2 || x.2)]) []

/-- Bytes as elements of n bytes. -/
def elemsAt (n : Nat) (l : List (Byte × Bool)) : List (Nat × Bool) := (List.range (l.length / n)).map fun k => numAt l (n * k) n

/-- The distance in elements by which the destination lies behind the source in one space. -/
def redBack (ty : Nat) (dst src : Seg) : Nat := if dst.space = src.space then (dst.addr - src.addr) / redBytes ty else 0

/-- The units that ranges have consumed. -/
def eatenSegs (segs : List Seg) (l : List (Byte × Bool)) : List Eaten :=
  match segs with
  | [] => []
  | g :: r => eatenOf g.space g.addr (l.take g.len) ++ eatenSegs r (l.drop g.len)

/-- What a row gives: the bytes to write, what it consumed, its flags for VCSR and XERR. -/
structure RowOut where
  out   : List (Byte × Bool)
  eaten : List Eaten
  vfl   : FpFlags
  xerr  : Word
  deriving DecidableEq, Repr, Inhabited

/-- The bytes of a row with no effect but themselves. -/
def plainRow (l : List (Byte × Bool)) : RowOut := { out := l, eaten := [], vfl := FpFlags.none, xerr := 0 }

/-- The result of the present row over the bytes that it has read. -/
def State.rowOut (s : State) (c : CtxRef) (o : EngineOp) (l : List (Byte × Bool)) : RowOut :=
  match o.kind with
  | .copy (some x) soff src _ sp _ _ =>
    let segs := s.rowReads c o
    let r := convRow x.code x.rm (x.u o.done (convDraws x.code src.len)) (l.take src.len) (l.drop src.len)
    let side := (src.row sp o.done).addr + soff
    { out := r.main ++ r.side
      eaten := eatenSegs segs l ++ r.mbz.map fun b => { space := src.space, side := true, addr := side + 4 * b }
      vfl := r.fl, xerr := 0 }
  | .gather _ rb list _ src =>
    if o.done = 0 then { plainRow [] with eaten := eatenOf list.space list.addr l }
    else
      let (x, bad) := o.index (o.done - 1)
      if s.beyond c (indexedRow src x rb) then { plainRow (List.replicate rb (0, bad && (s.ctx c).poisonTrap)) with xerr := 16 }
      else plainRow (l.map fun b => (b.1, b.2 || bad && (s.ctx c).poisonTrap))
  | .scatter _ rb list dst _ =>
    if o.done = 0 then { plainRow [] with eaten := eatenOf list.space list.addr l }
    else
      let (x, bad) := o.index (o.done - 1)
      if s.beyond c (indexedRow dst x rb) then { plainRow [] with xerr := 16 }
      else plainRow (l.map fun b => (b.1, b.2 || bad && (s.ctx c).poisonTrap))
  | .fill pat dst => plainRow ((List.range dst.len).map fun k => (BitVec.ofNat 8 (pat.toNat / 2 ^ (8 * (k % 8))), false))
  | .reduce ty dst src =>
    let e := redBytes ty
    { out := ((redElems ty (redBack ty dst src) (elemsAt e (l.take src.len)) (elemsAt e (l.drop src.len))).map fun x =>
        markedBytes x.1 e x.2).flatten
      eaten := eatenSegs [src, dst] l, vfl := FpFlags.none, xerr := 0 }
  | .sendReduce _ ty _ src =>
    { out := ((elemsAt (redBytes ty) l).map fun x => markedBytes x.1 (redBytes ty) x.2).flatten
      eaten := eatenSegs [src] l, vfl := FpFlags.none, xerr := 0 }
  | _ => plainRow l

/-- An operation that consumes poison marks what derives from it under TRAP only; a copy that does not convert moves its
marks (14 R272, R273). -/
def OpKind.movesMarks (k : OpKind) : Bool :=
  match k with
  | .copy (some _) .. => false
  | .reduce .. => false
  | .sendReduce .. => false
  | _ => true

/-- The domain register that a superstep operation names, and what it posts (R314, R315). -/
def State.postRow (s : State) (c : CtxRef) (o : EngineOp) (l : List (Byte × Bool)) : State :=
  let post (sc : DomScope) (m : Word) (red : Option Nat) : State :=
    if l.isEmpty then s
    else s.modHub fun h => { h with posted := h.posted ++
      [{ part := s.partOf c, dom := domId ((s.ctx c).dom sc), sender := c, pkg := s.cfg.package, rank := o.id, target := m,
         red := red, data := l }] }
  match o.kind with
  | .send sc m _ => post sc m none
  | .sendReduce sc ty m _ => post sc m (some ty)
  | .peer m _ =>
    if memberPkg m = s.cfg.package then s
    else s.modHub fun h => { h with outbox := h.outbox ++ [.xpeer c o.id m l] }
  | _ => s

/-- Puts the bytes of a row into the typed buffers that it names. -/
def State.putBuffers (s : State) (c : CtxRef) (l : List (Byte × Bool)) : List Seg → State
  | [] => s
  | g :: r =>
    let s := if g.space.byAccess then s else s.bufWrite c g.space g.addr ((l.take g.len).map some)
    s.putBuffers c (l.drop g.len) r

/-- The buffer of an operation with the bytes of its row. -/
def EngineOp.keep (o : EngineOp) (l : List (Byte × Bool)) : Table (Byte × Bool) :=
  (List.range l.length).foldl (fun t k => Table.set t (o.base + k) (l.getD k (0, false))) o.buf

/-! ## Progress -/

/-- An X operation that is done: DONE counts it, and what it owes is raised (R304, R323, 14 R273). -/
def State.xDone (s : State) (c : CtxRef) (o : EngineOp) : State :=
  ((s.modCtx c fun x => { x with xdone := x.xdone + 1 }).endOp c o.id).raiseLate c o.owed

/-- An operation goes on: it issues the reads of its present row, or the writes that a fault has left. -/
def State.xGo (s : State) (c : CtxRef) (o : EngineOp) : State :=
  if o.kind.rowCount ≤ o.done then s.modCtx c fun x => x.setOp o
  else match o.phase with
    | .writing => s.issueRow c o .write (s.rowWrites c o)
    | _ => s.issueRow c { o with phase := .reading } .read (s.rowReads c o)

/-- The present row has its bytes: what it consumed is logged, and it writes. An operation that a rollback will discard goes no further,
and consumes nothing again (08 R189, R190). -/
def State.xRow (s : State) (c : CtxRef) (o : EngineOp) : State :=
  let s := s.eccSegs c (s.rowReads c o)
  let l := s.segBytes c o o.base (s.rowReads c o)
  let r := s.rowOut c o l
  let (s, gone, t) := s.eatAll c o r.eaten.eraseDups
  if gone then ({ s with accs := s.accs.filter fun a => !(a.rank == o.id) }).endOp c o.id
  else
    let out := if o.kind.movesMarks || (s.ctx c).poisonTrap then r.out else r.out.map fun b => (b.1, false)
    let first : Bool := o.done == 0 && match o.kind with
      | .gather .. => true
      | .scatter .. => true
      | _ => false
    let o := { o with buf := o.keep (if first then l else out), owed := o.owed.orElse fun _ => t, phase := .writing, pos := 0 }
    let s := s.modCtx c fun x =>
      { x with vcsr := x.vcsr ||| o.kept 0x078 r.vfl.toWord }.change 0x0A0 o.id (.flags r.xerr)
    let w := s.rowWrites c o
    ((s.postRow c o out).putBuffers c out w).issueRow c o .write w

/-- All accesses of the present phase have issued. -/
def State.rowIssued (s : State) (c : CtxRef) (o : EngineOp) : Bool :=
  match o.phase with
  | .writing => decide (segsLen (s.rowWrites c o) ≤ o.pos)
  | _ => decide (segsLen (s.rowReads c o) ≤ o.pos)

/-- A read of the operation has not come. -/
def State.readOut (s : State) (o : EngineOp) : Bool := s.accs.any fun a => a.rank == o.id && a.kind == .read

/-- An access of the operation is not finished. -/
def State.opBusy (s : State) (o : EngineOp) : Bool := s.accs.any fun a => a.rank == o.id

/-- The pages of XPREF (R322): the TLB takes those that translate; a walk reads its entries. -/
def State.prefetch (s : State) (c : CtxRef) (last : Nat) (va : Nat) : Nat → State
  | 0 => s
  | n + 1 =>
    if last < va then s
    else
      let a := BitVec.ofNat 64 va
      let t := if (s.ctx c).sx.tlb.any fun e => e.covers a then s else s.walkReads (s.walk (s.partOf c) a)
      match s.pageOf c .x a with
      | none => t.prefetch c last (va / 2 ^ 16 * 2 ^ 16 + 2 ^ 16) n
      | some e => (t.modCtx c fun x => x.fillTlb .x e).prefetch c last ((e.vpn + 1) * e.size) n

/-- A peer operation whose data have left waits for its acknowledgement (R316). -/
def EngineOp.awaitsPeer (o : EngineOp) : Bool :=
  match o.kind with
  | .peer .. => o.phase == .writing
  | _ => false

/-- An older XPEER of the context to the same cell is unfinished (R316). -/
def Ctx.peerWaits (c : Ctx) (o : EngineOp) (m : Word) : Bool :=
  c.ops.any fun p => decide (p.id < o.id) && match p.kind with
    | .peer n _ => memberPkg n == memberPkg m && memberCell n == memberCell m
    | _ => false

/-- The data of an XPEER leave for another package in issue order: after those of every older one to the same cell (R316). -/
def State.holdsPeer (s : State) (c : CtxRef) (o : EngineOp) : Bool :=
  match o.kind with
  | .peer m _ => memberPkg m != s.cfg.package && { s.ctx c with ops := (s.ctx c).ops.filter fun p => !p.awaitsPeer }.peerWaits o m
  | _ => false

/-- The next step of an X operation that has started (R304): a row has its bytes, a row is written, the operation is done. -/
def State.xStep (s : State) (c : CtxRef) (o : EngineOp) : State :=
  if o.pending.isSome ∨ o.awaitsPeer then s
  else match o.kind with
    | .prefetch va n => (s.prefetch c (va.toNat + (n - 1)) va.toNat 32).xDone c o
    | _ =>
      if o.kind.rowCount ≤ o.done then (if s.opBusy o then s else s.xDone c o)
      else if !s.rowIssued c o then s
      else match o.phase with
        | .writing =>
          s.xGo c { o with done := o.done + 1, pos := 0, phase := .reading }
        | _ => if s.readOut o || s.holdsPeer c o then s else s.xRow c o

end Sys2Proof.Machine
end

