-- ==== Sys2Proof/Machine/Engine.lean ====
section
/-!
DEFINITION. The steps that engines, results in flight and firmware take on a context: RESULT_DUE, READ, the start and the end
of an engine operation, asynchronous faults, trap entry, the halt bundle, and firmware's answers (02 R25, R45; 12 R244 to
R251; 14 R278; 16 R304; 18 R344).
-/
namespace Sys2Proof.Machine

/-! ## RESULT_DUE (02 R25, 06 R100, R126, R131, 12 R246) -/

/-- The order in which results that have a due cycle take their places: due cycle, slot, age (06 R100, 12 R246). -/
def Flight.before (a b : Flight) : Bool :=
  match a.due, b.due with
  | some x, some y =>
    decide (x < y) || x == y && (decide (slotNo a.st < slotNo b.st) || a.st == b.st && decide (a.tok < b.tok))
  | _, _ => false

/-- The order in which results without an exposed latency stand behind those that have one: due earlier, or due in the present cycle
from an earlier slot or an older word of the slot (R131). -/
def Flight.leads (g f : Flight) (cycle : Nat) : Bool :=
  match g.due with
  | some d => decide (d < cycle) || d == cycle &&
      (decide (slotNo g.st < slotNo f.st) || g.st == f.st && decide (g.tok < f.tok))
  | none => false

/-- The channel that a result goes to. -/
def Dest.chan? : Dest → Option Nat
  | .chan n => some n
  | _ => none

/-- A result without an exposed latency may take its place (R126, R129, R131): no result that is due leads it there; in a queue, a
predicate or a mask, no older one of its kind is left; and a channel takes the pushes of one cycle in slot order. -/
def Ctx.soonLands (c : Ctx) (cycle : Nat) (f : Flight) : Bool :=
  c.flights.all (fun g => g.dest != f.dest ||
    !(g.leads f cycle || g.due.isNone && f.dest.chan?.isNone && decide (g.tok < f.tok))) &&
  match f.dest.chan? with
  | some n =>
    let last := Table.get c.chanLast (0, 0) n
    !(last.1 == cycle && decide (slotNo f.st < last.2))
  | none => true

/-- A result may take its place: its value is there, and its cycle has come with no earlier one left, or its turn has come. -/
def Ctx.mayLand (c : Ctx) (cycle : Nat) (f : Flight) : Bool :=
  f.val.isSome && match f.due with
    | some d => decide (d ≤ cycle) && c.flights.all fun g => !g.before f
    | none => c.soonLands cycle f

/-- A result of the context is overdue: the words of the cycle wait for it (06 R100). -/
def Ctx.overdue (c : Ctx) (cycle : Nat) : Bool :=
  c.flights.any fun f => match f.due with
    | some d => decide (d ≤ cycle)
    | none => false

/-- A result takes its place; a channel notes the slot and the cycle (R131). -/
def Ctx.landNoted (c : Ctx) (cycle : Nat) (f : Flight) : Ctx :=
  let c := c.landTok f.tok (f.val.getD 0)
  match f.dest.chan? with
  | some n => { c with chanLast := Table.set c.chanLast n (cycle, slotNo f.st) }
  | none => c

/-- RESULT_DUE. -/
def execResultDue (c : CtxRef) (tok : Nat) (s : State) : Host.Outcome State Fault Refusal :=
  .next (match (s.ctx c).flights.find? fun f => f.tok == tok with
    | some f =>
      let cycle := (s.cell c.cell).cycle
      if (s.ctx c).mayLand cycle f then s.modCtx c fun x => x.landNoted cycle f else s
    | none => s)

/-! ## READ (18 R344) -/

/-- The bytes of a read reach what asked for them. -/
def State.sinkTakes (s : State) (a : Access) (l : List (Byte × Bool)) : State :=
  match a.agent with
  | .stream c _ =>
    match a.sink with
    | .scalar op pos => s.scalarRead c op pos l
    | .engine op pos => s.bufTakes c op pos l
    | .coder n off => s.coderRead c n off a.va l
    | .init id pos => s.initArrives c id pos l
    | _ => s
  | .peerPkg p _ => s.modReplies fun r => { r with peers := r.peers ++ [(p, l)] }
  | .hub _ _ =>
    match a.sink with
    | .copy pos => s.modHub fun h => { h with copy := h.copy.map fun r => { r with
        buf := (List.range l.length).foldl (fun t k => Table.set t (pos + k) (l.getD k (0, false))) r.buf } }
    | _ => s
  | .host => s

/-- READ: the value leaves the memory machine. -/
def execRead (acc : Nat) (s : State) : Host.Outcome State Fault Refusal :=
  .next (match s.findAcc acc with
    | some a =>
      match s.readValue a with
      | some v => { (((s.dropAcc acc).readDrops a).sinkTakes a v).settle a with curPc := none }
      | none => s
    | none => s)

/-! ## Engine operations (14 R278, 16 R304, R305) -/

/-- An operation starts. -/
def State.startOp (s : State) (c : CtxRef) (o : EngineOp) : State :=
  let o := { o with phase := .reading }
  match o.st with
  | .x => s.xGo c o
  | _ => s.modCtx c fun x => x.setOp o

/-- An X operation that a fault had stopped goes on at the faulting page (R305). -/
def State.mayGoOn (s : State) (c : CtxRef) (o : EngineOp) : Bool :=
  o.st == .x && o.phase != .held && o.pending.isNone && !s.rowIssued c o && decide (o.done < o.kind.rowCount)

/-- A held operation that nothing keeps from starting. -/
def State.startable (s : State) (c : CtxRef) (o : EngineOp) : Bool :=
  o.phase == .held && (s.ctx c).mayStart (s.cell c.cell).pair o

/-- ENGINE_OP_START: operations that may start do so in rank order (R247, R250, R255, R304). -/
def execEngineOpStart (c : CtxRef) (op : Nat) (s : State) : Host.Outcome State Fault Refusal :=
  .next (match (s.ctx c).op op with
    | some o =>
      if o.phase = .held then
        if s.startable c o && !(s.ctx c).ops.any (fun p => decide (p.id < o.id) && s.startable c p) then s.startOp c o else s
      else if s.mayGoOn c o then s.xGo c o
      else s
    | none => s)

/-- An operation that streams against the active plane reads its plane store (14 R271). -/
def State.eccPlanes (s : State) (c : CtxRef) (k : OpKind) : State :=
  if k.streams then s.eccRead (.plane c.cell ((s.cell c.cell).activeStore c.bank)) 0 (2 ^ 17) (some c.cell) else s

/-- A V or M operation ends: it leaves the record, and its effect stands. -/
def State.opEnds (s : State) (c : CtxRef) (o : EngineOp) : State :=
  let t := ((s.endOp c o.id).eccSegs c (o.kind.vReads ++ o.kind.mReads)).eccPlanes c o.kind
  match o.kind with
  | .vread sp runs mask tok => t.vreadDone c o sp runs mask tok
  | .vwrite sp runs data mask => t.vwriteDone c sp runs data mask
  | .vwmac et wd desc g w acc cb mask rm tok => t.vwmacDone c o et wd desc g w acc cb mask rm tok
  | .vwpool et wd desc g mask rm tok => t.vwpoolDone c o et wd desc g mask rm tok
  | .tableLoad f sp a => t.tableDone c o f sp a
  | .mldw f w side => t.mldwDone c o f w side
  | .mswap act sh => t.mswapDone c act sh
  | .mzero => t.mzeroDone c o
  | .mstr acc ovf f aA aC rows pitch side klen =>
    t.streamDone c o acc ovf f klen aC rows fun u r => u.mstrRow c f aA pitch side klen r
  | .mwin acc ovf f _ desc pix n aC slice =>
    t.streamDone c o acc ovf f 192 aC n fun u r => u.mwinRow c desc pix slice r
  | .mout f act aC aD aP => t.moutDone c o f act aC aD aP
  | .mkat seed sig => t.mkatDone c seed sig
  | _ => t

/-- The next step of an operation that has started. -/
def State.opStep (s : State) (c : CtxRef) (o : EngineOp) : State :=
  match o.st, o.kind with
  | .x, _ => s.xStep c o
  | _, .scalar => s
  | _, .flush n daddr pos => s.flushStep c o n daddr pos
  | _, _ => if s.opBusy o then s else s.opEnds c o

/-- ENGINE_OP_COMPLETE: an operation that has started goes on to its end; an X operation row by row. -/
def execEngineOpComplete (c : CtxRef) (op : Nat) (s : State) : Host.Outcome State Fault Refusal :=
  .next (match (s.ctx c).op op with
    | some o =>
      if o.phase = .held ∨ o.pending.isSome then s
      else { { s with curPc := some o.pc }.opStep c o with curPc := none }
    | none => s)

/-! ## Asynchronous faults (12 R244) -/

/-- A context that can take an asynchronous trap: no cut, no handler, nobody holds it. -/
def Ctx.open_ (c : Ctx) : Bool := !c.holdsOps && c.hold == .free

/-- The faults that have stopped operations, and the emissions of coder slots, of a context (12 R244). -/
def Ctx.stops (c : Ctx) : List Trap := c.ops.filterMap (·.pending) ++ c.slots.filterMap (·.2.stopped)

/-- The oldest cause that was kept while a cut was taken, or the fault of an operation or of a slot, is raised. -/
def State.raisePending (s : State) (c : CtxRef) : State :=
  let x := s.ctx c
  if !x.open_ then s
  else match x.late with
    | t :: r => (s.setCtx c { x with late := r }).raise c t
    | [] =>
      match x.stops.head? with
      | some t => s.raise c t
      | none => s

/-- Whether a context has such a cause. -/
def Ctx.hasPending (c : Ctx) : Bool := c.open_ && (!c.late.isEmpty || !c.stops.isEmpty)

/-- ASYNC_FAULT: the fault of an operation, or of a slot that an operation's word has filled, is raised at the instruction boundary of
its stream. -/
def execAsyncFault (c : CtxRef) (_op : Nat) (s : State) : Host.Outcome State Fault Refusal :=
  .next (if (s.ctx c).hasPending then s.raisePending c else s)

/-! ## Trap entry (12 R246) -/

/-- An access that has not been POSTed waits for what an older operation that cannot run on has left: a part of it, one of its own
accesses, or an SO page. -/
def State.waitsFor (s : State) (c : CtxRef) (o : EngineOp) (a : Access) : Bool :=
  decide (o.id < a.rank) && ((s.partsOf c .x (s.owesX c o)).any (fun p => a.meetsPart p || a.page == .so && p.page == .so) ||
    o.anywhere == some a.home.space ||
    s.accs.any fun b => b.rank == o.id && !b.posted && !b.got && (b.meets a || a.page == .so && b.page == .so))

/-- A V access waits for bytes of a slot whose emissions a fault has stopped, or for the POSITION of an RCFLUSH of that slot. -/
def State.waitsForSlot (s : State) (c : CtxRef) (a : Access) : Bool :=
  let x := s.ctx c
  (s.partsOf c .v ((x.slots.filter fun p => p.2.stopped.isSome).map fun p => p.2.owes a.rank).flatten).any a.meetsPart ||
    x.ops.any fun o => match o.kind with
      | .flush n daddr _ => (x.slot n).stopped.isSome && decide (o.id < a.rank) &&
          (s.partsOf c .v [{ space := .vm, addr := daddr.toNat + 12, len := 4 }]).any a.meetsPart
      | _ => false

/-- An access waits for an earlier one of its agent that has failed (27 R465). -/
def State.waitsForFailed (s : State) (a : Access) : Bool := (s.earlier a).any fun b => b.failed && (b.meets a || a.soPair b)

/-- The operations that cannot run on: those that a fault has stopped, an RCFLUSH whose slot a fault has stopped, X operations that have
not started, and those that have and wait for such an operation (R246 step 4, log 85). -/
def State.stuck (s : State) (c : CtxRef) : List EngineOp :=
  let x := s.ctx c
  let waits (l : List EngineOp) (o : EngineOp) : Bool := s.accs.any fun a => a.rank == o.id && !a.posted && !a.got &&
    (l.any (fun p => p.st == o.st && s.waitsFor c p a) || o.st == .v && (s.waitsForSlot c a || s.waitsForFailed a))
  x.ops.foldl (fun l o =>
    let flush : Bool := match o.kind with
      | .flush n _ _ => (x.slot n).stopped.isSome
      | _ => false
    let held : Bool := o.st == .x && o.phase == .held
    if o.pending.isSome || flush || held || waits l o then l ++ [o] else l) []

/-- Nothing is left that the cut waits for: no exposed result, no started operation that can run on, no started access of an engine
(R246 steps 3 and 4). -/
def State.mayEnter (s : State) (c : CtxRef) : Bool :=
  let x := s.ctx c
  let stuck := s.stuck c
  x.flights.all (fun f => f.due.isNone) && x.ops.all (fun o => !o.active || stuck.contains o) &&
    s.accs.all fun a => !a.engineOf c || (x.ops.any fun o => o.id == a.rank) ||
      !a.posted && (!a.isWrite || a.failed || s.waitsForSlot c a || s.waitsForFailed a)

/-- TRAP_ENTRY: the record is written once nothing is left to drain. -/
def execTrapEntry (c : CtxRef) (s : State) : Host.Outcome State Fault Refusal :=
  .next (match (s.ctx c).cut with
    | some t => if s.mayEnter c then s.takeTrap c t else s
    | none => s)

/-! ## The halt bundle (02 R45) -/

/-- All four words of the last bundle were HALT (02 R28). -/
def Ctx.allHalted (c : Ctx) : Bool := c.ss.halted && c.sv.halted && c.sm.halted && c.sx.halted

/-- The four HALT words retire: the context is finished. -/
def Ctx.finishHalt (c : Ctx) : Ctx :=
  { ((((c.retireSeq .s 1).retireSeq .v 1).retireSeq .m 1).retireSeq .x 1).eachStr (fun _ x => { x with halted := true }) with halting := false, hold := .finished, haltIn := 15 }

/-- HALT_BUNDLE_RETIRE. -/
def execHaltBundleRetire (c : CtxRef) (s : State) : Host.Outcome State Fault Refusal :=
  .next (if (s.ctx c).halting && (s.ctx c).open_ && !s.asyncBusy c then (s.modCtx c Ctx.finishHalt).haltOut c else s)

/-! ## Firmware's answers (12 R248, R251) -/

/-- The system cause that a context waits with: code and address; in a handler they stand in the hub's fault record only. -/
def State.systemCause (s : State) (c : CtxRef) : Nat × Word :=
  let x := s.ctx c
  if x.hnd then
    match (s.hub.faults.filter fun f => f.c == c).getLast? with
    | some f => (f.cause.code, f.addr)
    | none => (0, 0)
  else (bits x.tcause 0 8, x.taddr)

/-- The operation, or the coder slot, that raised the system cause goes on after a resume (16 R305). -/
def Ctx.clearPending (c : Ctx) (cause : Nat × Word) : Ctx :=
  let keep (p : Option Trap) : Option Trap := p.filter fun t => !(t.cause.code == cause.1 && t.addr == cause.2)
  { c with
    ops := c.ops.map fun o => { o with pending := keep o.pending }
    slots := c.slots.map fun p => (p.1, { p.2 with stopped := keep p.2.stopped }) }

/-- The accesses of a context that have failed and are made again: that of the cause, and those of operations and slots that nothing stops
any more (27 R465). -/
def State.retryAccs (s : State) (c : CtxRef) (va : Word) : State :=
  let x := s.ctx c
  let again (a : Access) : Bool := (a.ofCtx c true && a.va == va) || a.engineOf c && match a.sink with
    | .coder n _ => (x.slot n).stopped.isNone
    | _ => x.ops.all fun o => o.id != a.rank || o.pending.isNone
  { s with accs := s.accs.map fun a => if again a then { a with failed := false } else a }

/-- FIRMWARE_RESUME: the context goes on at its cut; in a handler, at the word of S that faulted (R247, R248, R251). One that had retired
its halt bundle stays finished. -/
def execFirmwareResume (c : CtxRef) (s : State) : Host.Outcome State Fault Refusal :=
  .next (s.byFirmware <| if (s.ctx c).hold = .firmware then
    let cause := s.systemCause c
    (s.modCtx c fun x =>
      let y := { x.clearPending cause with hold := if x.allHalted then .finished else .free }
      if x.hnd then y else y.resumeAt).retryAccs c cause.2
  else s)

/-- FIRMWARE_FAIL: the node ends as failed, with the cause and `TADDR` (R251). -/
def execFirmwareFail (c : CtxRef) (s : State) : Host.Outcome State Fault Refusal :=
  .next (s.byFirmware <| if (s.ctx c).hold = .firmware then
    let cause := s.systemCause c
    s.failNode c { (s.ctx c).trapFailure 2 with cause := cause.1, detail := cause.2 }
  else s)

end Sys2Proof.Machine
end

