-- ==== Sys2Proof/Machine/Hub.lean ====
section
/-!
DEFINITION. The hub: its translation, barriers and superstep delivery, peer transfers and the grant table, links, and the
accesses of peers and of the host (02 R36 to R41, 16 R313 to R319, R324, 17 R337 to R341, 18 R361, 27 R464, R465).
-/
namespace Sys2Proof.Machine

/-! ## Accessors -/

def State.part (s : State) (n : Nat) : Partition := Table.get s.hub.parts Partition.init n

def State.modPart (s : State) (n : Nat) (f : Partition → Partition) : State :=
  s.modHub fun h => { h with parts := Table.modify h.parts Partition.init n f }

/-- An interrupt to the host by its MSI-X vector (27 R458). -/
def State.interrupt (s : State) (v : Nat) : State := s.modReplies fun r => { r with vectors := r.vectors ++ [v] }

/-- The vector of device errors. -/
def errorVector : Nat := 512

/-- An error record for the host, with vector 512. -/
def State.errorRec (s : State) (e : ErrorRec) : State :=
  (s.modReplies fun r => { r with errors := r.errors ++ [e] }).interrupt errorVector

/-- Hub cycles in a microsecond of hub time (27 R474). -/
def hubMicro : Nat := 1200

/-! ## The join table (23 R421, R426, R437) -/

def State.modJoin (s : State) (f : Join → Join) : State := s.modHub fun h => { h with join := f h.join }

/-- An entry of the join table. -/
def State.entry (s : State) (e : Nat) : JoinEntry := Table.get s.hub.join.entries JoinEntry.init e

def State.modEntry (s : State) (e : Nat) (f : JoinEntry → JoinEntry) : State :=
  s.modJoin fun j => { j with entries := Table.modify j.entries JoinEntry.init e f }

/-- A counter of JSTAT rises by n (R437). -/
def State.jcount (s : State) (sel n : Nat) : State :=
  s.modJoin fun j => { j with counts := Table.modify j.counts 0 sel fun x => satAdd32 x n }

/-- An entry is released (R426). -/
def State.releaseEntry (s : State) (e : Nat) (gone : Bool) : State :=
  s.modEntry e fun x => { x with state := .released, gone := gone, deadline := none, since := s.hub.time }

/-! ## Hub translation (17 R341) -/

/-- The hub's translations of a partition are kept in a TLB of its own. -/
def State.hubTlb (s : State) (part : Nat) : List TlbEntry := Table.get s.hub.tlbs [] part

/-- The translation of an address for a hub agent: the same checks and the same walk as for a stream. -/
def State.hubLookup (s : State) (part : Nat) (va : Word) (u : Use) : Except Cause TlbEntry :=
  if bits va 55 9 ≠ 0 then .error .prot
  else match ((s.hubTlb part).find? fun e => e.covers va).orElse fun _ => (s.walk part va).hit with
    | none => .error (s.walk part va).cause
    | some e => match e.refuses u with
      | some cause => .error cause
      | none => .ok e

/-- The hub TLB takes the pages of a run; a walk reads its entries. -/
def State.hubTouch (s : State) (part : Nat) (va : Word) (len : Nat) : State :=
  (piecesOf va.toNat len).foldl (fun s p =>
    match s.hubLookup part (BitVec.ofNat 64 p.2.1) .read with
    | .ok e => if (s.hubTlb part).contains e then s else
        (s.noteWalk part (BitVec.ofNat 64 p.2.1)).modHub fun h => { h with tlbs := Table.set h.tlbs part ((e :: s.hubTlb part).take 64) }
    | .error _ => s) s

/-- The translation of n bytes for a hub agent whose access takes place in its step; a peer refuses one beyond its HBM (R332). -/
def State.hubPlace (s : State) (part : Nat) (va : Word) (n : Nat) (u : Use) : Except Cause TlbEntry :=
  match s.hubLookup part va u with
  | .error cause => .error cause
  | .ok e => if beyondPeer (e.place va).1 (e.place va).2 n then .error .prot else .ok e

/-- The places of a run for a hub agent: home, address, length; the first fault with its address. -/
def State.hubPlaces (s : State) (part : Nat) (u : Use) : List (Nat × Nat × Nat) → Except (Cause × Word) (List (Home × Nat × Nat))
  | [] => .ok []
  | (_, a, n) :: r =>
    match s.hubPlace part (BitVec.ofNat 64 a) n u with
    | .error cause => .error (cause, BitVec.ofNat 64 a)
    | .ok e => match s.hubPlaces part u r with
      | .error x => .error x
      | .ok l => .ok (((e.place (BitVec.ofNat 64 a)).1, (e.place (BitVec.ofNat 64 a)).2, n) :: l)

/-- A hub agent whose access does not translate has walked the tables, unless its TLB holds the page (17 R329, R341). -/
def State.noteHubMiss (s : State) (part : Nat) (va : Word) : State :=
  if (s.hubTlb part).any fun e => e.covers va then s else s.noteWalk part va

/-- A read of a hub agent fills its TLB and finds the errors of its units (14 R271); one that does not translate has walked. -/
def State.hubFind (s : State) (part : Nat) (va : Word) (len : Nat) : State :=
  match s.hubPlaces part .read (piecesOf va.toNat len) with
  | .error e => s.noteHubMiss part e.2
  | .ok l => l.foldl (fun s p => s.eccHome p.1 p.2.1 p.2.2 none) (s.hubTouch part va len)

/-- Reads of a hub agent in their order, up to the first that does not translate. -/
def State.findReads (s : State) (part : Nat) : List (Word × Nat) → State
  | [] => s
  | p :: r =>
    match s.hubPlaces part .read (piecesOf p.1.toNat p.2) with
    | .error _ => s.hubFind part p.1 p.2
    | .ok _ => (s.hubFind part p.1 p.2).findReads part r

/-- A read by a hub agent: its parts are POSTed, PERFORMed and READ in the step that makes it (log 7). -/
def State.hubRead (s : State) (part : Nat) (va : Word) (len : Nat) : Except (Cause × Word) (List (Byte × Bool)) :=
  match s.hubPlaces part .read (piecesOf va.toNat len) with
  | .error x => .error x
  | .ok l => .ok (l.map fun (h, a, n) => (s.homeMem h).readP a n).flatten

/-- Puts bytes at places. -/
def State.putPlaces (s : State) (l : List (Byte × Bool)) : List (Home × Nat × Nat) → State
  | [] => s
  | (h, a, n) :: r => (s.modHome h fun m => m.store a ((l.take n).map some)).putPlaces (l.drop n) r

/-- A write by a hub agent that is PERFORMed in the step that makes it (log 7): every part is translated before any byte is written. -/
def State.hubWrite (s : State) (part : Nat) (va : Word) (l : List (Byte × Bool)) : Except (Cause × Word) State :=
  match s.hubPlaces part .write (piecesOf va.toNat l.length) with
  | .error x => .error x
  | .ok ps => .ok ((s.hubTouch part va l.length).putPlaces l ps)

/-- The units of the hub that access memory, each one agent (18 R342). -/
def unitCopy : Nat := 0
def unitScan : Nat := 1

/-- No partition: the copy engine goes by physical addresses. -/
def noPart : Nat := 8

/-- The translated parts of pieces for a hub agent; the first that does not translate gives its cause and address. -/
def State.hubParts (s : State) (part : Nat) (u : Use) (base : Nat) : List (Nat × Nat × Nat) → Except (Cause × Word) (List Part)
  | [] => .ok []
  | (pos, a, n) :: r =>
    let va := BitVec.ofNat 64 a
    match s.hubLookup part va u with
    | .error cause => .error (cause, va)
    | .ok e => match s.hubParts part u base r with
      | .error x => .error x
      | .ok l => .ok ({ pos := base + pos, len := n, home := (e.place va).1, addr := (e.place va).2, va := va, page := e.page,
                        span := (e.vpn * e.size, e.size) } :: l)

/-- Accesses that are POSTed as they are issued (18 R344, R361). One of a hub unit to an SO page is POSTed by its own step, once every
earlier one of the unit has had its ACK or READ (R349). -/
def State.postParts (s : State) (agent : Agent) (kind : AccKind) (sink : Nat → Sink) (data : Nat → Byte × Bool) (ps : List Part) :
    State :=
  let t := s.issueParts s.nextId agent kind false false 0 sink data (fun _ => true) ps
  let now (a : Access) : Bool := a.page != .so || match agent with
    | .hub _ _ => false
    | _ => true
  { t with accs := t.accs.map fun a => if s.nextId ≤ a.id ∧ now a then { a with posted := true } else a }

/-- Writes of a hub agent that are POSTed, and PERFORMed and acknowledged later. -/
def State.hubPost (s : State) (unit part : Nat) (va : Word) (l : List (Byte × Bool)) : Except (Cause × Word) State :=
  match s.hubParts part .write 0 (piecesOf va.toNat l.length) with
  | .error x => .error x
  | .ok ps => .ok ((s.hubTouch part va l.length).postParts (.hub unit part) .write (fun _ => .none) (fun k => l.getD k (0, false)) ps)

/-- No access of a hub agent is under way. -/
def State.unitQuiet (s : State) (unit : Nat) : Bool := s.accs.all fun a => match a.agent with
    | .hub u _ => u != unit
    | _ => true

/-- Clean bytes of a number. -/
def numBytes (v n : Nat) : List (Byte × Bool) := (toBytes v n).map fun b => (b, false)

/-- The number of bytes, whatever their marks. -/
def bytesNum (l : List (Byte × Bool)) : Nat := ofBytes (l.map (·.1))

/-! ## Peer transfers (16 R316 to R319) -/

/-- `XERR` at the sender of a dropped transfer: its flag, and NDROP, in the place of the operation's rank (R324, 06 R143). -/
def Ctx.dropped (c : Ctx) (flag rank : Nat) : Ctx :=
  (c.change 0x0A0 rank (.flags (BitVec.ofNat 64 (2 ^ flag)))).change 0x0A0 rank (.count 16 16 1)

/-- An entry of the grant table matches a transfer (R318). -/
def grantMatches (e : BitVec 128) (pkg cell space off len : Nat) : Bool :=
  bits e 71 1 == 1 && decide (bits e 88 20 ≤ pkg) && decide (pkg ≤ bits e 108 20) && bits e 80 8 == cell &&
    bits e 78 2 == space && space != 3 && decide (bits e 0 27 ≤ off) && decide (off + (len - 1) ≤ bits e 27 27)

/-- The lowest-numbered entry that matches. -/
def State.grantOf (s : State) (pkg cell space off len : Nat) : Option (BitVec 128) :=
  (s.hub.grants.find? fun p => grantMatches p.2 pkg cell space off len).map (·.2)

/-- A letterbox rises by 1; at its top it stays, which is counted (R319). -/
def State.ringBox (s : State) (cell k : Nat) : State :=
  let v := Table.get (s.cell cell).letters 0 k
  if v = BitVec.allOnes 32 then s.modCounts fun n => { n with boxOverflow := satAdd32 n.boxOverflow 1 }
  else s.modCell cell fun l => { l with letters := Table.set l.letters k (v + 1) }

/-- The whole buffer of a cell takes bytes (R316). -/
def State.peerWrite (s : State) (cell space off : Nat) (l : List (Byte × Bool)) : State :=
  s.modBuffer cell (xSpace space) fun m => m.store off (l.map some)

/-- A transfer meets the grant table: what it writes, and whether it was granted (R318). -/
def State.peerArrives (s : State) (pkg cell space off : Nat) (l : List (Byte × Bool)) : State × Bool :=
  match s.grantOf pkg cell space off l.length with
  | some e => ((s.peerWrite cell space off l).ringBox cell (bits e 72 6), true)
  | none => (s.modCounts fun n => { n with grantDrops := satAdd32 n.grantDrops 1 }, false)

/-- The inbound peer queue holds 64 transfers (20 R366). -/
def peerPlaces : Nat := 64

/-- A transfer as the sender's package makes it: XPEER has checked its range (R313). -/
def transferOk (t : PeerTransfer) : Bool :=
  decide (t.port < 8) && decide (t.cell < 256) && t.space.toNat != 3 && decide (t.off + t.data.length ≤ soloSize t.space.toNat)

/-- A Giuth port. -/
def State.port (s : State) (n : Nat) : Port := Table.get s.hub.ports Port.init n

/-- The full queue at which the next MSG flit of a port waits, or none. -/
def State.portWaits (s : State) (n : Nat) (w : Option MsgKind) : State :=
  if (s.port n).waits = w then s
  else s.modHub fun h => { h with ports := Table.modify h.ports Port.init n fun p => { p with waits := w } }

/-- A MSG flit comes to a port: where its queue is full it holds all flits of the class there, and none enters another queue past it
(20 R367, 27 R464). -/
def State.msgComes (s : State) (n : Nat) (k : MsgKind) (full : Bool) (enters : State) : State :=
  if (s.port n).waits.any fun w => w != k then s else if full then s.portWaits n (some k) else enters.portWaits n none

/-- The transfers that one context sends to one cell come in its issue order (R316). -/
def peerKey (t : PeerTransfer) : Nat × CtxRef × Nat := (t.srcPkg, t.sender, t.cell)

def State.peerInOrder (s : State) (t : PeerTransfer) : Bool := s.hub.peerLast.all fun p => p.1 != peerKey t || decide (p.2 < t.rank)

/-- A transfer enters the inbound peer queue. -/
def State.peerEnters (s : State) (t : PeerTransfer) : State :=
  s.modHub fun h => { h with peerQ := h.peerQ ++ [t], peerLast := (h.peerLast.filter fun p => p.1 != peerKey t) ++ [(peerKey t, t.rank)] }

/-- XPEER_ARRIVAL: a transfer enters the inbound peer queue; a full one withholds credits (20 R366). -/
def execXpeerArrival (t : PeerTransfer) (s : State) : Host.Outcome State Fault Refusal :=
  .next (if !transferOk t || !s.peerInOrder t then s
  else s.msgComes t.port .peer (decide (peerPlaces ≤ s.hub.peerQ.length)) (s.peerEnters t))

/-- The letterboxes of a cell may still rise in the present cycle: no X word of the cell has issued in it (R319). -/
def State.boxOpen (s : State) (cell : Nat) : Bool :=
  [Bank.a, .b].all fun k => decide ((s.ctx { cell := cell, bank := k }).slots0 < 2 ^ slotNo .x)

/-- Transfers at the head of the inbound peer queue meet the grant table, and the sender has its answer (R318). -/
def State.servePeers (s : State) : Nat → State
  | 0 => s
  | n + 1 =>
    match s.hub.peerQ with
    | [] => s
    | t :: r =>
      if !s.boxOpen t.cell then s
      else
        let l := (List.range t.data.length).map fun k => (t.data.getD k 0, t.marks.contains k)
        let (u, ok) := (s.modHub fun h => { h with peerQ := r }).peerArrives t.srcPkg t.cell t.space.toNat t.off l
        (u.modReplies fun q => { q with grants := q.grants ++ [(t.srcPkg, ok)] }).servePeers n

/-- XPEER_ACKNOWLEDGE: the receiving hub grants or refuses; within the package the transfer meets the grant table now. -/
def execXpeerAcknowledge (c : CtxRef) (op : Nat) (granted : Bool) (s : State) : Host.Outcome State Fault Refusal :=
  .next (match (s.ctx c).op op with
    | none => s
    | some o =>
      match o.kind with
      | .peer m src =>
        if !o.awaitsPeer || o.pending.isSome || (s.ctx c).peerWaits o m || memberPkg m == s.cfg.package && !s.boxOpen (memberCell m) then s
        else
          let l := (List.range src.len).map fun k => Table.get o.buf (0, false) k
          let (s, ok) := if memberPkg m = s.cfg.package then
            s.peerArrives (memberPkg m) (memberCell m) (memberSpace m) (memberOff m) l else (s, granted)
          (if ok then s else s.modCtx c fun x => x.dropped 0 o.id).xDone c o
      | _ => s)

/-- GRANT_TABLE_LOAD (R317): an entry with MBZ bits set is left invalid, and the letterboxes of the covered cells are cleared. -/
def execGrantTableLoad (entries : List (BitVec 128)) (s : State) : Host.Outcome State Fault Refusal :=
  let es := (entries.take 4096).map fun e => if bits e 54 17 = 0 then e else BitVec.ofNat 128 (putBits (putBits e.toNat 54 17 0) 71 1 0)
  let t := s.modHub fun h => { h with grants := (List.range es.length).zip es }
  .next (s.byFirmware (es.foldl (fun s e => if bits e 71 1 = 1 then s.modCell (bits e 80 8) fun l => { l with letters := [] } else s) t))

/-! ## Barriers (02 R36 to R41, 18 R359) -/

/-- The scope by which a context that has arrived names a domain. -/
def Ctx.arrivedAt (c : Ctx) (dom : Nat) : Bool :=
  match c.barrier with
  | some sc => c.arrived && domId (c.dom sc) == dom && domCount (c.dom sc) != 0
  | none => false

/-- A context that has halted counts as arrived at the barriers of its domains (R41). -/
def Ctx.haltedAt (c : Ctx) (dom : Nat) : Bool :=
  scopes.any fun sc => bitOf c.haltIn (scopeNo sc) && domCount (c.dom sc) != 0 && domId (c.dom sc) == dom

/-- The COUNT of a domain as its members hold it. -/
def State.countOf (s : State) (members : List CtxRef) (dom : Nat) : Nat :=
  match members with
  | [] => 0
  | c :: _ =>
    match scopes.find? fun sc => domCount ((s.ctxAt c).dom sc) != 0 && domId ((s.ctxAt c).dom sc) == dom with
    | some sc => domCount ((s.ctxAt c).dom sc)
    | none => 0

/-- The members that an arrival token stands for. -/
def cargoMembers : BarrierCargo → Nat
  | .arrived n => n
  | _ => 0

/-- A token belongs to a superstep of a domain. -/
def tokenOf (part dom step : Nat) (t : BarrierToken) : Bool := t.part == part && t.dom.toNat == dom && t.step == step

/-- The members of other packages that have arrived at the present superstep. -/
def State.tokensOf (s : State) (part dom : Nat) : Nat :=
  ((s.hub.tokens.filter (tokenOf part dom (s.domStep part dom))).map fun t => cargoMembers t.cargo).sum

/-- The members of other packages that have halted (R41). -/
def State.haltedAway (s : State) (part dom : Nat) : Nat :=
  match s.domRec part dom with
  | some d => d.halted.length
  | none => 0

/-- Every member of a domain has arrived, and one of them waits (R37 step 4). -/
def State.barrierFull (s : State) (part dom : Nat) : Bool :=
  let ms := s.membersOf part dom
  let here := ms.filter fun c => (s.ctxAt c).arrivedAt dom || (s.ctxAt c).haltedAt dom
  !ms.isEmpty && here.length + s.tokensOf part dom + s.haltedAway part dom == s.countOf ms dom &&
    (ms.any (fun c => (s.ctxAt c).arrivedAt dom) || s.tokensOf part dom != 0)

/-- The order in which the communication phase applies transfers: sender cell, sender package, bank, rank (R39). -/
def Posted.before (a b : Posted) : Bool :=
  let k (p : Posted) : List Nat := [p.sender.cell, p.pkg, bankNo p.sender.bank, p.rank]
  decide (k a ≤ k b)

/-- Inserts a transfer in order. -/
def insertPosted (p : Posted) : List Posted → List Posted
  | [] => [p]
  | q :: r => if p.before q then p :: q :: r else q :: insertPosted p r

/-- The transfers of the superstep that ends: those that rank older than their sender's BSYNC, and those of this superstep that have
come from other packages (R38). -/
def State.dueTransfers (s : State) (part dom : Nat) : List Posted :=
  (s.hub.posted.filter fun p => p.part == part && p.dom == dom &&
    if p.pkg = s.cfg.package then (s.ctxAt p.sender).haltedAt dom || decide (p.rank < (s.ctxAt p.sender).barrierRank)
    else p.step == s.domStep part dom).foldr insertPosted []

/-- What a superstep reduction writes at its destination: the mark of a destination unit is kept, and counted (R315). -/
def redApply (ty : Nat) (dst src : List (Byte × Bool)) : List (Byte × Bool) :=
  let e := redBytes ty
  let nums (l : List (Byte × Bool)) (k : Nat) : Nat := ofBytes (((l.drop (e * k)).take e).map (·.1))
  let bad (l : List (Byte × Bool)) (k : Nat) : Bool := ((l.drop (e * k)).take e).any (·.2)
  ((List.range (dst.length / e)).map fun k =>
    markedBytes (redElem ty (nums dst k) (nums src k)) e (bad dst k || bad src k)).flatten

/-- A transfer that is dropped here: it is counted, and its sender's `XERR` records it, where the sender stands; a sender in another
package hears of it (R41, R313). -/
def State.dropTransfer (s : State) (part dom : Nat) (p : Posted) (halted : Bool) : State :=
  let t := s.modCounts fun n => { n with dropped := n.dropped + 1 }
  if p.pkg = s.cfg.package then t.modAt p.sender fun x => x.dropped (if halted then 2 else 1) p.rank
  else t.modHub fun h => { h with outbox := h.outbox ++ [.dropped p.pkg part dom p.sender p.rank halted] }

/-- One transfer of the communication phase: it is dropped at the receiving hub, or is written (R39, R41, R313, R315). -/
def State.deliver (s0 : State) (part dom : Nat) (p : Posted) : State :=
  let c : CtxRef := { cell := memberCell p.target, bank := memberBank p.target }
  let sp := xSpace (memberSpace p.target)
  let off := memberOff p.target
  let soloBank := c.bank == Bank.b && !(s0.cell c.cell).pair
  if !(s0.membersOf part dom).contains c || soloBank || decide (s0.limit c sp < off + p.data.length) then
    s0.dropTransfer part dom p false
  else if (s0.ctxAt c).haltedAt dom then s0.dropTransfer part dom p true
  else
    match p.red with
    | none => s0.bufWrite c sp off (p.data.map some)
    | some ty =>
      let s := s0.eccSegs c [{ space := sp, addr := off, len := p.data.length }]
      let old := s.bufRead c sp off p.data.length
      (s.modCounts fun n => { n with hubPoison := satAdd32 n.hubPoison (badUnits off old).length }).bufWrite c sp off
        ((redApply ty old p.data).map some)

/-- The counters of a context's domains after a release (R35). -/
def Ctx.countRelease (c : Ctx) (dom : Nat) : Ctx :=
  let up (d n : Word) : Word := if domCount d ≠ 0 ∧ domId d = dom then n + 1 else n
  { c with
    sstept := up c.domt c.sstept, sstepd := up c.domd c.sstepd
    sstepp := up c.domp c.sstepp, ssteps := up c.doms c.ssteps }

/-- A member after the release: S goes on after its BSYNC (R37 step 5). -/
def Ctx.release (c : Ctx) (dom : Nat) : Ctx :=
  let d := c.countRelease dom
  if c.arrivedAt dom then { d with barrier := none, arrived := false, released := true } else d

/-- BARRIER_RELEASE (R37, R359). The communication phase takes place in the step of the release: every 64-byte unit is in its old state
before it and in its new state after it (R40 leaves the state between BSYNC and the release open; DESIGN CHOICE, log 97). -/
def execBarrierRelease (part : Nat) (dom : BitVec 32) (s : State) : Host.Outcome State Fault Refusal :=
  let d := dom.toNat
  .next (if !s.barrierFull part d then s
  else
    let due := s.dueTransfers part d
    let ms := s.membersOf part d
    let step := s.domStep part d
    let s := due.foldl (fun s p => s.deliver part d p) s
    let s := s.modHub fun h => { h with
      posted := h.posted.filter fun p => !due.contains p
      tokens := h.tokens.filter fun t => !tokenOf part d step t
      domains := h.domains.map fun x => if x.part == part && x.id == d then { x with step := x.step + 1 } else x }
    ms.foldl (fun s c => (s.modAt c fun x => x.release d).dropLines c.cell fun _ => true) s)

/-- A transfer that has come from another package stands with the posted ones until its superstep ends; where the hub knows no such
domain it is dropped at once (R38, R313). -/
def State.transferIn (s : State) (tok : BarrierToken) (t : MemberTransfer) : State :=
  let p : Posted := { part := tok.part, dom := tok.dom.toNat, sender := t.sender, pkg := tok.pkg, rank := t.rank, target := t.target,
                      red := t.red, data := (List.range t.data.length).map fun k => (t.data.getD k 0, t.marks.contains k),
                      step := tok.step }
  if (s.domRec tok.part tok.dom.toNat).isSome then s.modHub fun h => { h with posted := h.posted ++ [p] }
  else s.dropTransfer tok.part tok.dom.toNat p false

/-- A member of another package has halted, or its register has been rewritten since (R41). -/
def DomRec.noteHalt (d : DomRec) (m : Nat × CtxRef) (on : Bool) : DomRec :=
  let others := d.halted.filter fun x => x != m
  { d with halted := if on && d.members.contains m then others ++ [m] else others }

/-- What a barrier token does (log 33). -/
def State.tokenActs (s : State) (tok : BarrierToken) : State :=
  match tok.cargo with
  | .arrived _ => s.modHub fun h => { h with tokens := h.tokens ++ [tok] }
  | .transfer t => s.transferIn tok t
  | .dropped c rank halted => s.modAt c fun x => x.dropped (if halted then 2 else 1) rank
  | .halted c on => s.modHub fun h => { h with domains := h.domains.map fun d =>
      if d.part == tok.part && d.id == tok.dom.toNat then d.noteHalt (tok.pkg, c) on else d }

/-- BARRIER_TOKEN_ARRIVAL: the inbound queue holds 512 tokens; a full one withholds credits (20 R366). -/
def execBarrierTokenArrival (tok : BarrierToken) (s : State) : Host.Outcome State Fault Refusal :=
  .next (if 8 ≤ tok.port then s else s.msgComes tok.port .token (decide (512 ≤ s.hub.tokens.length)) (s.tokenActs tok))

/-! ## The domain table (R36, 21 R381) -/

/-- The hub holds 4,096 domains. -/
def domainPlaces : Nat := 4096

/-- A domain's record, where there is room; one without a member goes. -/
def State.putDomRec (s : State) (d : DomRec) : State :=
  let others := s.hub.domains.filter fun x => !(x.part == d.part && x.id == d.id)
  s.modHub fun h => { h with domains :=
    if d.members.isEmpty || decide (domainPlaces ≤ others.length) then others else others ++ [d] }

/-- A context is no longer a member of a domain. -/
def State.leaveDom (s : State) (part id : Nat) (c : CtxRef) : State :=
  match s.domRec part id with
  | some d => s.putDomRec { d with members := d.members.filter fun m => m != (s.cfg.package, c) }
  | none => s

/-- A context is a member of a domain: firmware's entry is what the hub records; without one the context joins the members (log 22). -/
def State.enterDom (s : State) (part id : Nat) (c : CtxRef) (rec : Option DomainEntry) : State :=
  let old := (s.domRec part id).getD { part := part, id := id, parent := none, members := [], step := 0, halted := [] }
  let m := (s.cfg.package, c)
  s.putDomRec (match rec with
    | some r => { old with parent := r.parent.map (·.toNat), members := r.members, halted := old.halted.filter r.members.contains }
    | none => if old.members.contains m then old else { old with members := old.members ++ [m] })

/-- A domain register with its ID changed clears its counter; a halted context no longer counts as arrived there (R35, R41). -/
def Ctx.putDom (c : Ctx) (sc : DomScope) (v : Word) : Ctx :=
  let v := v &&& 0x3FFFFFFFFFFFFFFF#64
  let keep (n : Word) : Word := if domId v = domId (c.dom sc) then n else 0
  let c := { c with haltIn := BitVec.ofNat 4 (putBits c.haltIn.toNat (scopeNo sc) 1 0) }
  match sc with
  | .t => { c with domt := v, sstept := keep c.sstept }
  | .d => { c with domd := v, sstepd := keep c.sstepd }
  | .p => { c with domp := v, sstepp := keep c.sstepp }
  | .s => { c with doms := v, ssteps := keep c.ssteps }

/-- The hub's record follows a write of a domain register: the context leaves the domain that the register named, unless another of its
registers names it, and belongs to the one that it names now; the other packages hear that it no longer counts as arrived (R36, R41). -/
def State.recordDom (s : State) (c : CtxRef) (sc : DomScope) (v : Word) (rec : Option DomainEntry) : State :=
  let part := s.partOf c
  let x := s.ctxAt c
  let old := x.dom sc
  let kept := scopes.any fun e => e != sc && domCount (x.dom e) != 0 && domId (x.dom e) == domId old
  let t := if domCount old != 0 && bitOf x.haltIn (scopeNo sc) && s.domSpans part (domId old) then
    s.modHub fun h => { h with outbox := h.outbox ++ [.halted part (domId old) c false] } else s
  let t := if domCount old = 0 ∨ kept ∨ domId old = domId v then t else t.leaveDom part (domId old) c
  if domCount v = 0 then t else t.enterDom part (domId v) c rec

/-- The parent of a team's domain: the smallest domain of firmware's that all its members belong to (R36, log 22). -/
def State.teamParent (s : State) (members : List CtxRef) : Option Nat :=
  match members with
  | [] => none
  | c :: _ => [DomScope.d, .p, .s].findSome? fun sc =>
      let v := (s.ctxAt c).dom sc
      let shared (m : CtxRef) : Bool := domCount ((s.ctxAt m).dom sc) != 0 && domId ((s.ctxAt m).dom sc) == domId v
      if members.all shared then some (domId v) else none

/-- The hub's record of a team's domain has its parent. -/
def State.noteParent (s : State) (part : Nat) (domt : Word) : State :=
  match if domCount domt = 0 then none else s.domRec part (domId domt) with
  | some d => s.putDomRec { d with parent := s.teamParent (s.membersOf part d.id) }
  | none => s

/-- DOMAIN_REGISTER_WRITE (R34, R35): firmware writes all but `DOMT`, and with a register what the hub records of its domain. -/
def execDomainRegisterWrite (c : CtxRef) (reg : DomScope) (v : DomainWrite) (s : State) : Host.Outcome State Fault Refusal :=
  .next (s.byFirmware <| if reg = .t then s
  else ((s.recordDom c reg v.value v.entry).modAt c fun x => x.putDom reg v.value).noteParent (s.partOf c) (s.ctxAt c).domt)

/-! ## Links (27 R464, R465) -/

/-- An access to a peer is reported lost after 10 microseconds. -/
def lossDelay : Nat := 10 * hubMicro

/-- What the loss of a flit does (R465). -/
def State.flitLost (s : State) (cargo : FlitCargo) : State :=
  match cargo with
  | .lsa acc =>
    match s.findAcc acc with
    | some a => if a.home = .peer then s.modHub fun h => { h with lost := Table.set h.lost acc (h.time + lossDelay) } else s
    | none => s
  | .xpeer c op =>
    match (s.ctx c).op op with
    | some o => if o.awaitsPeer then (s.modCtx c fun x => x.dropped 3 o.id).xDone c o else s
    | none => s
  | .reward => s
  | .barrier => s

/-- FLIT_RETRY: up to 8 retries, each counted; a flit that stays bad is dropped and counted (R465). A barrier token is resent
end to end, so it is never dropped. -/
def execFlitRetry (f : FlitEvent) (s : State) : Host.Outcome State Fault Refusal :=
  let s1 := s.modHub fun h => { h with ports := Table.modify h.ports Port.init f.port fun p =>
    { p with retries := satAdd32 p.retries (min f.tries 8), drops := if 8 < f.tries then satAdd32 p.drops 1 else p.drops } }
  .next (if 8 ≤ f.port then s else if 8 < f.tries then s1.flitLost f.cargo else s1)

/-- The address of the word that issued an operation or a scalar access of a rank. -/
def Ctx.wordOf (c : Ctx) (rank : Nat) : Option Word :=
  ((c.ops.find? fun o => o.id == rank).map (·.pc)).orElse fun _ => (c.sops.find? fun o => o.id == rank).map (·.pc)

/-- What an access does to its page. -/
def Access.use (a : Access) : Use := if a.isAtomic then .atomic else if a.isWrite then .write else .read

/-- The node that a hub unit works on: a COPY node, or a SCAN node. -/
def State.unitNode (s : State) (unit : Nat) : Option NodeRef :=
  if unit = unitCopy then
    match s.hub.copy with
    | some { job := .node n _, .. } => some n
    | _ => none
  else s.hub.join.job

/-- A failed access of a hub unit is not made; the node that the unit works on fails by it (17 R341). A write of a join episode's scan
ends the scan as a translation fault does: its entry is RELEASED with GONE, and no record is entered (23 R432, 20 R375). -/
def State.hubAccessFails (s : State) (a : Access) (unit : Nat) : State :=
  let t := s.dropAcc a.id
  match s.unitNode unit, (if unit = unitScan then s.hub.join.scan else none) with
  | some n, _ =>
    let t := if unit = unitScan then t.jcount 14 1 else t
    t.modHub fun h => { h with fails := h.fails ++ [(n, { status := 2, cause := Cause.prot.code, detail := a.va, orig := none })] }
  | none, some (e, _) => ((t.releaseEntry e true).jcount 14 1).modJoin fun j => { j with scan := none }
  | none, none => t

/-- The bytes that a word waits for do not come. -/
def Ctx.dropReader (c : Ctx) (id : Nat) : Ctx :=
  let keep (r : Option InitRead) : Option InitRead := r.filter fun x => x.id != id
  { c with initRead := keep c.initRead, xcpy2 := keep c.xcpy2, rwpost := keep c.rwpost }

/-- A failed access of a stream is reported as PROT. It stops its operation, or the slot whose emission it is, and the cause stays with
them (12 R244); that of a word that waits for bytes, or of a read ahead, is reported at the word that has not issued (10 R222), that of S by itself: one of
the handler reaches firmware at once, an older one waits for the handler's end (R248). The access is made again after a resume, but a read for a word or a slot is asked for
anew. -/
def State.streamFails (s : State) (c : CtxRef) (st : Stream) (a : Access) : State :=
  let x := s.ctx c
  let t : Trap := { cause := .prot, addr := a.va, st := st, async := true, word := x.wordOf a.rank, syn := some (s.synOf c a.use a.va) }
  let late (s : State) (t : Trap) : State :=
    if x.hnd && x.cut.isNone && x.hold == .free && decide (x.hndRank ≤ a.rank) then s.raise c t else s.raiseLate c (some t)
  match a.sink with
  | .init id _ => late ((s.dropAcc a.id).modCtx c fun x => x.dropReader id) { t with async := false }
  | .coder n _ =>
    if a.isWrite then s.modCtx c fun x => { x with slots := Table.set x.slots n { x.slot n with
      stopped := (x.slot n).stopped.orElse fun _ => some t } }
    else late (s.dropAcc a.id) { t with async := false }
  | _ =>
    match x.op a.rank with
    | some o => if o.kind.isScalar then late s t else s.modCtx c fun x => x.setOp { o with pending := o.pending.orElse fun _ => some t }
    | none => late s t

/-- What an access that has failed does at its agent (R465, 17 R332). A context that has stopped, or whose node fails, hears nothing of it. -/
def State.accessFails (s : State) (a : Access) : State :=
  match a.agent with
  | .stream c st =>
    if a.left || (s.ctx c).hold == .failed || (s.ctx c).running.isNone then s.dropAcc a.id else s.streamFails c st a
  | .hub unit _ => s.hubAccessFails a unit
  | _ => s

/-- LSA_LOSS_TIMEOUT: the requester sees PROT; after a resume the access is made again (R465, 12 R251, log 32). -/
def execLsaLossTimeout (acc : Nat) (s : State) : Host.Outcome State Fault Refusal :=
  .next (match s.hub.lost.find? fun p => p.1 == acc with
    | none => s
    | some p =>
      if s.hub.time < p.2 then s
      else
        let s := s.modHub fun h => { h with lost := Table.erase h.lost acc }
        match s.findAcc acc with
        | none => s
        | some a => (s.setAcc { a with posted := false, performed := false, failed := true }).accessFails a)

/-- GIUTH_PORT_TRAINING (R461). -/
def execGiuthPortTraining (port : Nat) (up : Bool) (s : State) : Host.Outcome State Fault Refusal :=
  .next (if 8 ≤ port then s else
    s.modHub fun h => { h with ports := Table.modify h.ports Port.init port fun p => { p with up := up } })

/-! ## Peers and the host in device HBM (18 R361, 17 R341) -/

/-- The bytes of a run of device HBM, by physical address. -/
def hbmParts (addr len : Nat) (page : PageKind) : List Part :=
  (piecesOf addr len).map fun (k, a, n) => { pos := k, len := n, home := .hbm, addr := a, va := BitVec.ofNat 64 a, page := page }

/-- The bytes that a peer's access names. -/
def peerLen : PeerOp → Nat
  | .load n => n
  | .store data => data.length
  | .amo n _ _ => n
  | .cas n _ _ => n

/-- What a peer's access does at its home. -/
def peerKind : PeerOp → AccKind
  | .load _ => .read
  | .store _ => .write
  | .amo _ op v => .amo op v
  | .cas _ e n => .cas e n

/-- The bytes that a peer's access brings, each with its mark (14 R272). -/
def peerData : PeerOp → List (Byte × Bool)
  | .store data => data
  | _ => []

/-- PEER_ACCESS: each part is one POST in the queue of the peer's agent (18 R361). A package that is not of the load-store domain sends
none (01 R17); an address beyond device HBM is refused (17 R332). -/
def execPeerAccess (a : PeerAccess) (s : State) : Host.Outcome State Fault Refusal :=
  .next (if !s.namesPackage a.pkg then s
  else if hbmSize < a.addr + peerLen a.op then s.modReplies fun r => { r with errors := r.errors ++ [.peerAccess a.pkg a.addr] }
  else s.postParts (.peerPkg a.pkg a.agent) (peerKind a.op) (fun _ => .none) (fun k => (peerData a.op).getD k (0, false))
    (hbmParts a.addr (peerLen a.op) a.page))

/-- A partition is in TENANT. -/
def State.anyTenant (s : State) : Bool := s.hub.parts.any fun p => p.2.defined && p.2.tenant

/-- Firmware refuses a host read: in TENANT it limits the host to the ranges that the tenant's firmware assigns (R458). -/
def State.readRefused (s : State) (addr len : Nat) : Bool := s.anyTenant && Config.hostRefuses s.freeCount addr len

/-- HOST_MEM_READ: each part completes with its PERFORM (18 R361); a poisoned unit returns CXL poison (14 R272). A read that firmware
refuses gives the host nothing (DESIGN CHOICE, log 68). -/
def execHostMemRead (addr len : Nat) (s : State) : Host.Outcome State Fault Refusal :=
  .next (if hbmSize < addr + len ∨ !s.cfg.recordOk then s
  else
    let t := { s with freeCount := s.freeCount + 1 }
    if s.readRefused addr len then t else t.postParts .host .read (fun _ => .none) (fun _ => (0, false)) (hbmParts addr len .uo))

/-- HOST_MEM_WRITE: a write that firmware or the partition layout does not allow is dropped and counted (R458). -/
def execHostMemWrite (addr : Nat) (data : List (BitVec 8)) (s : State) : Host.Outcome State Fault Refusal :=
  .next (if hbmSize < addr + data.length ∨ !s.cfg.recordOk then s
  else
    let t := { s with freeCount := s.freeCount + 1 }
    if Config.hostRefuses s.freeCount addr data.length then t.modCounts fun n => { n with hostDrops := satAdd32 n.hostDrops 1 }
    else t.postParts .host .write (fun _ => .none) (fun k => (data.getD k 0, false)) (hbmParts addr data.length .uo))

/-- FIRMWARE_STORE: an ordinary store of a page-table entry (17 R340). -/
def execFirmwareStore (addr : Nat) (v : BitVec 64) (s : State) : Host.Outcome State Fault Refusal :=
  .next (s.byFirmware <| if hbmSize < addr + 8 ∨ addr % 8 ≠ 0 then s else { s with hbm := s.hbm.store addr (cleanBytes (toBytes v.toNat 8)) })

/-- The next step of the hub copy engine on a page that migrates, 64 bytes at a time: it reads, it writes what it has read, it goes on. A
copy that does not convert moves the marks (17 R339, 14 R272). -/
def State.pageStep (s : State) (r : CopyRun) (src dst len : Nat) : State :=
  let run (x : Option CopyRun) (t : State) : State := t.modHub fun h => { h with copy := x }
  let n := min 64 (len - 64 * r.row)
  if !s.unitQuiet unitCopy then s
  else if n = 0 then run none s
  else if r.writing then run (some { r with row := r.row + 1, busy := false, writing := false, buf := [] }) s
  else if r.busy then
    run (some { r with writing := true }) (s.postParts (.hub unitCopy noPart) .write (fun _ => .none) (fun k => Table.get r.buf (0, false) k)
      (hbmParts (dst + 64 * r.row) n .uo))
  else
    run (some { r with busy := true }) (s.postParts (.hub unitCopy noPart) .read (fun k => .copy k) (fun _ => (0, false))
      (hbmParts (src + 64 * r.row) n .uo))

/-- PAGE_MIGRATION_COPY: the copy engine takes firmware's command once it is free, and goes on with it. -/
def execPageMigrationCopy (src dst len : Nat) (s : State) : Host.Outcome State Fault Refusal :=
  .next (s.byFirmware <| if hbmSize < src + len ∨ hbmSize < dst + len then s
  else match s.hub.copy with
    | none => s.modHub fun h =>
        { h with copy := some { job := .page src dst len, row := 0, busy := false, writing := false, buf := [], draw := 0 } }
    | some r => if r.job = .page src dst len then s.pageStep r src dst len else s)

/-! ## Invalidation (17 R337, R338) -/

/-- An entry translates an address of a range of 64 KiB pages; 0 pages name the whole space. -/
def TlbEntry.inRange (e : TlbEntry) (first pages : Nat) : Bool :=
  pages == 0 || decide (e.vpn * e.size < (first + pages) * 2 ^ 16) && decide (first * 2 ^ 16 < (e.vpn + 1) * e.size)

/-- The page that translates an access shares an address with a range. -/
def Access.inRange (a : Access) (first pages : Nat) : Bool :=
  a.span.2 != 0 && (pages == 0 ||
    decide (a.span.1 < (first + pages) * 2 ^ 16) && decide (first * 2 ^ 16 < a.span.1 + a.span.2))

/-- The partition whose translations an access has used. -/
def State.accPart (s : State) (a : Access) : Option Nat :=
  match a.agent with
  | .stream c _ => some (s.partOf c)
  | .hub _ part => some part
  | _ => none

/-- A write of `TLBINV` (R338): a GO write while a command runs only sets REJ; the range is sampled by a GO write. -/
def TlbInv.write (i : TlbInv) (v : Word) : TlbInv :=
  if bitOf v 8 && i.busy.isSome then { i with rej := true }
  else
    let rej := i.rej && !bitOf v 62
    if bitOf v 8 then { i with rej := rej, part := bits v 0 3, busy := some (bits v 0 3, bits i.va 16 39, i.pages) }
    else if i.busy.isSome then { i with rej := rej }
    else { i with rej := rej, part := bits v 0 3 }

/-- TLBINV_GO (R338). -/
def execTlbinvGo (part : Nat) (v : BitVec 64) (s : State) : Host.Outcome State Fault Refusal :=
  .next (s.byFirmware <| if bits v 0 3 ≠ part then s else s.modHub fun h => { h with tlbinv := h.tlbinv.write v })

/-- TLBINV_REJ_CLEAR. -/
def execTlbinvRejClear (_part : Nat) (s : State) : Host.Outcome State Fault Refusal :=
  .next (s.byFirmware (s.modHub fun h => { h with tlbinv := { h.tlbinv with rej := false } }))

/-- No access of the partition that an entry of the range has translated is left to be performed (R337 step 3). -/
def State.rangeQuiet (s : State) (part first pages : Nat) : Bool :=
  s.accs.all fun a => s.accPart a != some part || a.performed || !a.inRange first pages

/-- A stream without the entries of a range. -/
def StreamState.dropRange (x : StreamState) (first pages : Nat) : StreamState :=
  { x with tlb := x.tlb.filter fun e => !e.inRange first pages }

/-- Every TLB of the partition without the entries of a range, and its S read caches empty. -/
def State.dropTranslations (s : State) (p first pages : Nat) : State :=
  let ctxs := s.ctxs.map fun (k, x) =>
    (k, if s.partOf (ctxOfKey k) = p then x.eachStr fun _ r => r.dropRange first pages else x)
  let cells := s.cells.map fun (k, l) => (k, if l.part.getD 0 = p then { l with cache := [] } else l)
  { s with ctxs := ctxs, cells := cells }.modHub fun h =>
    { h with tlbs := Table.set h.tlbs p ((Table.get h.tlbs [] p).filter fun e => !e.inRange first pages) }

/-- TLBINV_COMPLETE (R337). The S read caches of the partition's cells go with the entries (R338, PART). -/
def execTlbinvComplete (part : Nat) (s : State) : Host.Outcome State Fault Refusal :=
  .next (match s.hub.tlbinv.busy with
    | none => s
    | some (p, first, pages) =>
      if p ≠ part ∨ !s.rangeQuiet p first pages then s
      else
        let t := s.dropTranslations p first pages
        t.modHub fun h => { h with tlbinv := { h.tlbinv with busy := none } })

end Sys2Proof.Machine
end

