-- ==== Sys2Proof/Machine/Nodes.lean ====
section
/-!
DEFINITION. Live launches and their nodes: node records, envelopes and kernel images as the sorting office reads them, and
the derived edges (21 R382 to R389).
-/
namespace Sys2Proof.Machine

/-! ## Launches and nodes -/

/-- A live launch. -/
def State.launch (s : State) (part n : Nat) : Option Launch :=
  ((s.part part).launches.find? fun p => p.1 == n).map (·.2)

def State.modLaunch (s : State) (part n : Nat) (f : Launch → Launch) : State :=
  s.modPart part fun p => { p with launches := p.launches.map fun x => if x.1 = n then (x.1, f x.2) else x }

def State.modNode (s : State) (n : NodeRef) (f : NodeInfo → NodeInfo) : State :=
  s.modLaunch n.part n.launch fun l => { l with table := Table.modify l.table NodeInfo.init n.node f }

/-- Every node of a launch with its number. -/
def Launch.all (l : Launch) : List (Nat × NodeInfo) := l.table

/-- Every node of the partition's live launches. -/
def State.nodesOf (s : State) (part : Nat) : List (NodeRef × NodeInfo) :=
  ((s.part part).launches.map fun (k, l) => l.table.map fun (i, x) =>
    (({ part := part, launch := k, node := i } : NodeRef), x)).flatten

/-- A node whose count has reached 0 waits for its submission in this hub cycle. -/
def NodeInfo.due (x : NodeInfo) : Bool := x.status == .due

/-- A node waits, is ready or runs (R388). -/
def NodeInfo.live (x : NodeInfo) : Bool := x.status == .waiting || x.status == .ready || x.status == .running

/-- A context runs a node. -/
def Ctx.runs (x : Ctx) (n : NodeRef) : Bool := x.running.any fun r => r.node == n

/-- A member of a node, live or parked in shadow storage. -/
def State.member (s : State) (n : NodeRef) (c : CtxRef) : Ctx :=
  if (s.ctx c).runs n then s.ctx c else (s.parkedCtx c).getD (s.ctx c)

def State.modMember (s : State) (n : NodeRef) (c : CtxRef) (f : Ctx → Ctx) : State :=
  if (s.ctx c).runs n then s.modCtx c f else s.modParked c f

/-- The failure that a node ends with, once it is known. -/
def State.failureOf (s : State) (n : NodeRef) : Option Failure := (s.hub.fails.find? fun p => p.1 == n).map (·.2)

/-- A node fails (21 R396, R397). -/
def State.nodeFails (s : State) (n : NodeRef) (status cause : Nat) (detail : Word) : State :=
  s.modHub fun h => { h with fails := h.fails ++ [(n, { status := status, cause := cause, detail := detail, orig := none })] }

/-! ## Reads of the sorting office (R382) -/

/-- The numbers of the failure statuses (R396). -/
def sysfail : Nat := 2
def badrec : Nat := 5

/-- Bytes that the sorting office reads: a fault or a poisoned unit gives a cause code and an address. -/
def State.officeRead (s : State) (part : Nat) (va : Word) (n : Nat) : Except (Nat × Word) Nat :=
  match s.hubRead part va n with
  | .error (cause, a) => .error (cause.code, a)
  | .ok l =>
    match badUnits va.toNat l with
    | u :: _ => .error (Cause.poison.code, BitVec.ofNat 64 u)
    | [] => .ok (bytesNum l)

/-! ## Node records (R382, R383, R392) -/

def recKind (r : BitVec 1024) : Nat := bits r 0 8
def recSpliceP (r : BitVec 1024) : Bool := bitOf r 8
def recSpliceC (r : BitVec 1024) : Bool := bitOf r 9
def recDual (r : BitVec 1024) : Bool := bitOf r 10
def recPclass (r : BitVec 1024) : Nat := bits r 11 2
def recTeam (r : BitVec 1024) : Nat := bits r 16 4
def recPrio (r : BitVec 1024) : Nat := bits r 24 3
def recPred (r : BitVec 1024) : Nat := bits r 32 16
def recImage (r : BitVec 1024) : Word := BitVec.ofNat 64 (bits r 64 64)
def recEaddr (r : BitVec 1024) : Word := BitVec.ofNat 64 (bits r 128 55)
def recNreg (r : BitVec 1024) : Nat := bits r 187 5
def recParam (r : BitVec 1024) (i : Nat) : Word := BitVec.ofNat 64 (bits r (192 + 64 * i) 64)
def recSucc (r : BitVec 1024) (i : Nat) : Nat := bits r (704 + 16 * i) 16
def recToken (r : BitVec 1024) (n : Nat) : BitVec 4 := BitVec.ofNat 4 (bits r (832 + 4 * n) 4)
def recCaddr (r : BitVec 1024) : Word := BitVec.ofNat 64 (bits r 896 64)
def recLmax (r : BitVec 1024) : Nat := bits r 960 32
def recHint (r : BitVec 1024) : Nat := bits r 992 32

/-- No node in a successor slot. -/
def noSucc : Nat := 0xFFFF

/-- KERNEL, COND, SWITCH, LOOP, SCAN, COPY and END. -/
def kKernel : Nat := 0
def kCond : Nat := 1
def kSwitch : Nat := 2
def kLoop : Nat := 3
def kScan : Nat := 4
def kCopy : Nat := 5
def kEnd : Nat := 6

/-- COND, SWITCH, LOOP and END run on no executor (R383). -/
def recControl (r : BitVec 1024) : Bool := recKind r == kCond || recKind r == kSwitch || recKind r == kLoop || recKind r == kEnd

/-- COND, SWITCH and LOOP read a decision word. -/
def recDecides (r : BitVec 1024) : Bool := recKind r == kCond || recKind r == kSwitch || recKind r == kLoop

/-- What R392 asks of the slots of a LOOP: its index is `self`. -/
def loopBad (r : BitVec 1024) (self : Nat) : Bool :=
  let a := recSucc r 0
  let b := recSucc r 1
  a == noSucc || b == noSucc || decide (b < a) || (decide (a ≤ self) && decide (self ≤ b)) ||
    [3, 4, 5, 6, 7].any fun i => recSucc r i != noSucc

/-- A record that breaks the map (R382, R383): `count` is the launch's node count. -/
def recBad (r : BitVec 1024) (self count : Nat) : Bool :=
  decide (6 < recKind r) || bits r 13 3 != 0 || bits r 20 4 != 0 || bits r 27 5 != 0 || bits r 48 16 != 0 ||
    bits r 183 4 != 0 || decide (2 ≤ recPclass r) || decide (8 < recTeam r) || decide (16 < recNreg r) ||
    (recKind r != kKernel && (recTeam r != 0 || recDual r)) ||
    (recControl r && (recNreg r != 0 || recImage r != 0)) ||
    (recKind r != kLoop && recLmax r != 0) ||
    (if recDecides r then recCaddr r % 8 != 0 else recCaddr r != 0) ||
    (recNreg r != 0 && recEaddr r % 16 != 0) ||
    ((recKind r == kCopy || recKind r == kScan) && recImage r % 64 != 0) ||
    ((List.range 8).any fun i => recSucc r i != noSucc && decide (count ≤ recSucc r i)) ||
    (recKind r == kLoop && loopBad r self)

/-! ## Envelopes (R384, R389) -/

/-- A region, and whether it breaks the map. -/
def regionOf (v : Nat) : Region × Bool :=
  let access := bitsN v 107 2
  ({ space := bitsN v 104 3, base := bitsN v 0 64, len := bitsN v 64 32, reads := access % 2 == 1, writes := decide (2 ≤ access),
     retained := bitsN v 110 1 == 1, transient := bitsN v 109 1 == 1, id := bitsN v 96 8 },
   bitsN v 111 17 != 0 || bitsN v 109 2 == 3 || access == 0 || decide (4 < bitsN v 104 3) || bitsN v 64 32 == 0)

/-- The regions of an envelope of n entries. -/
def regionsOf (v n : Nat) : List (Region × Bool) := (List.range n).map fun i => regionOf (bitsN v (128 * i) 128)

/-- Two regions share a byte of a space. -/
def Region.overlaps (a b : Region) : Bool :=
  a.space == b.space && decide (a.base < b.base + b.len) && decide (b.base < a.base + a.len)

/-- Two regions conflict (R389): only vm and ss derive edges. -/
def Region.conflicts (a b : Region) : Bool := (a.space == 0 || a.space == 4) && a.overlaps b && (a.writes || b.writes)

/-- Two envelopes conflict. -/
def envelopesConflict (a b : List Region) : Bool := a.any fun x => b.any fun y => x.conflicts y

/-- The reads of a record and its envelope find the errors of their units (14 R271). -/
def State.findRecord (s : State) (l : Launch) (part n : Nat) : State :=
  let a := l.graph + BitVec.ofNat 64 (128 * n)
  let t := s.hubFind part a 128
  match t.hubRead part a 128 with
  | .ok b =>
    let r := BitVec.ofNat 1024 (bytesNum b)
    if recNreg r = 0 ∨ 16 < recNreg r then t else t.hubFind part (recEaddr r) (16 * recNreg r)
  | .error _ => t

/-- A record with its regions as the sorting office reads them, or the failure of the node (R382, R384, R402). -/
def State.fetchRecord (s : State) (l : Launch) (part n : Nat) : Except (Nat × Nat × Word) (BitVec 1024 × List Region) :=
  match s.officeRead part (l.graph + BitVec.ofNat 64 (128 * n)) 128 with
  | .error (c, a) => .error (sysfail, c, a)
  | .ok v =>
    let r := BitVec.ofNat 1024 v
    if recBad r n l.nodes then .error (badrec, 0, 0)
    else if recNreg r = 0 then .ok (r, [])
    else match s.officeRead part (recEaddr r) (16 * recNreg r) with
      | .error (c, a) => .error (sysfail, c, a)
      | .ok e =>
        let gs := regionsOf e (recNreg r)
        if gs.any (·.2) || recDual r && gs.any (fun g => g.1.space == 4 && g.1.writes) then .error (badrec, 0, 0)
        else .ok (r, gs.map (·.1))

/-- The explicit count of a node as its record gives it; a record that cannot be read counts 1 (log 40). -/
def State.predOf (s : State) (l : Launch) (part n : Nat) : Nat :=
  match s.hubRead part (l.graph + BitVec.ofNat 64 (128 * n + 4)) 2 with
  | .ok b => bytesNum b
  | .error _ => 1

/-- The nodes, submitted earlier, that a new envelope conflicts with (R388). -/
def State.derivedFor (s : State) (part : Nat) (self : NodeRef) (gs : List Region) : List NodeRef :=
  ((s.nodesOf part).filter fun (n, x) => n != self && x.live && envelopesConflict x.regions gs).map (·.1)

/-! ## Kernel images (R386) -/

/-- The prologue and the header of a kernel image. -/
structure KImage where
  va     : Word
  prolog : Nat
  header : Nat
  deriving DecidableEq, Repr, Inhabited

def KImage.pair (i : KImage) : Bool := bitsN i.prolog 16 1 == 1
def KImage.base (i : KImage) (st : Nat) : Nat := bitsN i.header (64 * st) 64
def KImage.len (i : KImage) (st : Nat) : Nat := bitsN i.header (256 + 64 * st) 32
def KImage.entry (i : KImage) (st : Nat) : Nat := bitsN i.header (256 + 64 * st + 32) 32
def KImage.qmask (i : KImage) (st : Nat) : Nat := bitsN i.header (512 + 64 * st) 64
def KImage.splh (i : KImage) : Nat := bitsN i.header 832 64

/-- The header breaks R386. -/
def KImage.bad (i : KImage) : Bool :=
  bitsN i.prolog 0 16 != 1 || bitsN i.prolog 19 45 != 0 || bitsN i.header 960 64 != 0 || bitsN i.header 805 27 != 0 ||
    decide (16 < bitsN i.header 800 5) || bitsN (i.qmask 0) 32 32 != 0 || bitsN (i.qmask 1) 32 32 != 0 ||
    bitsN (i.qmask 2) 16 48 != 0 || bitsN (i.qmask 3) 16 48 != 0 ||
    (List.range 4).any fun st => decide (i.len st ≤ i.entry st)

/-- Reads an image. -/
def State.fetchImage (s : State) (part : Nat) (va : Word) : Except (Nat × Word) KImage :=
  match s.officeRead part va 136 with
  | .error x => .error x
  | .ok v => .ok { va := va, prolog := bitsN v 0 64, header := v / 2 ^ 64 }

/-! ## Parameters, hints and levels (R373, R400) -/

/-- The parameters of a node: the arguments of the launch for the entry node (20 R373). -/
def Launch.params (l : Launch) (n : Nat) (x : NodeInfo) : List Word :=
  if n = l.entry then l.args else (List.range 8).map (recParam x.record)

/-- The hint of a node in hub cycles (R373, R382). -/
def Launch.hintOf (l : Launch) (n : Nat) (x : NodeInfo) : Nat := if n = l.entry then l.hint else 1024 * recHint x.record

/-- The level of a node (R400): the larger of its priority and the cap, less the levels it has risen. -/
def Launch.level (l : Launch) (x : NodeInfo) : Nat := max (recPrio x.record) l.cap - x.raised

end Sys2Proof.Machine
end

