-- ==== Sys2Proof/Machine/Linker.lean ====
section
/-!
DEFINITION. The hardware linker: the splice header, the checks on a candidate pair, the fused kernel with its splice map,
and the splice cache (22 R403 to R414).
-/
namespace Sys2Proof.Machine

/-! ## The splice header (R403) -/

def hdrTrip (h : Nat) : Nat := bitsN h 9 3
def hdrII (h : Nat) : Nat := bitsN h 12 4 + 1
def hdrStages (h : Nat) : Nat := bitsN h 16 3 + 1
def hdrRb (h : Nat) : Bool := bitsN h 19 1 == 1
def hdrSites (h : Nat) : Nat := bitsN h 20 4
def hdrTripPc (h : Nat) : Nat := bitsN h 32 32
def hdrLpos (h st : Nat) : Nat := bitsN h (64 + 16 * st) 16
def hdrMovx (h : Nat) : Bool := bitsN h 163 1 == 1
def hdrCode (h : Nat) : Bool := bitsN h 164 1 == 1
def hdrEng (h : Nat) : Bool := bitsN h 165 1 == 1
def hdrPmask (h : Nat) : Nat := bitsN h 166 8
def hdrTmask (h : Nat) : Nat := bitsN h 174 16

/-- TMASK, PUSE, MUSE, FUSE, WUSE and EUSE as bit fields: place and width. -/
def hdrUses : List (Nat × Nat) := [(174, 16), (190, 7), (197, 7), (204, 16), (220, 4), (224, 32)]

/-- A site entry. -/
structure Site where
  word   : Nat
  load   : Bool
  region : Nat
  bytes  : Nat
  stride : Nat
  deriving DecidableEq, Repr, Inhabited

/-- The k-th site of a header with its entries, and whether it breaks the map. -/
def hdrSite (h k : Nat) : Site × Bool :=
  let e := bitsN h (256 + 128 * k) 128
  ({ word := bitsN e 0 16, load := bitsN e 16 1 == 1, region := bitsN e 56 8, bytes := bitsN e 64 32, stride := bitsN e 96 32 },
   bitsN e 17 39 != 0)

/-- Every site of a header. -/
def hdrAllSites (h : Nat) : List (Site × Bool) := (List.range (hdrSites h)).map (hdrSite h)

/-- A header breaks its map, or has the other role. -/
def hdrBad (h : Nat) (consumer : Bool) : Bool :=
  bitsN h 0 8 != 1 || (bitsN h 8 1 == 1) != consumer || bitsN h 24 8 != 0 || bitsN h 128 35 != 0 || decide (8 < hdrSites h)

/-! ## One image of a pair -/

/-- A node of a candidate pair as the linker sees it: record, regions, parameters, image, splice header, code. -/
structure Side where
  record  : BitVec 1024
  regions : List Region
  params  : List Word
  image   : KImage
  header  : Nat
  code    : List (List Nat)
  deriving DecidableEq, Repr, Inhabited

/-- The words of a run of bytes. -/
def wordsOf (v n : Nat) : List Nat := (List.range n).map fun i => bitsN v (32 * i) 32

/-- The code of an image, stream by stream; nothing where a word cannot be read. -/
def State.imageCode (s : State) (part : Nat) (i : KImage) : Nat → Option (List (List Nat))
  | 0 => some []
  | k + 1 =>
    let st := 3 - k
    match s.officeRead part (BitVec.ofNat 64 (i.base st)) (4 * i.len st), s.imageCode part i k with
    | .ok v, some r => some (wordsOf v (i.len st) :: r)
    | _, _ => none

/-- The words of one stream of a side. -/
def Side.words (x : Side) (st : Nat) : List Nat := x.code.getD st []

/-- The LOOPM bundle and the body do not lie before a halt word in every stream, or S holds no LOOPM there (log 41). -/
def Side.shapeBad (x : Side) : Bool :=
  ((List.range 4).any fun st => decide ((x.words st).length ≤ hdrLpos x.header st + hdrII x.header + 1)) ||
    bitsN ((x.words 0).getD (hdrLpos x.header 0) 0) 25 6 != 0x22

/-- Reads image, splice header and code for cause 5. -/
def State.linkSide (s : State) (part : Nat) (r : BitVec 1024) (gs : List Region) (params : List Word) (consumer : Bool) :
    Option Side :=
  match s.fetchImage part (recImage r) with
  | .error _ => none
  | .ok i =>
    if recKind r ≠ kKernel ∨ i.bad ∨ i.splh = 0 ∨ bitsN i.prolog (if consumer then 18 else 17) 1 = 0 then none
    else
      let at_ := i.va + BitVec.ofNat 64 (8 + i.splh)
      match s.officeRead part at_ 32 with
      | .error _ => none
      | .ok h0 =>
        if hdrBad h0 consumer then none
        else match s.officeRead part at_ (32 + 16 * hdrSites h0), s.imageCode part i 4 with
          | .ok h, some code =>
            let x : Side := { record := r, regions := gs, params := params, image := i, header := h, code := code }
            if (hdrAllSites h).any (·.2) || x.shapeBad then none else some x
          | _, _ => none

/-! ## Queue use (R79, R406) -/

/-- The numbered files that the linker renumbers: s, channels, v, and a of V, M and X. -/
inductive QFile where
  | s | c | v | a (st : Nat)
  deriving DecidableEq, Repr, Inhabited

def qfiles : List QFile := [.s, .c, .v, .a 1, .a 2, .a 3]

/-- The numbers of a file. -/
def QFile.numbers : QFile → List Nat
  | .s => (List.range 24).drop 1
  | .c => List.range 8
  | _ => (List.range 16).drop 1

/-- The queue-usage mask of an image names queue n of a file. -/
def KImage.uses (i : KImage) (f : QFile) (n : Nat) : Bool :=
  match f with
  | .s => bitsN (i.qmask 0) n 1 == 1
  | .c => bitsN (i.qmask 0) (24 + n) 1 == 1
  | .v => bitsN (i.qmask 1) n 1 == 1
  | .a st => if st = 1 then bitsN (i.qmask 1) (16 + n) 1 == 1 else bitsN (i.qmask st) n 1 == 1

/-- The queues of a file that an image uses, and those it leaves free, ascending. -/
def KImage.used (i : KImage) (f : QFile) : List Nat := f.numbers.filter (i.uses f)
def KImage.free (i : KImage) (f : QFile) : List Nat := f.numbers.filter fun n => !i.uses f n

/-- The fused number of queue n of C (R406); a queue that C's mask does not name keeps its number (log 41). -/
def renumber (p c : KImage) (f : QFile) (n : Nat) : Nat := Table.get ((c.used f).zip (p.free f)) n n

/-- The forwarding queue of the k-th site pair. -/
def forwardQueue (p c : KImage) (k : Nat) : Nat := ((p.free .v).drop (c.used .v).length).getD k 0

/-! ## The fields of a word (04 R86 to R95) -/

def opOf (w : Nat) : Nat := bitsN w 25 6

/-- The places of the 5-bit queue fields of an S word; each names a queue of s, or a channel from 24 on. -/
def sFields (w : Nat) : List Nat :=
  let op := opOf w
  if op = 0 then
    let sub := bitsN w 3 5
    (if [6, 7, 8, 10, 12, 13, 15].contains sub then [20] else []) ++
      (if [11, 12, 13, 14, 16].contains sub then [15] else []) ++ (if sub = 12 ∨ sub = 13 then [10] else [])
  else if op = 1 ∨ op = 2 ∨ op = 0x18 ∨ op = 0x1C ∨ op = 0x1D then [20, 15, 10]
  else if op = 3 then [15, 10]
  else if op = 4 then []
  else if op ≤ 0xD then [20, 15]
  else if op ≤ 0x11 then [20]
  else if op ≤ 0x15 then []
  else if op ≤ 0x17 then [20]
  else if op ≤ 0x1B then [20, 15]
  else if op = 0x1E then []
  else if op = 0x1F then
    match bitsN w 0 4 with
    | 0 => [20, 15]
    | 1 => [20, 15]
    | 2 => [15, 10]
    | 3 => [20, 10]
    | 4 => [10]
    | 5 => [10]
    | 8 => [20]
    | _ => []
  else if op = 0x20 then [19]
  else if op = 0x22 then [12]
  else if 0x23 ≤ op ∧ op ≤ 0x26 then [20, 15]
  else []

/-- The queue fields of an AOP word (04 R95): place and file. -/
def aopFields (st w : Nat) : List (Nat × QFile) :=
  match bitsN w 12 4 with
  | 0 => [(21, .a st), (17, .a st), (0, .a st)]
  | 1 => [(21, .a st), (17, .a st)]
  | 2 => [(21, .a st), (17, .a st)]
  | 3 => [(21, .a st), (17, .a st)]
  | 4 => [(21, .a st), (17, .c)]
  | 5 => [(21, .c), (17, .a st)]
  | _ => []

/-- The queue fields of a V word: place and file, 4 bits each. -/
def vFields (w : Nat) : List (Nat × QFile) :=
  let op := opOf w
  let f := bitsN w 0 5
  let d := (21, QFile.v)
  let a := (17, QFile.v)
  let b := (13, QFile.v)
  if op = 0 then (if f = 5 then [(21, .a 1)] else [])
  else if op = 1 ∨ (3 ≤ op ∧ op ≤ 6) then [d, a, b]
  else if op = 2 then [a, b]
  else if op = 7 then
    (match f with
      | 0 => [d, a, b]
      | 6 => [d, a, b]
      | 3 => [d, a]
      | 4 => [d, a]
      | _ => [d, a, (13, .a 1)])
  else if op = 8 then
    (match f with
      | 0 => [d, a, (13, .c)]
      | 1 => [(21, .c), a, (13, .a 1)]
      | _ => [d, (17, .a 1)])
  else if op = 9 then
    (match f with
      | 5 => [(21, .a 1)]
      | 8 => [a]
      | 9 => [d]
      | _ => [])
  else if op ≤ 0xE then [d, (17, .a 1)]
  else if op = 0xF then [(21, if bitsN w 6 1 = 1 then .a 1 else .v), a]
  else if op = 0x10 then [d]
  else if op = 0x11 then aopFields 1 w
  else if op ≤ 0x16 then [d, a]
  else if op = 0x18 then [(12, .v)]
  else if op ≤ 0x1D then [(12, .a 1)]
  else if op ≤ 0x20 then [(12, .v)]
  else if op = 0x24 then [(12, .c)]
  else []

/-- The queue fields of an M or X word. -/
def mxFields (st w : Nat) : List (Nat × QFile) :=
  let op := opOf w
  if op = 0 then (if st = 3 ∧ bitsN w 0 6 = 6 then [(21, .c)] else [])
  else if op = 0x11 then aopFields st w
  else [(21, .a st), (17, .a st), (13, .a st)]

/-- Where the guard of a word stands: G, or GM, or the G of SEL, BP and BNP (R407). -/
def guardPlace (st w : Nat) : Option Nat :=
  let op := opOf w
  if st = 0 then
    if op = 1 ∨ op = 2 ∨ op = 3 ∨ op = 4 ∨ op = 0x18 ∨ op = 0x1C ∨ op = 0x1D ∨ op = 0x1F then some 4
    else if 5 ≤ op ∧ op ≤ 0xD then some 10
    else if 0xE ≤ op ∧ op ≤ 0x11 then some 16
    else if 0x12 ≤ op ∧ op ≤ 0x15 then some 21
    else if 0x19 ≤ op ∧ op ≤ 0x1B then some 0
    else none
  else if op = 0x11 then none
  else if st = 1 then
    if op ≤ 9 ∨ 0x18 ≤ op then some 7
    else if op ≤ 0xE then some 11
    else if op ≤ 0x10 then some 10
    else some 12
  else if op = 0 then none
  else some 6

/-- The stage predicate that guards a word. -/
def stageOf (st w : Nat) : Option Nat :=
  match guardPlace st w with
  | none => none
  | some lo => if 8 ≤ bitsN w lo 4 then some (bitsN w lo 4 - 8) else none

/-- A word has a second word: AMO, CAS, MKAT (R86, R93). -/
def twoWords (st w : Nat) : Bool :=
  (st == 0 && (opOf w == 0x1C || opOf w == 0x1D)) || (st == 2 && opOf w == 8)

/-- Marks the second words: each word with the first word of its instruction, where it is a second word. -/
def markSeconds (st : Nat) : Option Nat → List Nat → List (Nat × Option Nat)
  | _, [] => []
  | some f, w :: r => (w, some f) :: markSeconds st none r
  | none, w :: r => (w, none) :: markSeconds st (if twoWords st w then some w else none) r

/-- The words of a stream with these marks. -/
def Side.marked (x : Side) (st : Nat) : List (Nat × Option Nat) := markSeconds st none (x.words st)

/-- The body words of a stream. -/
def Side.body (x : Side) (st : Nat) : List (Nat × Option Nat) :=
  ((x.marked st).drop (hdrLpos x.header st + 1)).take (hdrII x.header)

/-! ## The sites of a pair (R405, R407) -/

/-- Inserts a site by its word index. -/
def insertSite (x : Site) : List Site → List Site
  | [] => [x]
  | y :: r => if x.word ≤ y.word then x :: y :: r else y :: insertSite x r

/-- The sites of a header on a region, of one kind, in ascending order. -/
def sitesOn (h region : Nat) (load : Bool) : List Site :=
  (((hdrAllSites h).map (·.1)).filter fun x => x.region == region && x.load == load).foldr insertSite []

/-- A site pair: the word indexes in V and the stages. -/
structure SitePair where
  store  : Nat
  load   : Nat
  stageS : Nat
  stageL : Nat
  deriving DecidableEq, Repr, Inhabited

/-- The V word of a site, if it lies in the body. -/
def Side.siteWord (x : Side) (i : Nat) : Option Nat :=
  if hdrLpos x.header 1 < i ∧ i ≤ hdrLpos x.header 1 + hdrII x.header then (x.words 1)[i]? else none

/-- The k-th store with the k-th load; nothing where the site test fails. -/
def sitePair (p c : Side) (a b : Site) : Option SitePair :=
  match p.siteWord a.word, c.siteWord b.word with
  | some x, some y =>
    if a.bytes ≠ 256 ∨ b.bytes ≠ 256 ∨ a.stride ≠ b.stride ∨ opOf x ≠ 0xB ∨ opOf y ≠ 0xA ∨ bitsN x 9 2 ≠ bitsN y 9 2 then none
    else match stageOf 1 x, stageOf 1 y with
      | some i, some j => some { store := a.word, load := b.word, stageS := i, stageL := j }
      | _, _ => none
  | _, _ => none

/-- All site pairs. -/
def sitePairs (p c : Side) : List Site → List Site → Option (List SitePair)
  | [], [] => some []
  | a :: r, b :: q =>
    match sitePair p c a b, sitePairs p c r q with
    | some x, some l => some (x :: l)
    | _, _ => none
  | _, _ => none

/-- The stage shift that a pair asks for. -/
def SitePair.shift (x : SitePair) : Nat := x.stageS - x.stageL

/-- The common stage shift of all pairs; nothing where they differ. -/
def shiftOf : List SitePair → Option Nat
  | [] => some 0
  | x :: r => if r.all fun y => y.shift == x.shift then some x.shift else none

/-! ## The checks (R410) -/

/-- What a candidate pair is fused with. -/
structure LinkPlan where
  p     : Side
  c     : Side
  pairs : List SitePair
  delta : Nat
  deriving DecidableEq, Repr, Inhabited

/-- The fused initiation interval and stage count (R407). -/
def LinkPlan.ii (l : LinkPlan) : Nat := hdrII l.p.header + hdrII l.c.header
def LinkPlan.stages (l : LinkPlan) : Nat := max (hdrStages l.p.header) (hdrStages l.c.header + l.delta)

/-- A pair of nodes that stands for splicing (R404), with what the sorting office holds of each. -/
structure Candidate where
  part : Nat
  p    : NodeRef
  c    : NodeRef
  pr   : BitVec 1024
  cr   : BitVec 1024
  pg   : List Region
  cg   : List Region
  pp   : List Word
  cp   : List Word
  deriving DecidableEq, Repr, Inhabited

/-- The region W of a pair and C's region on it: the region test of R405 but for other nodes. -/
def Candidate.region (k : Candidate) : Option (Region × Region) :=
  match k.pg.filter (·.transient) with
  | [w] =>
    match k.cg.filter fun g => g.reads && g.space == w.space && g.base == w.base && g.len == w.len with
    | [] => none
    | g :: _ => if (k.cg.filter fun x => x.overlaps w).length = 1 then some (w, g) else none
  | _ => none

/-- Another live node reads a byte of W. -/
def State.othersRead (s : State) (k : Candidate) (w : Region) : Bool :=
  (s.nodesOf k.part).any fun (n, x) => n != k.p && n != k.c && x.live && x.regions.any fun g => g.reads && g.overlaps w

/-- Refuses with a cause. -/
def refuseIf (b : Bool) (n : Nat) : Except Nat Unit := if b then .error n else .ok ()

/-- What a check gives, or a refusal. -/
def orRefuse {α : Type} (n : Nat) : Option α → Except Nat α
  | some x => .ok x
  | none => .error n

/-- The queues of both images in a file. -/
def bothUse (p c : KImage) (f : QFile) : Nat := (p.used f).length + (c.used f).length

/-- A stage predicate of C's body would pass ps7. -/
def Side.stageOver (x : Side) (delta : Nat) : Bool :=
  (List.range 4).any fun st => (x.body st).any fun w => w.2.isNone && (stageOf st w.1).any fun k => decide (8 ≤ k + delta)

/-- A MOVX word in the S body. -/
def Side.movxBody (x : Side) : Bool :=
  (x.body 0).any fun w => w.2.isNone && opOf w.1 == 0x1F && decide (bitsN w.1 0 4 < 3)

/-- Parameter i differs between the two nodes: in the values that they run with, or in their records, which 24 R438 asks for even of an
entry node (DEDUCED, log 99). -/
def Candidate.paramDiffers (k : Candidate) (i : Nat) : Bool :=
  k.pp.getD i 0 != k.cp.getD i 0 || recParam k.pr i != recParam k.cr i

/-- Cause 17: shared state of the two images. -/
def Candidate.stateClash (k : Candidate) (p c : Side) : Bool :=
  ((List.range 8).any fun i => bitsN (hdrPmask p.header) i 1 == 1 && bitsN (hdrPmask c.header) i 1 == 1 && k.paramDiffers i) ||
  (hdrUses.any fun u => (List.range u.2).any fun i => bitsN p.header (u.1 + i) 1 == 1 && bitsN c.header (u.1 + i) 1 == 1) ||
  (hdrEng p.header && hdrEng c.header) ||
  (k.pg.any fun a => decide (1 ≤ a.space) && decide (a.space ≤ 3) && k.cg.any fun b => a.overlaps b)

/-- The two images declare different modes, where both can be read. -/
def State.modesDiffer (s : State) (k : Candidate) : Bool :=
  match s.fetchImage k.part (recImage k.pr), s.fetchImage k.part (recImage k.cr) with
  | .ok a, .ok b => a.pair != b.pair
  | _, _ => false

/-- The checks of a candidate in ascending cause number, but for the splice cache. -/
def State.linkCheck (s : State) (k : Candidate) : Except Nat LinkPlan := do
  refuseIf ((s.part k.part).linkmode == 0#2 || (s.part k.part).linkmode == 3#2) 1
  refuseIf (Table.get s.hub.debug 0 k.part == 2#2) 2
  refuseIf (recDual k.pr || recDual k.cr) 3
  refuseIf (recTeam k.pr != recTeam k.cr || s.modesDiffer k) 4
  let p ← orRefuse 5 (s.linkSide k.part k.pr k.pg k.pp false)
  let c ← orRefuse 5 (s.linkSide k.part k.cr k.cg k.cp true)
  refuseIf (hdrTripPc p.header == 0xFFFFFFFF || hdrTripPc c.header == 0xFFFFFFFF || hdrTrip p.header != hdrTrip c.header) 6
  let w ← orRefuse 7 k.region
  refuseIf (s.othersRead k w.1) 7
  let pairs ← orRefuse 8 (sitePairs p c (sitesOn p.header w.1.id false) (sitesOn c.header w.2.id true))
  let delta ← orRefuse 8 (shiftOf pairs)
  let plan : LinkPlan := { p := p, c := c, pairs := pairs, delta := delta }
  refuseIf (decide (23 < bothUse p.image c.image .s) || decide (8 < bothUse p.image c.image .c)) 9
  refuseIf (decide (15 < bothUse p.image c.image .v + pairs.length)) 10
  refuseIf ([1, 2, 3].any fun st => decide (15 < bothUse p.image c.image (.a st))) 11
  refuseIf (decide (8 < plan.stages) || c.stageOver delta) 12
  refuseIf (decide (16 < plan.ii)) 13
  refuseIf (pairs.any fun x => decide (1 + x.stageS < x.stageL + delta)) 14
  refuseIf (hdrMovx c.header || p.movxBody) 15
  refuseIf (hdrCode p.header || hdrCode c.header) 16
  refuseIf (k.stateClash p c) 17
  refuseIf ((s.derivedFor k.part k.c k.cg).any fun n => n != k.p) 18
  pure plan

/-! ## The fused kernel (R406 to R408, R414) -/

/-- The lengths that place the words of one stream: LOOPM positions, initiation intervals, P's halt word. -/
structure Layout where
  lp : Nat
  lc : Nat
  ip : Nat
  ic : Nat
  hp : Nat
  deriving DecidableEq, Repr, Inhabited

def LinkPlan.layout (l : LinkPlan) (st : Nat) : Layout :=
  { lp := hdrLpos l.p.header st, lc := hdrLpos l.c.header st, ip := hdrII l.p.header, ic := hdrII l.c.header,
    hp := (l.p.words st).length - 1 }

/-- The new place of P's word t; its halt word stands for the first word of C's epilogue. -/
def Layout.posP (y : Layout) (t : Nat) : Nat :=
  if t < y.lp then t else if t ≤ y.lp + y.ip then t + y.lc else t + y.lc + y.ic

/-- The new place of C's word t; its LOOPM bundle is P's. -/
def Layout.posC (y : Layout) (t : Nat) : Nat :=
  if t < y.lc then y.lp + t
  else if t = y.lc then y.lp + y.lc
  else if t ≤ y.lc + y.ic then y.lp + y.ip + t
  else y.hp + t - 1

/-- The order of the fused stream: whether the word is C's, and its old place. -/
def Layout.order (y : Layout) (lenC : Nat) : List (Bool × Nat) :=
  let run (c : Bool) (lo n : Nat) : List (Bool × Nat) := (List.range n).map fun i => (c, lo + i)
  run false 0 y.lp ++ run true 0 y.lc ++ run false y.lp (1 + y.ip) ++ run true (y.lc + 1) y.ic ++
    run false (y.lp + 1 + y.ip) (y.hp - y.lp - 1 - y.ip) ++ run true (y.lc + 1 + y.ic) (lenC - y.lc - 1 - y.ic)

/-- The signed word offset of a branch or loop word: its place and width. -/
def offsetField (w : Nat) : Option Nat :=
  let op := opOf w
  if 0x12 ≤ op ∧ op ≤ 0x15 then some 21
  else if op = 0x16 ∨ op = 0x17 then some 19
  else if op = 0x20 then some 18
  else if op = 0x21 then some 14
  else none

/-- The word at old place t with its offset for the new places. -/
def reoffset (pos : Nat → Nat) (t w : Nat) : Nat :=
  match offsetField w with
  | none => w
  | some n =>
    let target := ((t : Int) + signed n (bitsN w 0 n)).toNat
    putBits w 0 n (wrapN n ((pos target : Int) - (pos t : Int)))

/-- Rewrites one field. -/
def putQ (f : Nat → Nat) (lo n w : Nat) : Nat := putBits w lo n (f (bitsN w lo n))

/-- The word with C's queues renumbered (R406). -/
def renumberWord (num : QFile → Nat → Nat) (st w : Nat) (second : Option Nat) : Nat :=
  let sreg (n : Nat) : Nat := if n = 0 then 0 else if n < 24 then num .s n else 24 + num .c (n - 24)
  match second with
  | some f => if st = 0 ∧ opOf f = 0x1D then putQ sreg 20 5 w else w
  | none =>
    if st = 0 then (sFields w).foldl (fun w lo => putQ sreg lo 5 w) w
    else (if st = 1 then vFields w else mxFields st w).foldl (fun w p =>
      putQ (fun n => if n = 0 ∧ p.2 ≠ .c then 0 else num p.2 n) p.1 4 w) w

/-- The word with its stage predicate shifted (R407). -/
def shiftStage (delta st w : Nat) : Nat :=
  match guardPlace st w with
  | none => w
  | some lo => if 8 ≤ bitsN w lo 4 then putBits w lo 4 (bitsN w lo 4 + delta) else w

/-- A VSEL word: D, A, B, KB; J, GM and ET as the site word has them (R408). -/
def vselWord (site d a b kb : Nat) : Nat :=
  bitsN site 31 1 * 2 ^ 31 + 7 * 2 ^ 25 + d * 2 ^ 21 + a * 2 ^ 17 + b * 2 ^ 13 + 2 ^ 12 + kb * 2 ^ 11 +
    bitsN site 11 4 * 2 ^ 7 + bitsN site 9 2 * 2 ^ 5 + 6

/-- A word of P's image in the fused stream. -/
def LinkPlan.wordP (l : LinkPlan) (st t w : Nat) (second : Option Nat) : Nat :=
  let y := l.layout st
  let v := if st = 0 ∧ second.isNone then reoffset y.posP t w else w
  if st = 0 ∧ t = y.lp then
    putBits (putBits (putBits v 21 4 (l.ii - 1)) 18 3 (l.stages - 1)) 17 1
      (if hdrRb l.p.header && hdrRb l.c.header && hdrStages l.p.header == hdrStages l.c.header + l.delta then 1 else 0)
  else v

/-- A word of C's image in the fused stream. -/
def LinkPlan.wordC (l : LinkPlan) (st t w : Nat) (second : Option Nat) : Nat :=
  let y := l.layout st
  let a := renumberWord (renumber l.p.image l.c.image) st w second
  let b := if second.isNone && decide (y.lc < t) && decide (t ≤ y.lc + y.ic) then shiftStage l.delta st a else a
  let c := if st = 0 ∧ second.isNone then reoffset y.posC t b else b
  if st = 0 ∧ t = hdrTripPc l.c.header then putBits c 20 5 0 else c

/-- The entry of the splice map for an ordinary word (R414). -/
def mapEntry (isC : Bool) (st t : Nat) : Nat := isC.toNat * 2 ^ 62 + st * 2 ^ 60 + t * 4

/-- What the entry of a forward word holds besides (R414). -/
def mapForward (site : Nat) : Nat :=
  2 ^ 63 + bitsN site 9 2 * 2 ^ 58 + bitsN site 7 2 * 2 ^ 56 + bitsN site 0 7 * 2 ^ 49 + bitsN site 17 4 * 2 ^ 45 +
    bitsN site 16 1 * 2 ^ 44

/-- The site pair that a V word belongs to, with its number. -/
def LinkPlan.siteOf (l : LinkPlan) (isC : Bool) (t : Nat) : Option Nat :=
  (List.range l.pairs.length).find? fun k => l.pairs[k]?.any fun x => t == if isC then x.load else x.store

/-- One word of the fused kernel with its entry of the splice map. -/
def LinkPlan.word (l : LinkPlan) (st : Nat) (isC : Bool) (t : Nat) : Nat × Nat :=
  let m := (((if isC then l.c else l.p).marked st)[t]?).getD (0, none)
  let w := if isC then l.wordC st t m.1 m.2 else l.wordP st t m.1 m.2
  match (if st = 1 then l.siteOf isC t else none) with
  | none => (w, mapEntry isC st t)
  | some k =>
    let f := forwardQueue l.p.image l.c.image k
    let d := bitsN w 21 4
    (if isC then vselWord w d f f 0 else vselWord w f d d (bitsN w 15 1), mapEntry isC st t + mapForward w)

/-- One stream of the fused kernel. -/
def LinkPlan.stream (l : LinkPlan) (st : Nat) : List (Nat × Nat) :=
  ((l.layout st).order (l.c.words st).length).map fun p => l.word st p.1 p.2

/-! ## The splice cache (R413) -/

/-- The bytes of an entry: 4 of code and 8 of the splice map for every word. -/
def Fused.bytes (k : Fused) : Nat := 12 * (k.code.map List.length).sum

/-- A running or linked pair uses an entry. -/
def State.fusedInUse (s : State) (part n : Nat) : Bool :=
  (s.nodesOf part).any fun (_, x) => x.live && x.splice == some n

/-- The lowest place with room for n bytes beside the entries. -/
def cacheGap (es : List Fused) (n : Nat) : Option Nat :=
  let starts := insertSorted 0 ((es.map fun k => k.at_ + k.bytes).foldr insertSorted [])
  starts.find? fun a => decide (a + n ≤ spliceSize) && es.all fun k => decide (a + n ≤ k.at_) || decide (k.at_ + k.bytes ≤ a)

/-- The entry that goes first: the least recently placed of those that no pair uses. -/
def State.victim (s : State) : Option Nat :=
  (s.hub.cache.filter fun p => !s.fusedInUse p.2.part p.1).foldl (fun m p =>
    match m with
    | none => some p
    | some q => if p.2.used < q.2.used then some p else some q) none |>.map (·.1)

/-- Makes room for n bytes: the state after the evictions, and the place where the bytes fit. -/
def State.cacheRoom (s : State) (n : Nat) : Nat → State × Option Nat
  | 0 => (s, none)
  | k + 1 =>
    match cacheGap (s.hub.cache.map (·.2)) n with
    | some a => (s, some a)
    | none =>
      match s.victim with
      | none => (s, none)
      | some v => (s.modHub fun h => { h with cache := Table.erase h.cache v }).cacheRoom n k

/-- A fused kernel of a plan, not yet placed in the cache. -/
def LinkPlan.fuse (l : LinkPlan) (part : Nat) (mode : BitVec 2) : Fused :=
  let ss := (List.range 4).map l.stream
  { p := l.p.image.va, c := l.c.image.va, part := part, mode := mode, at_ := 0,
    code := ss.map fun x => x.map fun w => BitVec.ofNat 32 w.1, map := ss.map fun x => x.map fun w => BitVec.ofNat 64 w.2,
    pair := l.p.image.pair, pmask := hdrPmask l.p.header, tmask := hdrTmask l.p.header, used := 0 }

/-- The entry with a key. -/
def State.cached? (s : State) (part : Nat) (p c : Word) (mode : BitVec 2) : Option Nat :=
  (s.hub.cache.find? fun x => x.2.part == part && x.2.p == p && x.2.c == c && x.2.mode == mode).map (·.1)

/-- Builds the fused kernel of a plan, or finds it; nothing where it does not fit, and what was evicted for it stays evicted. -/
def State.fusedFor (s : State) (k : Candidate) (l : LinkPlan) : State × Option Nat :=
  let mode := (s.part k.part).linkmode
  match s.cached? k.part l.p.image.va l.c.image.va mode with
  | some n => (s, some n)
  | none =>
    let f := l.fuse k.part mode
    match s.cacheRoom f.bytes (s.hub.cache.length + 1) with
    | (t, none) => (t, none)
    | (t, some a) =>
      (t.modHub fun h => { h with cache := Table.set h.cache h.nextFused { f with at_ := a }, nextFused := h.nextFused + 1 },
        some t.hub.nextFused)

/-- Counts a refusal (R410). -/
def State.countRefusal (s : State) (part n : Nat) : State :=
  s.modPart part fun p => { p with splref := Table.modify p.splref 0 n fun x => satAdd32 x 1 }

/-- The linker considers a pair: the entry of the splice cache, or a refusal, which is counted once (R404, R410). -/
def State.consider (s : State) (k : Candidate) : State × Option Nat :=
  match s.linkCheck k with
  | .error n => (s.countRefusal k.part n, none)
  | .ok l => match s.fusedFor k l with
    | (t, none) => (t.countRefusal k.part 19, none)
    | (t, some e) => (t, some e)

/-- The address in the splice window of word 0 of a stream. -/
def Fused.entry (k : Fused) (st : Nat) : Word :=
  BitVec.ofNat 64 (spliceBase + k.at_ + 4 * ((k.code.take st).map List.length).sum)

end Sys2Proof.Machine
end

