-- ==== Sys2Proof/Machine/Office.lean ====
section
/-!
DEFINITION. The sorting office: launch queues and packets, submission, edges, nodes that become ready, and the end of a node
with its completion record (20 R368 to R374, 21 R387 to R398, 22 R404, R416).
-/
namespace Sys2Proof.Machine

/-! ## Submission (R387, R388, R399) -/

/-- The cells of a partition in service. -/
def State.cellsInService (s : State) (part : Nat) : Nat :=
  ((List.range 256).filter fun n => (s.cell n).part == some part && (s.cell n).state == 0#2).length

/-- A node whose explicit count has reached 0: its record and envelope are read, and its derived edges are added. A record that
cannot be used fails it. -/
def State.submit (s : State) (n : NodeRef) : State :=
  match s.launch n.part n.launch with
  | none => s
  | some l =>
    let x := Table.get l.table NodeInfo.init n.node
    if l.ended ∨ !x.due then s
    else
      let order := (s.part n.part).submits
      let s := s.findRecord l n.part n.node
      let s := s.modPart n.part fun p => { p with submits := p.submits + 1 }
      match s.fetchRecord l n.part n.node with
      | .error (st, c, d) => (s.modNode n fun x => { x with status := .waiting, order := order }).nodeFails n st c d
      | .ok (r, gs) =>
        let waits := s.derivedFor n.part n gs
        let t := s.modNode n fun x => { x with status := .waiting, order := order, record := r, regions := gs, derived := waits }
        if recKind r = kKernel ∧ s.cellsInService n.part < 2 ^ recTeam r then t.nodeFails n badrec 0 0 else t

/-- What an edge hands on of its predecessor (R389). -/
def NodeInfo.applied (x : NodeInfo) (node : Nat) : Applied :=
  { node := node, regions := x.regions, cells := x.teams.head?.map fun t => t.map (·.cell) }

/-- One explicit edge is applied or released: the count falls by 1, and at 0 the node is to be submitted in this hub cycle (R387,
R388). -/
def State.applyEdge (s : State) (src : NodeRef) (target : Nat) : State :=
  let a := (s.nodeInfo src).applied src.node
  s.modNode { src with node := target } fun x => { x with
    count := x.count - 1, after := x.after ++ [a], status := if x.count = 1 ∧ x.status = .idle then .due else x.status }

/-- The node's launch is pre-empted at node boundaries: it takes no new node (02 R46). -/
def State.barred (s : State) (n : NodeRef) : Bool := (s.part n.part).preempted.any fun k => decide (n.launch < k)

/-! ## Nodes that leave (R394, R397) -/

/-- The derived edges that start at a node are removed. -/
def State.removeDerived (s : State) (n : NodeRef) : State :=
  s.modPart n.part fun p => { p with launches := p.launches.map fun (k, l) =>
    (k, { l with table := l.table.map fun (i, x) => (i, { x with derived := x.derived.filter fun d => d != n }) }) }

/-- A context that frees is kept for the reservation of its partition (R400). -/
def State.keepFreed (s : State) (part : Nat) (cs : List CtxRef) : State :=
  s.modPart part fun p => if p.reserved.isSome then { p with keptFor := p.keptFor ++ cs } else p

/-- The contexts of a node's teams. -/
def NodeInfo.contexts (x : NodeInfo) : List CtxRef := x.teams.flatten

/-- The contexts on which a node runs now, parked ones among them. -/
def State.running (s : State) (n : NodeRef) : List CtxRef := (s.nodeInfo n).contexts.filter fun c => (s.member n c).runs n

/-- The contexts of a node run no node any more. -/
def State.freeTeams (s : State) (n : NodeRef) : State :=
  let cs := s.running n
  (cs.foldl (fun s c => s.modMember n c fun x => { x with running := none }) s).keepFreed n.part cs

/-- A node leaves: it is not live any more, and nothing waits for it. -/
def State.retireNode (s : State) (n : NodeRef) : State :=
  let s := (s.freeTeams n).modNode n fun x => { x with
    status := .ended, derived := [], splice := none, partner := none, consumer := false }
  let s := s.removeDerived n
  s.modHub fun h => { h with fails := h.fails.filter fun p => p.1 != n, early := h.early.filter fun e => e.node != n }

/-- END and a failure drop every node of the launch that is not running on executors (R394, R397), but for an END node that is to be
decided. -/
def State.dropRest (s : State) (part launch : Nat) (keep : Option Nat) : State :=
  match s.launch part launch with
  | none => s
  | some l =>
    let s := s.modLaunch part launch fun l => { l with ended := true }
    (l.table.filter fun p => keep != some p.1).foldl (fun s p =>
      let n : NodeRef := { part := part, launch := launch, node := p.1 }
      match p.2.status with
      | .running => if recKind p.2.record = kLoop then s.retireNode n else s
      | .ended => s
      | _ => s.retireNode n) s

/-! ## Ready nodes (R388, R404, 20 R366) -/

/-- The nodes of a partition. -/
def State.partKeys (s : State) : List Nat := s.hub.parts.map (·.1)

/-- The nodes in the ready pool: a consumer of a spliced pair goes with its producer. -/
def State.poolSize (s : State) : Nat :=
  (s.partKeys.map fun p => ((s.nodesOf p).filter fun q => q.2.status == .ready && !q.2.consumer).length).sum

/-- The candidate pair that a node which becomes ready heads (R404). -/
def State.candidate (s : State) (n : NodeRef) (x : NodeInfo) : Option Candidate :=
  match s.launch n.part n.launch with
  | none => none
  | some l =>
    match ((List.range 8).map (recSucc x.record)).filter (· != noSucc) with
    | [c] =>
      let y := Table.get l.table NodeInfo.init c
      if !recSpliceP x.record ∨ x.apart ∨ y.apart ∨ y.status ≠ .idle ∨ c = n.node ∨ l.ended ∨ (s.failureOf n).isSome then none
      else match s.fetchRecord l n.part c with
        | .error _ => none
        | .ok (r, gs) =>
          if !recSpliceC r ∨ recPred r ≠ 1 then none
          else some { part := n.part, p := n, c := { n with node := c }, pr := x.record, cr := r, pg := x.regions, cg := gs,
                      pp := l.params n.node x, cp := l.params c { y with record := r } }
    | _ => none

/-- A spliced pair, which `SPLDONE` counts: C is submitted with P, and both go by the entry of the splice cache (R404, R410, 24 R439). -/
def State.join (s : State) (k : Candidate) (e : Nat) : State :=
  let order := (s.part k.part).submits
  let s := s.modPart k.part fun p => { p with submits := p.submits + 1, spldone := satAdd32 p.spldone 1 }
  let s := s.modNode k.p fun x => { x with splice := some e, partner := some k.c.node, consumer := false }
  s.modNode k.c fun x => { x with
    status := .ready, count := 0, order := order, readyAt := s.hub.time, record := k.cr, regions := k.cg, derived := []
    splice := some e, partner := some k.p.node, consumer := true }

/-- The linker's reads of an image, its splice header and its code find the errors of their units (14 R271). -/
def State.findImage (s : State) (part : Nat) (r : BitVec 1024) : State :=
  let t := s.hubFind part (recImage r) 136
  match t.fetchImage part (recImage r) with
  | .error _ => t
  | .ok i =>
    if i.bad ∨ i.splh = 0 then t
    else
      let at_ := i.va + BitVec.ofNat 64 (8 + i.splh)
      let t := t.hubFind part at_ 32
      let t := match t.officeRead part at_ 32 with
        | .ok h => t.hubFind part at_ (32 + 16 * hdrSites h)
        | .error _ => t
      (List.range 4).foldl (fun t st => t.hubFind part (BitVec.ofNat 64 (i.base st)) (4 * i.len st)) t

/-- A candidate pair is offered to the linker, whose reads find the errors of their units. -/
def State.offer (s : State) (n : NodeRef) : State :=
  let s := match s.launch n.part n.launch with
    | some l => if recSpliceP (s.nodeInfo n).record then s.findRecord l n.part (recSucc (s.nodeInfo n).record 0) else s
    | none => s
  match s.candidate n (s.nodeInfo n) with
  | none => s
  | some k =>
    match ((s.findImage k.part k.pr).findImage k.part k.cr).consider k with
    | (t, some e) => t.join k e
    | (t, none) => t

/-- A node becomes ready: an END node ends its launch's submissions at once and drops the nodes that do not run (R394); another one may
head a candidate pair. -/
def State.ready (s : State) (n : NodeRef) : State :=
  let t := s.modNode n fun x => { x with status := .ready, readyAt := s.hub.time, raised := 0 }
  if recKind (t.nodeInfo n).record = kEnd ∧ (t.failureOf n).isNone then t.dropRest n.part n.launch (some n.node) else t.offer n

/-- Inserts a waiting node by its order of submission. -/
def insertWaiting (p : NodeRef × NodeInfo) : List (NodeRef × NodeInfo) → List (NodeRef × NodeInfo)
  | [] => [p]
  | q :: r => if p.2.order ≤ q.2.order then p :: q :: r else q :: insertWaiting p r

/-- The nodes that wait for nothing but a place in the ready pool, in order of submission. -/
def State.unblocked (s : State) (part : Nat) : List NodeRef :=
  (((s.nodesOf part).filter fun p => p.2.status == .waiting && p.2.derived.isEmpty).foldr insertWaiting []).map (·.1)

/-- Every node that may becomes ready, while the pool has room. -/
def State.wake (s : State) : State :=
  s.partKeys.foldl (fun s part => (s.unblocked part).foldl (fun s n =>
    if s.poolSize < 8192 ∧ (s.nodeInfo n).status = .waiting then s.ready n else s) s) s

/-! ## The submissions of a hub cycle (R388) -/

/-- Inserts a node by the age of its launch and its index. -/
def insertDue (n : NodeRef) : List NodeRef → List NodeRef
  | [] => [n]
  | m :: r => if [n.launch, n.node] ≤ [m.launch, m.node] then n :: m :: r else m :: insertDue n r

/-- The nodes of a partition whose count has reached 0 in this hub cycle: older launches first, then by index. -/
def State.dueNodes (s : State) (part : Nat) : List NodeRef :=
  (((s.nodesOf part).filter fun p => p.2.due).map (·.1)).foldr insertDue []

/-- A submission is due in this hub cycle. -/
def State.submitsDue (s : State) : Bool := s.partKeys.any fun p => !(s.dueNodes p).isEmpty

/-- The nodes whose counts have reached 0 are submitted, and those that wait for nothing become ready. The submissions of the hub cycle
are made with it: what comes after in the same cycle is decided by control nodes alone, and goes behind (log 98). -/
def State.submitAll (s : State) : State :=
  ((s.partKeys.foldl (fun s p => (s.dueNodes p).foldl (fun s n => s.submit n) s) s).modHub fun h => { h with shut := true }).wake

/-! ## The end of a node (R394, R395, R397) -/

/-- A launch has no node that is waiting, ready or running. -/
def State.launchOver (s : State) (part launch : Nat) : Bool :=
  match s.launch part launch with
  | none => false
  | some l => l.table.all fun p => !p.2.live && !p.2.due

/-- A write of the sorting office to an aligned dword, and whether it is made: it is not where it meets a translation fault, a peer that
refuses it, or an uncorrectable unit (R374). -/
def State.officeWrite (s : State) (part : Nat) (va v : Word) : State × Bool :=
  match s.hubPlaces part .write (piecesOf va.toNat 8), s.hubWrite part va (numBytes v.toNat 8) with
  | .ok l, .ok t =>
    if l.any fun p => s.upsets.any fun u => u.double && p.1.memRef.any fun m => liesIn u m p.2.1 p.2.2 then (s, false) else (t, true)
  | _, _ => (s.noteHubMiss part va, false)

/-- A launch completes: SH3 goes to SH2, LIVE falls, and the host is interrupted where it must be (20 R374, R395). -/
def State.finishLaunch (s : State) (part launch : Nat) : State :=
  match s.launch part launch with
  | none => s
  | some l =>
    let (t, made) := s.officeWrite part l.done l.value
    let s := if made then t else t.errorRec (.completionWrite part l.done)
    let s := s.modPart part fun p => { p with
      launches := Table.erase p.launches launch
      queues := Table.modify p.queues LaunchQueue.init l.queue fun q => { q with live := q.live - 1 } }
    if l.irq || l.failed || !made then s.interrupt (64 * part + l.queue) else s

/-- A launch that is over completes. -/
def State.finishIfOver (s : State) (part launch : Nat) : State :=
  if s.launchOver part launch then s.finishLaunch part launch else s

/-- The completion record of a node (R396). -/
def recordWord (l : Launch) (node status cause : Nat) (detail : Word) (last spl : Bool) : Nat :=
  l.number % 2 ^ 26 + 2 ^ 26 * l.queue + 2 ^ 34 * spl.toNat + 2 ^ 35 * last.toNat + 2 ^ 36 * status + 2 ^ 40 * cause +
    2 ^ 48 * node + 2 ^ 64 * detail.toNat

/-- Appends a record to the completion ring (R395, 27 R475): one that is not written overwrites none. -/
def State.appendRecord (s : State) (part : Nat) (v : Nat) : State :=
  let p := s.part part
  let a := p.crbase.toNat + 16 * (p.crwr.toNat % p.crsize)
  let written := decide (p.crsize ≠ 0 ∧ a + 16 ≤ hbmSize)
  let s1 := if written then { s with hbm := s.hbm.store a (cleanBytes (toBytes v 16)) } else s
  s1.modPart part fun p => { p with
    crwr := p.crwr + 1
    crovw := if written ∧ p.crsize ≤ (p.crwr - p.crrd).toNat then satAdd32 p.crovw 1 else p.crovw }

/-- How a node ends: status, cause, detail, whether fused code failed, the slots it releases, whether it fails, whether it is
an END node. -/
structure Ending where
  status : Nat
  cause  : Nat
  detail : Word
  spl    : Bool
  slots  : List Nat
  failed : Bool
  isEnd  : Bool
  deriving DecidableEq, Repr, Inhabited

/-- The releases by NLAUNCH that have not reached the hub yet count as applied when the node completes. -/
def State.earlySlots (s : State) (n : NodeRef) : List Nat := (s.hub.early.filter fun e => e.node == n).map (·.slot)

/-- The nodes that the end of a node applies an edge to. -/
def State.endTargets (s : State) (n : NodeRef) (e : Ending) : List Nat :=
  let x := s.nodeInfo n
  let slots := (e.slots.filter fun i => !bitOf x.released i) ++ (if e.failed then [] else s.earlySlots n)
  (((List.range 8).filter slots.contains).map (recSucc x.record)).filter (· != noSucc)

/-- Step 2 of R395 with R394 and R397 for nodes of one launch that end together: their derived edges go, their edges are applied, nodes
are dropped, nodes become ready. -/
def State.applyEnds (s : State) (es : List (NodeRef × Ending)) : State :=
  let edges := (es.map fun p => (s.endTargets p.1 p.2).map fun t => (p.1, t)).flatten
  let s := es.foldl (fun s p => s.retireNode p.1) s
  let s := edges.foldl (fun s q => s.applyEdge q.1 q.2) s
  match es with
  | [] => s
  | (n, _) :: _ =>
    let failed := es.any fun p => p.2.failed
    let s := if failed then s.modLaunch n.part n.launch fun l => { l with failed := true } else s
    let ended := match s.launch n.part n.launch with
      | some l => l.ended
      | none => false
    (if failed || es.any (fun p => p.2.isEnd) || ended then s.dropRest n.part n.launch none else s).wake

/-- Nodes of one launch end together: their records in order, their edges, and the launch's end after its last node (R395). -/
def State.endNodes (s : State) (es : List (NodeRef × Ending)) : State :=
  match es.getLast? with
  | none => s
  | some (n, _) =>
    match s.launch n.part n.launch with
    | none => s
    | some l =>
      let last := (s.applyEnds es).launchOver n.part n.launch
      let record (p : NodeRef × Ending) : Nat :=
        recordWord l p.1.node p.2.status p.2.cause p.2.detail (last && p.1 == n) p.2.spl
      let t := (es.foldl (fun s p => s.appendRecord n.part (record p)) s).applyEnds es
      if last then t.finishLaunch n.part n.launch else t

/-- A node ends. -/
def State.endNode (s : State) (n : NodeRef) (e : Ending) : State := s.endNodes [(n, e)]

/-- Every slot. -/
def allSuccs : List Nat := List.range 8

/-- A node ends well. -/
def Ending.ok (status : Nat) (detail : Word) (slots : List Nat) : Ending :=
  { status := status, cause := 0, detail := detail, spl := false, slots := slots, failed := false, isEnd := false }

/-- A node ends with a failure. -/
def Ending.fail (f : Failure) : Ending :=
  { status := f.status, cause := f.cause, detail := f.detail, spl := f.orig.isSome, slots := [], failed := true, isEnd := false }

/-! ## Launch queues (20 R368 to R372) -/

def State.queue (s : State) (part q : Nat) : LaunchQueue := Table.get (s.part part).queues LaunchQueue.init q

def State.modQueue (s : State) (part q : Nat) (f : LaunchQueue → LaunchQueue) : State :=
  s.modPart part fun p => { p with queues := Table.modify p.queues LaunchQueue.init q f }

/-- Ring word k. -/
def LaunchQueue.word (x : LaunchQueue) (k : Nat) : Word := Table.get x.ring 0 (k % 4096)

/-- The header at the head, and its fields. -/
def LaunchQueue.header (x : LaunchQueue) : Word := x.word x.head.toNat
def hdrOp (h : Word) : Nat := bits h 56 8
def hdrLen (h : Word) : Nat := bits h 48 8
def hdrIrq (h : Word) : Bool := bitOf h 32

/-- Whether SHi is carried. -/
def carries (h : Word) (i : Nat) : Bool := bitOf h i

/-- The number of set MASK bits. -/
def maskCount (h : Word) : Nat := ((List.range 32).filter (carries h)).length

/-- All words of the packet at the head lie below the tail. -/
def LaunchQueue.complete (x : LaunchQueue) : Bool :=
  x.tail != x.head && decide (1 + hdrLen x.header ≤ (x.tail - x.head).toNat)

/-- The shadow registers after the update by the packet at the head, SH0 to SH15. -/
def LaunchQueue.after (x : LaunchQueue) : Table Word :=
  (((List.range 16).filter (carries x.header)).zip (List.range 16)).foldl (fun t p =>
    Table.set t p.1 (x.word (x.head.toNat + 1 + p.2))) x.sh

/-- The level of a queue: its SH4 cap after its head packet's update (R374). -/
def LaunchQueue.level (x : LaunchQueue) : Nat := bits (Table.get (if x.complete then x.after else x.sh) 0 4) 0 3

/-- An address field fails: not aligned, or not usable for the partition (R372, reason 5). -/
def State.fieldBad (s : State) (part : Nat) (va : Word) (al : Nat) (u : Use) : Bool :=
  va.toNat % al != 0 || match s.hubLookup part va u with
    | .ok _ => false
    | .error _ => true

/-- The reason for which a packet is rejected, 0 for none (R371, R372). -/
def State.packetReason (s : State) (part : Nat) (x : LaunchQueue) : Nat :=
  let h := x.header
  let sh := Table.get x.after 0
  let op := hdrOp h
  if op = 0 ∨ 4 < op then 1
  else if hdrLen h ≠ maskCount h then 2
  else if bits h 16 16 ≠ 0 then 3
  else if bits h 33 15 ≠ 0 ∨ (hdrIrq h ∧ op ≠ 1) then 4
  else if op = 1 ∧ (s.fieldBad part (sh 0) 128 .read || s.fieldBad part (sh 2) 8 .write) then 5
  else if op = 4 ∧ s.fieldBad part (sh 5) 8 .write then 5
  else if op = 1 ∧ (bits (sh 1) 16 16 = 0 ∨ bits (sh 1) 16 16 ≤ bits (sh 1) 0 16) then 6
  else if (carries h 1 ∧ bits (sh 1) 32 32 ≠ 0) ∨ (carries h 4 ∧ bits (sh 4) 3 61 ≠ 0) then 7
  else 0

/-- A packet can be taken now: a FENCE that the queue has taken lets no further one go until LIVE is 0, and a LAUNCH needs room in the
pool and in the launch table (R374, R381). -/
def State.packetMayGo (s : State) (part : Nat) (x : LaunchQueue) : Bool :=
  !x.halt && x.complete && !(x.fence && x.live != 0) &&
    (s.packetReason part x != 0 || hdrOp x.header != 1 ||
      decide (s.poolSize + 1024 ≤ 8192) && decide ((s.part part).launches.length < 256))

/-- The address fields that a packet's test translates: SH0 and SH2 of a LAUNCH, SH5 of a SIGNAL (R372). -/
def LaunchQueue.tested (x : LaunchQueue) : List Word :=
  let sh := Table.get x.after 0
  match hdrOp x.header with
  | 1 => [sh 0, sh 2]
  | 4 => [sh 5]
  | _ => []

/-- A hub agent asks for the translation of an address: its TLB takes the page, or its walk meets the fault. -/
def State.hubAsk (s : State) (part : Nat) (va : Word) : State :=
  match s.hubLookup part va .read with
  | .ok _ => s.hubTouch part va 1
  | .error _ => s.noteHubMiss part va

/-- Where a ring word stands in the hub register window (20 R368, 27 R459). -/
def ringAt (part q k : Nat) : Nat := 0x2000000 + 0x400000 * part + 0x10000 * q + 0x8000 + 8 * (k % 4096)

/-- The packet at the head of a queue is read and tested: its ring words show their errors, its address fields are translated
(14 R271, R372). -/
def State.readPacket (s : State) (part q : Nat) (x : LaunchQueue) : State :=
  let t := (List.range (1 + hdrLen x.header)).foldl (fun t k => t.eccRead .hub (ringAt part q (x.head.toNat + k)) 8 none) s
  x.tested.foldl (fun t a => t.hubAsk part a) t

/-- The distance of a queue from the one that was served last at its level. -/
def turnOf (turns : Table Nat) (level q : Nat) : Nat := (q + 64 - (Table.get turns 63 level + 1) % 64) % 64

/-- The queue is the one to be served: the lowest level first, round-robin within a level (R374). -/
def State.served (s : State) (part q : Nat) : Bool :=
  let p := s.part part
  let key (i : Nat) : Nat := 64 * (s.queue part i).level + turnOf p.turns (s.queue part i).level i
  s.packetMayGo part (s.queue part q) &&
    (List.range 64).all fun i => !s.packetMayGo part (s.queue part i) || decide (key q ≤ key i)

/-- The packet at the head is consumed. -/
def LaunchQueue.skip (x : LaunchQueue) : LaunchQueue := { x with head := x.head + BitVec.ofNat 32 (1 + hdrLen x.header) }

/-- A rejected packet changes nothing but the head, LQERR and HALT, and the host hears of it (R372). -/
def State.rejectPacket (s : State) (part q why : Nat) : State :=
  (s.modQueue part q fun x => { x.skip with errWord := x.head, reason := why, halt := true }).interrupt (64 * part + q)

/-- The nodes of a new launch: every explicit count from PRED (R387). -/
def State.newTable (s : State) (l : Launch) (part : Nat) : Table NodeInfo :=
  (List.range l.nodes).map fun i => (i, { NodeInfo.init with count := s.predOf l part i })

/-- A LAUNCH starts a launch of the graph, and its entry node is to be submitted in this hub cycle (R373, R374, R388). -/
def State.startLaunch (s : State) (part q : Nat) (x : LaunchQueue) (irq : Bool) : State :=
  let sh := Table.get x.sh 0
  let l : Launch := { queue := q, number := x.taken % 2 ^ 26, graph := sh 0, entry := bits (sh 1) 0 16, nodes := bits (sh 1) 16 16,
                      done := sh 2, value := sh 3, irq := irq, cap := bits (sh 4) 0 3, args := (List.range 8).map fun i => sh (8 + i),
                      hint := (sh 7).toNat, table := [], ended := false, failed := false }
  let k := (s.part part).nextLaunch
  let s := s.findReads part ((List.range l.nodes).map fun i => (l.graph + BitVec.ofNat 64 (128 * i + 4), 2))
  let s := s.modQueue part q fun x => { x with live := x.live + 1, taken := x.taken + 1 }
  let s := s.modPart part fun p => { p with nextLaunch := k + 1, launches := Table.set p.launches k { l with table := s.newTable l part } }
  s.modNode { part := part, launch := k, node := l.entry } fun x => { x with status := .due }

/-- A SIGNAL writes SH6 to SH5 (R374). -/
def State.signal (s : State) (part : Nat) (sh : Nat → Word) : State :=
  match s.officeWrite part (sh 5) (sh 6) with
  | (t, true) => t
  | (t, false) => t.errorRec (.signalWrite part (sh 5))

/-- The packet at the head of a queue is taken, or rejected. -/
def State.takePacket (s0 : State) (part q : Nat) : State :=
  let x := s0.queue part q
  let s := s0.readPacket part q x
  let s := s.modPart part fun p => { p with turns := Table.set p.turns x.level q }
  match s.packetReason part x with
  | 0 =>
    let y := { x.skip with sh := x.after, fence := hdrOp x.header == 3 }
    let s := s.modQueue part q fun _ => y
    (match hdrOp x.header with
      | 1 => s.startLaunch part q y (hdrIrq x.header)
      | 4 => s.signal part (Table.get y.sh 0)
      | _ => s)
  | why => s.rejectPacket part q why

/-- A packet step: the head packet has this opcode, or one that no packet has. Once the submissions of the present hub cycle are made, the
next packet waits for the next cycle (R388). -/
def packetStep (op part q : Nat) (s : State) : Host.Outcome State Fault Refusal :=
  let h := hdrOp (s.queue part q).header
  .next (if !s.hub.shut ∧ q < 64 ∧ (h = op ∨ h = 0 ∨ 4 < h) ∧ s.served part q then s.takePacket part q else s)

/-- LAUNCH (R374). -/
def execLaunch (part q : Nat) (s : State) : Host.Outcome State Fault Refusal := packetStep 1 part q s

/-- SETONLY (R374). -/
def execSetonly (part q : Nat) (s : State) : Host.Outcome State Fault Refusal := packetStep 2 part q s

/-- FENCE of a launch queue (R374): once it is taken, the queue's next packet waits until LIVE is 0. -/
def execPacketFence (part q : Nat) (s : State) : Host.Outcome State Fault Refusal := packetStep 3 part q s

/-- SIGNAL (R374). -/
def execSignal (part q : Nat) (s : State) : Host.Outcome State Fault Refusal := packetStep 4 part q s

/-- A write of `LQTAIL`: a tail more than 4,096 words ahead of the head is ignored and sets OVR (R369). The host reaches no
register of a device whose configuration record failed (01 R19). -/
def State.writeTail (s : State) (part q : Nat) (v : Word) : State :=
  if !s.cfg.recordOk then s
  else s.modQueue part q fun x =>
    let t := BitVec.ofNat 32 (bits v 0 32)
    if 4096 < (t - x.head).toNat then { x with ovr := true } else { x with tail := t }

/-- A write of `LQSTAT`: OVR written as 1 clears it (R370). -/
def State.writeStat (s : State) (part q : Nat) (v : Word) : State :=
  if !s.cfg.recordOk then s else s.modQueue part q fun x => { x with ovr := x.ovr && !bitOf v 1 }

/-- A write of `LQERR` clears it and HALT (R371). -/
def State.writeErr (s : State) (part q : Nat) : State :=
  if !s.cfg.recordOk then s else s.modQueue part q fun x => { x with errWord := 0, reason := 0, halt := false }

/-- LQTAIL_WRITE (R369). -/
def execLqtailWrite (part q : Nat) (v : BitVec 64) (s : State) : Host.Outcome State Fault Refusal :=
  .next (s.writeTail part q v)

/-- LQSTAT_OVR_CLEAR (R370). -/
def execLqstatOvrClear (part q : Nat) (v : BitVec 64) (s : State) : Host.Outcome State Fault Refusal :=
  .next (s.writeStat part q v)

/-- LQERR_WRITE (R371). -/
def execLqerrWrite (part q : Nat) (s : State) : Host.Outcome State Fault Refusal :=
  .next (s.writeErr part q)

/-! ## NLAUNCH (21 R398, 18 R360) -/

/-- The node whose slots an NLAUNCH names: in fused code, the one from which its word comes. -/
def State.launcher (s : State) (c : CtxRef) : Option NodeRef :=
  match (s.ctx c).running with
  | none => none
  | some r =>
    match spliceOrigin s c (s.ctx c).ss.pc with
    | some (node, _, _) => some { r.node with node := node }
    | none => some r.node

/-- The record of a node of a launch: as the sorting office has read it, or as it stands in the node array. -/
def State.recordOf (s : State) (l : Launch) (part i : Nat) : Option (BitVec 1024) :=
  let x := Table.get l.table NodeInfo.init i
  if x.status ≠ .idle ∧ x.status ≠ .due then some x.record
  else match s.hubRead part (l.graph + BitVec.ofNat 64 (128 * i)) 128 with
    | .ok b => some (BitVec.ofNat 1024 (bytesNum b))
    | .error _ => none

/-- An edge leaves the body of a LOOP of the launch. -/
def State.leavesBody (s : State) (n : NodeRef) (target : Nat) : Bool :=
  match s.launch n.part n.launch with
  | none => false
  | some l => (List.range l.nodes).any fun i => (s.recordOf l n.part i).any fun r => recKind r == kLoop &&
      (let a := recSucc r 0
       let b := recSucc r 1
       decide (a ≤ n.node) && decide (n.node ≤ b) && !(decide (a ≤ target) && decide (target ≤ b)))

/-- An NLAUNCH has no effect but its count. -/
def State.nlaunchIgnored (s : State) (n : NodeRef) (slot : Nat) : Bool :=
  let x := s.nodeInfo n
  let t := recSucc x.record slot
  t == noSucc || bitOf x.released slot || recDual x.record || s.leavesBody n t ||
    (!x.consumer && x.partner == some t)

/-- NLAUNCH: the slot is released at once for later NLAUNCHes, and its edge at the hub once the context's earlier accesses are
finished. -/
def execNlaunch (o : SX) (s : State) : Host.Outcome State Fault Refusal :=
  plain (do
    outward
    let slot := o.b.toNat % 8
    let rank ← freshId
    fun s => .ok ((), match s.launcher s.cur with
      | none => s.modCounts fun n => { n with ignoredNl := satAdd32 n.ignoredNl 1 }
      | some n =>
        if s.nlaunchIgnored n slot then s.modCounts fun n => { n with ignoredNl := satAdd32 n.ignoredNl 1 }
        else
          (s.modNode n fun x => { x with released := BitVec.ofNat 8 (putBits x.released.toNat slot 1 1) }).modHub fun h =>
            { h with early := h.early ++ [{ node := n, slot := slot, c := s.cur, rank := rank }] })) s

/-- The accesses of the issuing context that rank older are finished, the bytes that older words have emitted into the coder's windows
among them (18 R360). -/
def State.earlyDone (s : State) (e : EarlyRelease) : Bool :=
  s.accs.all (fun a => !((a.ofCtx e.c true || a.ofCtx e.c false) && decide (a.rank < e.rank))) &&
    (s.ctx e.c).ops.all (fun o => !(decide (o.id < e.rank) && (o.st == .v || o.st == .x) && !o.kind.isScalar)) &&
    (s.ctx e.c).slots.all fun p => (p.2.owes e.rank).isEmpty

/-- The hub releases the edges whose time has come. -/
def State.releaseEarly (s : State) : State :=
  (s.hub.early.filter s.earlyDone).foldl (fun s e =>
    let t := recSucc (s.nodeInfo e.node).record e.slot
    let s := s.modHub fun h => { h with early := h.early.filter fun x => x != e }
    (s.applyEdge e.node t).wake) s

end Sys2Proof.Machine
end

