-- ==== Sys2Proof/Machine/Schedule.lean ====
section
/-!
DEFINITION. Placement: eligible contexts, teams, the order of ready nodes, reservation and backfill, aging, the setting of a
context, and dual runs at placement (02 R33, R42, R43; 21 R386, R389, R399 to R402; 22 R412).
-/
namespace Sys2Proof.Machine

/-! ## Eligible contexts and teams (R399, R42) -/

/-- Neither context of a cell has a node, a cell that is parked for power included. -/
def State.cellIdle (s : State) (n : Nat) : Bool := [Bank.a, .b].all fun k => (s.ctxAt { cell := n, bank := k }).running.isNone

/-- A held write of CELLMODE takes effect before a node is placed: both contexts are free (02 R29). -/
def State.modeDue (s : State) (n : Nat) : Bool := (s.cell n).modeHeld.isSome && s.cellIdle n

/-- The context belongs to the partition, its cell is in service and under no targeted test (26 R456), and its mode matches; in SOLO only
context A is a member of a team. -/
def State.serves (s : State) (part : Nat) (pair : Bool) (c : CtxRef) : Bool :=
  let l := s.cell c.cell
  l.part == some part && l.state == 0#2 && !l.testing && l.pair == pair && (pair || c.bank == .a)

/-- A context that serves a node and runs none. -/
def State.eligible (s : State) (part : Nat) (pair : Bool) (c : CtxRef) : Bool :=
  s.serves part pair c && (s.ctxAt c).running.isNone && !s.modeDue c.cell

/-- The context that a cell gives: A before B. -/
def pickOn (ok : CtxRef → Bool) (cell : Nat) : Option CtxRef :=
  if ok { cell := cell, bank := .a } then some { cell := cell, bank := .a }
  else if ok { cell := cell, bank := .b } then some { cell := cell, bank := .b }
  else none

/-- The team of 2^t cells: the lowest aligned block, or else the lowest cells. -/
def chooseTeam (ok : CtxRef → Bool) (t : Nat) : Option (List CtxRef) :=
  let n := 2 ^ t
  let block (k : Nat) : List Nat := (List.range n).map fun i => k * n + i
  match (List.range (256 / n)).find? fun k => (block k).all fun i => (pickOn ok i).isSome with
  | some k => some ((block k).filterMap (pickOn ok))
  | none =>
    let all := (List.range 256).filterMap (pickOn ok)
    if n ≤ all.length then some (all.take n) else none

/-- A region that an explicit predecessor wrote and retained, and that the node reads (R389). -/
def retainedFrom (p x : List Region) : Bool :=
  x.any fun g => g.retained && g.reads && p.any fun w =>
    w.retained && w.writes && w.space == g.space && w.id == g.id

/-- The cells on which a retained region places the node, in member order. -/
def State.pinnedCells (s : State) (n : NodeRef) : Option (List Nat) :=
  let x := s.nodeInfo n
  x.after.reverse.findSome? fun p => if retainedFrom p.regions x.regions then p.cells else none

/-- The contexts of cells in their order, if each cell gives one. -/
def teamOn (ok : CtxRef → Bool) (cells : List Nat) : Option (List CtxRef) := cells.mapM (pickOn ok)

/-- A mode and a team size. -/
structure Shape where
  pair : Bool
  team : Nat
  deriving DecidableEq, Repr, Inhabited

/-- The image of a node that is to be placed: code of its own, or fused code; or the failure that its image gives it (R382,
R386). -/
inductive Program where
  | own (i : KImage)
  | fused (k : Nat) (f : Fused)
  | bad (status cause : Nat) (detail : Word)
  deriving DecidableEq, Repr, Inhabited

/-- The program of a node. -/
def State.program (s : State) (n : NodeRef) : Program :=
  let x := s.nodeInfo n
  match x.splice with
  | some k =>
    match s.hub.cache.find? fun p => p.1 == k with
    | some p => .fused k p.2
    | none => .bad badrec 0 0
  | none =>
    match s.fetchImage n.part (recImage x.record) with
    | .error (c, a) => .bad sysfail c a
    | .ok i => if i.bad then .bad badrec 0 0 else .own i

def Program.pair : Program → Bool
  | .own i => i.pair
  | .fused _ f => f.pair
  | .bad .. => false

/-- The shape of a node. -/
def State.shape (s : State) (n : NodeRef) : Shape := { pair := (s.program n).pair, team := recTeam (s.nodeInfo n).record }

/-! ## Reservation and backfill (R400) -/

/-- The reservation of a partition, while its node still waits for its team. -/
def State.reservation (s : State) (part : Nat) : Option NodeRef :=
  (s.part part).reserved.filter fun n => (s.nodeInfo n).status == .ready && (s.failureOf n).isNone

/-- The hub time at which a running node ends by its hint. -/
def State.endBy (s : State) (n : NodeRef) : Nat :=
  match s.launch n.part n.launch with
  | some l => (s.nodeInfo n).startAt + l.hintOf n.node (s.nodeInfo n)
  | none => 0

/-- The contexts that running nodes free by a time. -/
def State.freedBy (s : State) (part t : Nat) : List CtxRef :=
  (((s.nodesOf part).filter fun p => p.2.status == .running && decide (s.endBy p.1 ≤ t)).map fun p => s.running p.1).flatten

/-- The team of a node, if it can be placed on contexts that qualify. -/
def State.teamFor (s : State) (n : NodeRef) (team : Nat) (ok : CtxRef → Bool) : Option (List CtxRef) :=
  match s.pinnedCells n with
  | some cells => teamOn ok cells
  | none => chooseTeam ok team

/-- The teams that the next run of a node of a shape takes on contexts that qualify: one, or two for the first run of a DUAL node, which
are at once in place and share no cell (R402, log 50). -/
def State.teamsOn (s : State) (n : NodeRef) (sh : Shape) (ok : CtxRef → Bool) : Option (List (List CtxRef)) :=
  match s.teamFor n sh.team ok with
  | none => none
  | some a =>
    if recDual (s.nodeInfo n).record && (s.nodeInfo n).sigs.isEmpty then
      (chooseTeam (fun c => ok c && !a.any fun d => d.cell == c.cell) sh.team).map fun b => [a, b]
    else some [a]

/-- The expected fill: the time by which the contexts are free that the reservation waits for. -/
def State.expectedFill (s : State) (part : Nat) (r : NodeRef) : Option Nat :=
  let sh := s.shape r
  let ends := ((s.nodesOf part).filter fun p => p.2.status == .running).map fun p => s.endBy p.1
  (ends.foldr insertSorted []).find? fun t =>
    (s.teamsOn r sh fun c => s.eligible part sh.pair c || s.serves part sh.pair c && (s.freedBy part t).contains c).isSome

/-- The node may be placed on reserved contexts (R400, backfill). -/
def State.mayBackfill (s : State) (n r : NodeRef) : Bool :=
  match s.launch n.part n.launch, s.expectedFill n.part r with
  | some l, some t => l.hintOf n.node (s.nodeInfo n) != 0 && decide (s.hub.time + l.hintOf n.node (s.nodeInfo n) < t)
  | _, _ => false

/-- The contexts that are kept for another node: those that have freed and that it may take. -/
def State.keptFrom (s : State) (n : NodeRef) : List CtxRef :=
  match s.reservation n.part with
  | none => []
  | some r => if r = n ∨ s.mayBackfill n r then [] else (s.part n.part).keptFor.filter (s.eligible n.part (s.shape r).pair)

/-- The contexts that a node of a mode may take. -/
def State.available (s : State) (part : Nat) (pair : Bool) (kept : List CtxRef) (c : CtxRef) : Bool :=
  s.eligible part pair c && !kept.contains c

/-- The teams of a node, if it can be placed now. -/
def State.teamsFor (s : State) (n : NodeRef) : Option (List (List CtxRef)) :=
  s.teamsOn n (s.shape n) (s.available n.part (s.shape n).pair (s.keptFrom n))

/-! ## The order of ready nodes (R400) -/

/-- A ready node that placement may take: KERNEL, not the consumer of a pair, of a launch that is not pre-empted, but for a DUAL node whose
first runs have ended, which completes (02 R46), while no urgent request holds the cells (02 R48). -/
def State.wantsTeam (s : State) (n : NodeRef) (x : NodeInfo) : Bool :=
  x.status == .ready && recKind x.record == kKernel && !x.consumer && (s.failureOf n).isNone &&
    (s.part n.part).urgent.isNone && (!s.barred n || !x.sigs.isEmpty)

/-- A node that placement would take up now: it can be placed, or its image fails it. -/
def State.placeable (s : State) (n : NodeRef) : Bool :=
  match s.program n with
  | .bad .. => true
  | _ => (s.teamsFor n).isSome

/-- The level of a node and the rank of its queue and submission within the level. -/
def State.orderKey (s : State) (n : NodeRef) : List Nat :=
  match s.launch n.part n.launch with
  | none => []
  | some l =>
    let x := s.nodeInfo n
    [l.level x, turnOf (s.part n.part).nodeTurns (l.level x) l.queue, x.order]

/-- No other node of the partition that can be placed comes before. -/
def State.isNext (s : State) (n : NodeRef) : Bool :=
  (s.nodesOf n.part).all fun p => p.1 == n || !s.wantsTeam p.1 p.2 || decide (s.orderKey n ≤ s.orderKey p.1) || !s.placeable p.1

/-- A node has been ready for one more `AGE_LIMIT` than it has risen levels, and can rise. -/
def State.promotionDue (s : State) (n : NodeRef) : Bool :=
  match s.launch n.part n.launch with
  | none => false
  | some l =>
    let x := s.nodeInfo n
    x.status == .ready && !x.consumer && l.level x != 0 &&
      decide (x.readyAt + (x.raised + 1) * (s.part n.part).ageLimit * hubMicro ≤ s.hub.time)

/-- AGE_PROMOTION (R400). -/
def execAgePromotion (node : NodeRef) (s : State) : Host.Outcome State Fault Refusal :=
  .next (if s.promotionDue node then s.modNode node fun x => { x with raised := x.raised + 1 } else s)

/-- A node has been ready for longer than `RESERVE_LIMIT`. -/
def State.overdueNode (s : State) (n : NodeRef) (x : NodeInfo) : Bool :=
  s.wantsTeam n x && decide (x.readyAt + (s.part n.part).resLimit * hubMicro < s.hub.time)

/-- The node is the one that a reservation goes to: the oldest of those that have waited too long. -/
def State.reservationDue (s : State) (n : NodeRef) : Bool :=
  let x := s.nodeInfo n
  (s.reservation n.part).isNone && s.overdueNode n x && (s.nodesOf n.part).all fun p =>
    !s.overdueNode p.1 p.2 || decide ([x.readyAt, x.order] ≤ [p.2.readyAt, p.2.order])

/-- RESERVATION (R400). -/
def execReservation (node : NodeRef) (s : State) : Host.Outcome State Fault Refusal :=
  .next (if s.reservationDue node then s.modPart node.part fun p => { p with reserved := some node, keptFor := [] } else s)

/-- The indexes of a LOOP's body. -/
def loopBody (r : BitVec 1024) : List Nat := (List.range (recSucc r 1 + 1 - recSucc r 0)).map fun i => recSucc r 0 + i

/-- No body node of a LOOP waits, is ready or runs, and none is to be submitted (R393). -/
def State.iterationOver (s : State) (n : NodeRef) (r : BitVec 1024) : Bool :=
  (loopBody r).all fun b => !(s.nodeInfo { n with node := b }).live && !(s.nodeInfo { n with node := b }).due

/-- A control node is decided in the present hub cycle: one that is ready, or a LOOP whose iteration has ended (R390, R393). -/
def State.decisionDue (s : State) (n : NodeRef) (x : NodeInfo) : Bool :=
  (s.failureOf n).isNone && (x.status == .ready && recControl x.record ||
    x.status == .running && recKind x.record == kLoop && s.iterationOver n x.record)

/-- A control node of the partition is to be decided (R390, R394). -/
def State.controlReady (s : State) (part : Nat) : Bool := (s.nodesOf part).any fun p => s.decisionDue p.1 p.2

/-- The office is up to date before it places: no control node waits for its decision, no submission, no promotion and no reservation is
due. -/
def State.officeDue (s : State) (part : Nat) : Bool :=
  s.controlReady part || (s.nodesOf part).any fun p => p.2.due || s.promotionDue p.1 || s.reservationDue p.1

/-! ## Setting a context (02 R43, 06 R140, 22 R412) -/

/-- A stream of a context that is placed: it starts at its entry, its TLB stays. -/
def StreamState.placed (x : StreamState) (pc : Word) : StreamState := { StreamState.init with pc := codeAddr pc, tlb := x.tlb }

/-- What a placement gives each member. -/
structure Setup where
  pcs    : List Word
  params : List Word
  tokens : List (BitVec 4)
  node   : Nat
  deriving DecidableEq, Repr, Inhabited

/-- A member context as placement sets it: what is not named here is cleared; the coder's tables and slots, the window
descriptors and the domains of firmware stay. -/
def Ctx.placed (c : Ctx) (u : Setup) (r : Running) (domt : Word) : Ctx :=
  let d : Ctx := { Ctx.init with
    ss := c.ss.placed (u.pcs.getD 0 0), sv := c.sv.placed (u.pcs.getD 1 0), sm := c.sm.placed (u.pcs.getD 2 0),
    sx := c.sx.placed (u.pcs.getD 3 0), tables := c.tables, slots := c.slots, wd := c.wd, part := c.part,
    domt := c.domt, domd := c.domd, domp := c.domp, doms := c.doms, sstept := c.sstept, sstepd := c.sstepd,
    sstepp := c.sstepp, ssteps := c.ssteps, haltIn := c.haltIn, tokens := u.tokens,
    param := (List.range 8).map (fun i => (i, u.params.getD i 0)), node := BitVec.ofNat 64 u.node, running := some r }
  d.putDom .t domt

/-- A domain register of a team. -/
def teamDomain (id : BitVec 32) (count : Nat) : Word := BitVec.ofNat 64 (id.toNat + 2 ^ 32 * count)

/-- The hub holds no domain with an ID, and no token waits for it. -/
def State.domainFresh (s : State) (part id : Nat) : Bool :=
  (s.domRec part id).isNone && !s.hub.tokens.any fun t => t.part == part && t.dom.toNat == id

/-- The parameters and tokens of a fused kernel (22 R412): P's where P's masks name them, else C's. -/
def mixed {α : Type} (mask : Nat) (p c : List α) (d : α) : List α :=
  (List.range p.length).map fun i => if bitsN mask i 1 = 1 then p.getD i d else c.getD i d

/-- What each member of a node is set with. -/
def State.setupOf (s : State) (n : NodeRef) : Setup :=
  let x := s.nodeInfo n
  let tok (r : BitVec 1024) : List (BitVec 4) := (List.range 16).map (recToken r)
  match s.launch n.part n.launch with
  | none => { pcs := [], params := [], tokens := [], node := 0 }
  | some l =>
    match s.program n with
    | .own i => { pcs := (List.range 4).map fun st => BitVec.ofNat 64 (i.base st + 4 * i.entry st), params := l.params n.node x,
                  tokens := tok x.record, node := n.node }
    | .fused _ f =>
      let k := x.partner.getD n.node
      let y := s.nodeInfo { n with node := k }
      { pcs := (List.range 4).map f.entry, params := mixed f.pmask (l.params n.node x) (l.params k y) 0,
        tokens := mixed f.tmask (tok x.record) (tok y.record) 0, node := n.node }
    | .bad .. => { pcs := [], params := [], tokens := [], node := 0 }

/-- A team starts to run: the hub records its domain, each member is set, and the cell's read cache is dropped (02 R36, 18 R347). -/
def State.startTeam (s : State) (n : NodeRef) (u : Setup) (team : List CtxRef) (dom : BitVec 32) (scratch : Option Nat) : State :=
  let x := s.nodeInfo n
  let domt := teamDomain dom team.length
  let t := (team.zip (List.range team.length)).foldl (fun s p =>
    let r : Running := { node := n, rank := p.2, splice := x.splice, consumer := x.partner, scratch := scratch }
    ((s.recordDom p.1 .t domt none).modAt p.1 fun c => c.placed u r domt).dropLines p.1.cell fun _ => true) s
  t.noteParent n.part domt

/-! ## Scratch pages of a dual run (R402) -/

/-- The pages of a run of bytes: their translations. -/
def State.pagesOf (s : State) (part : Nat) : Nat → Nat → Nat → List TlbEntry
  | 0, _, _ => []
  | fuel + 1, a, last =>
    if last < a then []
    else match s.hubLookup part (BitVec.ofNat 64 a) .read with
      | .ok e => e :: s.pagesOf part fuel ((e.vpn + 1) * e.size) last
      | .error _ => s.pagesOf part fuel ((a / 2 ^ 16 + 1) * 2 ^ 16) last

/-- A scratch page takes the contents of the page that it stands for; scratch memory goes by virtual address. -/
def State.copyPage (s : State) (k : Nat) (e : TlbEntry) : State :=
  let at_ (a : Nat) : Nat := e.vpn * e.size + (a - e.phys)
  let inside (a : Nat) : Bool := decide (e.phys ≤ a) && decide (a < e.phys + e.size)
  let m := s.homeMem (e.place (BitVec.ofNat 64 (e.vpn * e.size))).1
  { s with scratch := Table.modify s.scratch (Memory.blank 0) k fun t =>
      let u := (m.cells.filter fun p => inside p.1).foldl (fun t p => t.write (at_ p.1) p.2) t
      (m.marks.filter fun x => inside (8 * x)).foldl (fun t x => t.poison (at_ (8 * x))) u }

/-- The pages of a node's write regions in virtual memory. -/
def State.writePages (s : State) (n : NodeRef) : List TlbEntry :=
  (((s.nodeInfo n).regions.filter fun g => g.space == 0 && g.writes).map fun g =>
    s.pagesOf n.part (g.len / 2 ^ 16 + 2) g.base (g.base + g.len - 1)).flatten.eraseDups

/-- A new scratch memory with the pages of a node's write regions. -/
def State.newScratch (s : State) (n : NodeRef) : State :=
  let (k, s) := s.fresh
  let t := (s.writePages n).foldl (fun s e => s.copyPage k e) { s with scratch := Table.set s.scratch k (Memory.blank 0) }
  t.modNode n fun x => { x with scratches := x.scratches ++ [k] }

/-! ## NODE_PLACEMENT -/

/-- The bookkeeping of a placement: status, start, turn, reservation, and the use of the splice cache. -/
def State.placedNode (s : State) (n : NodeRef) (teams : List (List CtxRef)) : State :=
  let x := s.nodeInfo n
  match s.launch n.part n.launch with
  | none => s
  | some l =>
    let up (x : NodeInfo) : NodeInfo := { x with status := .running, startAt := s.hub.time, teams := x.teams ++ teams }
    let s := s.modNode n up
    let s := s.modPart n.part fun p => { p with
      nodeTurns := Table.set p.nodeTurns (l.level x) l.queue
      keptFor := if p.reserved = some n then [] else p.keptFor.filter fun c => !teams.flatten.contains c
      reserved := if p.reserved = some n then none else p.reserved }
    match x.splice, x.partner with
    | some k, some c =>
      let last := s.hub.cache.foldl (fun m p => max m p.2.used) 0
      (s.modNode { n with node := c } up).modHub fun h =>
        { h with cache := h.cache.map fun p => if p.1 = k then (p.1, { p.2 with used := last + 1 }) else p }
    | _, _ => s

/-- The teams of a DUAL node start: the primary on memory itself, the secondary and the third run on scratch. Both scratch
memories are made before the first run, so that each run starts from the same contents (log 51). -/
def State.startDual (s : State) (n : NodeRef) (u : Setup) (teams : List (List CtxRef)) (dom : BitVec 32) : State :=
  match teams with
  | [a, b] =>
    let s := (s.newScratch n).newScratch n
    (s.startTeam n u a dom none).startTeam n u b (dom + 1) ((s.nodeInfo n).scratches[0]?)
  | [a] => s.startTeam n u a dom ((s.nodeInfo n).scratches[1]?)
  | _ => s

/-- The next run of a node starts on its teams. -/
def State.startNode (s : State) (n : NodeRef) (teams : List (List CtxRef)) (dom : BitVec 32) : State :=
  let u := s.setupOf n
  let t := if recDual (s.nodeInfo n).record then s.startDual n u teams dom
    else s.startTeam n u (teams.headD []) dom none
  t.placedNode n teams

/-- The read of the image of a node that is to be placed finds the errors of its units (14 R271). -/
def State.findProgram (s : State) (n : NodeRef) : State :=
  let x := s.nodeInfo n
  if x.splice.isNone then s.hubFind n.part (recImage x.record) 136 else s

/-- NODE_PLACEMENT (R399): the place is the one that the rules give, and the domain ID is fresh. -/
def execNodePlacement (node : NodeRef) (place : Placement) (s : State) : Host.Outcome State Fault Refusal :=
  .next (if !s.wantsTeam node (s.nodeInfo node) || s.officeDue node.part || !s.isNext node then s
  else
    let t := s.findProgram node
    match t.program node with
    | .bad st c d => t.nodeFails node st c d
    | _ =>
      match t.teamsFor node with
      | none => s
      | some teams =>
        if teams = ([place.members, place.second].filter fun t => !t.isEmpty) ∧ t.domainFresh node.part place.domain.toNat ∧
            t.domainFresh node.part (place.domain + 1).toNat then
          t.startNode node teams place.domain
        else s)

end Sys2Proof.Machine
end

