-- ==== Sys2Proof/Machine/NodeEnd.lean ====
section
/-!
DEFINITION. The end of a node: control nodes, kernels, spliced pairs and dual runs, COPY nodes, and nodes that run again
(21 R383, R390 to R395, R402; 22 R416, R417; 12 R251; 18 R360).
-/
namespace Sys2Proof.Machine

/-! ## Control nodes (R390 to R394) -/

/-- A body node of a LOOP at the start of an iteration (R393). -/
def NodeInfo.again (x : NodeInfo) (count : Nat) : NodeInfo := { NodeInfo.init with count := count, apart := x.apart }

/-- The body of a LOOP inside the body does not lie wholly within it (R392). -/
def State.badNest (s : State) (n : NodeRef) (r : BitVec 1024) : Bool :=
  match s.launch n.part n.launch with
  | none => false
  | some l => (loopBody r).any fun b =>
    match s.officeRead n.part (l.graph + BitVec.ofNat 64 (128 * b)) 128 with
    | .error _ => false
    | .ok v =>
      let q := BitVec.ofNat 1024 v
      recKind q == kLoop && !(decide (recSucc r 0 ≤ recSucc q 0) && decide (recSucc q 0 ≤ recSucc q 1) &&
        decide (recSucc q 1 ≤ recSucc r 1))

/-- The reads of the records of a LOOP's body find the errors of their units (14 R271). -/
def State.findBody (s : State) (n : NodeRef) (r : BitVec 1024) : State :=
  match s.launch n.part n.launch with
  | none => s
  | some l => s.findReads n.part ((loopBody r).map fun b => (l.graph + BitVec.ofNat 64 (128 * b), 128))

/-- An iteration of a LOOP starts (R393). -/
def State.iterate (s : State) (n : NodeRef) (r : BitVec 1024) : State :=
  match s.launch n.part n.launch with
  | none => s
  | some l =>
    let s := s.modNode n fun x => { x with status := .running, iter := x.iter + 1 }
    let s := (loopBody r).foldl (fun s b =>
      s.modNode { n with node := b } fun x => x.again (s.predOf l n.part b)) s
    (s.applyEdge n (recSucc r 0)).wake

/-- A LOOP decides by its decision word (R393). -/
def State.decideLoop (s0 : State) (n : NodeRef) (r : BitVec 1024) (w : Word) : State :=
  let x := s0.nodeInfo n
  let s := s0.findBody n r
  if x.iter = 0 ∧ s.badNest n r then s.endNode n (.fail { status := badrec, cause := 0, detail := 0, orig := none })
  else if w ≠ 0 ∧ x.iter < recLmax r then s.iterate n r
  else s.endNode n (.ok (if w ≠ 0 then 7 else 0) w [2])

/-- A control node is decided (R390, R391). -/
def State.decideNode (s0 : State) (n : NodeRef) : State :=
  let r := (s0.nodeInfo n).record
  let s := if recDecides r then s0.hubFind n.part (recCaddr r) 8 else s0
  if recKind r = kEnd then s.endNode n { Ending.ok 0 0 [] with isEnd := true }
  else match s.officeRead n.part (recCaddr r) 8 with
    | .error (c, a) => s.endNode n (.fail { status := sysfail, cause := c, detail := a, orig := none })
    | .ok v =>
      let w := BitVec.ofNat 64 v
      if recKind r = kCond then s.endNode n (.ok 0 w [if v = 0 then 1 else 0])
      else if recKind r = kSwitch then
        if v < 8 ∧ recSucc r v ≠ noSucc then s.endNode n (.ok 0 w [v]) else s.endNode n (.ok 6 w [])
      else s.decideLoop n r w

/-- A control node is to be decided in this hub cycle. -/
def State.controlDue (s : State) : Bool :=
  s.partKeys.any s.controlReady

/-! ## Members that stop -/

/-- Accesses that outlive their context: writes and atomics of S, whose words have retired, and those of V and X that are POSTed, unless
they have failed. -/
def Access.outlives (a : Access) : Bool :=
  a.isWrite && match a.agent with
    | .stream _ st => (st == .s || a.posted) && !a.failed
    | _ => true

/-- A context that stops: what is in flight is discarded, and nothing waits any more. -/
def Ctx.dropWork (c : Ctx) : Ctx :=
  { c.eachStr fun _ x => { x with gfw := false, passEnd := false, halted := false } with
    flights := [], pops := [], ops := [], sops := [], fences := []
    slots := c.slots.map fun p => (p.1, { p.2 with now := { p.2.now with win := [] }, stopped := none })
    csrBase := [], csrLog := [], prefetch := [], rbNow := none
    initRead := none, xcpy2 := none, rwpost := none, barrier := none, arrived := false, released := false, atFence := false
    halting := false, cut := none, late := [], csrPend := [], lqWait := false, lqGot := none, hubRank := none, hold := .finished }

/-- A partition reset empties queues, channels, tokens and loop levels as well (27 R463). -/
def Ctx.emptied (c : Ctx) : Ctx :=
  { c.eachStr fun _ x => { x with lc0 := 0, lc1 := 0 } with
    dq := [], vq := [], chan := [], tokens := List.replicate 16 0, lii := 0 }

/-- An access of a context. -/
def Access.of (a : Access) (c : CtxRef) : Bool := a.ofCtx c true || a.ofCtx c false

/-- The accesses of a context that stops, but for those that outlive it. -/
def State.dropAccs (s : State) (c : CtxRef) : State :=
  { s with accs := (s.accs.filter fun a => !a.of c || a.outlives).map fun a =>
      if a.of c then { a with sink := .none, left := true } else a }

/-- The transfers that a context has posted do not take place any more. -/
def State.dropPosted (s : State) (c : CtxRef) : State :=
  s.modHub fun h => { h with posted := h.posted.filter fun p => !(p.pkg == s.cfg.package && p.sender == c) }

/-- A context stops, and so do its transfers. -/
def State.stopCtx (s : State) (c : CtxRef) : State := ((s.modCtx c Ctx.dropWork).dropPosted c).dropAccs c

/-- A member of a node stops; a parked one has no access under way. -/
def State.stopMember (s : State) (n : NodeRef) (c : CtxRef) : State :=
  if (s.ctx c).runs n then s.stopCtx c else (s.modMember n c Ctx.dropWork).dropPosted c

/-- Every access and operation of the contexts is finished (18 R360). -/
def State.teamQuiet (s : State) (cs : List CtxRef) : Bool :=
  cs.all fun c => s.accs.all (fun a => !a.of c) && (s.ctx c).ops.all fun o => !o.active

/-- What a node's stopped runs have left under way is acknowledged (18 R360). -/
def State.leftQuiet (s : State) (n : NodeRef) : Bool :=
  (s.nodeInfo n).left.all fun p => s.accs.all fun a => !(a.left && a.of p.1 && decide (a.rank < p.2))

/-! ## Dual runs (R402) -/

/-- One byte into CRC-64 with the polynomial 0x42F0_E1EB_A9EA_3693, unreflected. -/
def crcBits (crc : Word) : Nat → Word
  | 0 => crc
  | n + 1 => crcBits (if bitOf crc 63 then (crc <<< 1) ^^^ 0x42F0E1EBA9EA3693#64 else crc <<< 1) n

/-- The CRC of bytes. -/
def crc64 : Word → List Byte → Word
  | crc, [] => crc
  | crc, b :: r => crc64 (crcBits (crc ^^^ ((b.setWidth 64 : Word) <<< (56 : Nat))) 8) r

/-- Inserts a region by base, ties by ID. -/
def insertRegion (g : Region) : List Region → List Region
  | [] => [g]
  | h :: r => if [g.base, g.id] ≤ [h.base, h.id] then g :: h :: r else h :: insertRegion g r

/-- The write regions of a node in virtual memory, in the order of the signature. -/
def NodeInfo.signed (x : NodeInfo) : List Region := (x.regions.filter fun g => g.space == 0 && g.writes).foldr insertRegion []

/-- The reads of the signature in memory find the errors of their units (14 R271). -/
def State.findSigned (s : State) (n : NodeRef) : State :=
  s.findReads n.part ((s.nodeInfo n).signed.map fun g => (BitVec.ofNat 64 g.base, g.len))

/-- The bytes of a region as one run saw them: in memory, or on scratch. -/
def State.dualBytes (s : State) (part : Nat) (scratch : Option Nat) (g : Region) : Except (Cause × Word) (List (Byte × Bool)) :=
  match scratch with
  | none => s.hubRead part (BitVec.ofNat 64 g.base) g.len
  | some k => .ok ((Table.get s.scratch (Memory.blank 0) k).readP g.base g.len)

/-- The signature of a run. -/
def State.signature (s : State) (n : NodeRef) (scratch : Option Nat) : Except (Cause × Word) Word := do
  let bs ← (s.nodeInfo n).signed.mapM fun g => s.dualBytes n.part scratch g
  pure (crc64 0 (bs.flatten.map (·.1)))

/-- Adds to the suspicion score of a cell (26 R455). -/
def State.suspect (s : State) (cell k : Nat) : State := s.modCell cell fun l => l.suspect k

def State.suspectTeam (s : State) (team : List CtxRef) (k : Nat) : State := team.foldl (fun s c => s.suspect c.cell k) s

/-- The majority's scratch regions go over the primary's. -/
def State.repair (s : State) (n : NodeRef) (k : Nat) : State :=
  (s.nodeInfo n).signed.foldl (fun s g =>
    match s.hubWrite n.part (BitVec.ofNat 64 g.base) ((Table.get s.scratch (Memory.blank 0) k).readP g.base g.len) with
    | .ok t => t
    | .error _ => s) s

/-- The scratch memories of a node go back to firmware. -/
def State.freeScratch (s : State) (n : NodeRef) : State :=
  let ks := (s.nodeInfo n).scratches
  { s with scratch := s.scratch.filter fun p => !ks.contains p.1 }

/-- The first two runs differ: a third one is to decide. -/
def State.thirdRun (s : State) (n : NodeRef) (a b : Word) : State :=
  ((s.freeTeams n).modNode n fun x => { x with status := .ready, readyAt := s.hub.time, raised := 0, sigs := [a, b] }).modCounts fun k =>
    { k with dualMiss := satAdd32 k.dualMiss 1 }

/-- The runs of a DUAL node have ended. -/
def State.endDual (s : State) (n : NodeRef) : State :=
  let x := s.nodeInfo n
  let fault (s : State) (e : Cause × Word) : State :=
    (s.freeScratch n).endNode n (.fail { status := sysfail, cause := e.1.code, detail := e.2, orig := none })
  match x.sigs with
  | [a, b] =>
    match s.signature n (x.scratches[1]?) with
    | .error e => fault s e
    | .ok c =>
      if c = a then ((s.suspectTeam (x.teams.getD 1 []) 64).freeScratch n).endNode n (.ok 3 a allSuccs)
      else if c = b then
        (((s.repair n (x.scratches.getD 0 0)).suspectTeam (x.teams.getD 0 []) 64).freeScratch n).endNode n (.ok 3 b allSuccs)
      else ((s.suspectTeam x.contexts 16).freeScratch n).endNode n (.fail { status := 4, cause := 0, detail := 0, orig := none })
  | _ =>
    let t := s.findSigned n
    match t.signature n none, t.signature n (x.scratches[0]?) with
    | .ok a, .ok b => if a = b then (t.freeScratch n).endNode n (.ok 0 a allSuccs) else t.thirdRun n a b
    | .error e, _ => fault t e
    | _, .error e => fault t e

/-! ## NODE_COMPLETION (R395) -/

/-- A failure of fused code that ends in an unspliced run (22 R417). -/
def Failure.reruns (f : Failure) : Bool := f.status == 1 && (f.cause == Cause.poison.code || f.cause == Cause.katfail.code)

/-- A member of a node still has work. -/
def Ctx.atWork (c : Ctx) : Bool := c.hold != .finished || !c.ops.isEmpty

/-- The end of a failed node: its members stop first, with what they have under way, and the record waits for the writes that outlive
them (18 R360). -/
def State.endFailed (s : State) (n : NodeRef) (f : Failure) : State :=
  let cs := s.running n
  if cs.any fun c => (s.member n c).atWork then cs.foldl (fun s c => s.stopMember n c) s
  else if !s.teamQuiet (cs.filter fun c => (s.ctx c).runs n) || !s.leftQuiet n then s
  else
    let s := s.freeScratch n
    match (s.nodeInfo n).partner with
    | none => s.endNode n (.fail f)
    | some k =>
      let c : NodeRef := { n with node := k }
      match s.failureOf c with
      | some g => s.endNodes [(n, .fail f), (c, .fail g)]
      | none => if f.orig = some k then (s.retireNode n).endNode c (.fail f) else (s.retireNode c).endNode n (.fail f)

/-- Every member of a node has retired its halt bundle, and all its accesses are finished. -/
def State.kernelDone (s : State) (n : NodeRef) : Bool :=
  let cs := s.running n
  !cs.isEmpty && cs.all (fun c => (s.ctx c).runs n && (s.ctx c).hold == .finished) && s.teamQuiet cs && s.leftQuiet n

/-- The end of a kernel node: a spliced pair writes both records in one hub cycle (22 R416). -/
def State.endKernel (s : State) (n : NodeRef) : State :=
  let x := s.nodeInfo n
  if recDual x.record then s.endDual n
  else match x.partner with
    | none => s.endNode n (.ok 0 0 allSuccs)
    | some c => s.endNodes [(n, .ok 0 0 []), ({ n with node := c }, .ok 0 0 allSuccs)]

/-- A unit of the hub works on a node: the copy engine or the scan unit (R383). -/
def State.atUnit (s : State) (n : NodeRef) : Bool := s.unitNode unitCopy == some n || s.unitNode unitScan == some n

/-- NODE_COMPLETION: a control node is decided in the hub cycle in which it is due; once the submissions of the cycle are made, every
other node ends in the next one (R388, R390; log 98). -/
def execNodeCompletion (node : NodeRef) (s : State) : Host.Outcome State Fault Refusal :=
  let x := s.nodeInfo node
  .next (if !x.live || x.consumer || s.atUnit node then s
  else if s.decisionDue node x then s.decideNode node
  else if s.hub.shut then s
  else
    match s.failureOf node with
    | some f => if x.splice.isSome && f.reruns && !(s.running node).isEmpty then s else s.endFailed node f
    | none => if x.status = .running ∧ s.kernelDone node then s.endKernel node else s)

/-! ## Nodes that run again (22 R417, 12 R251) -/

/-- What the members of a node have issued so far: their contexts, with the rank below which it lies. -/
def State.leftovers (s : State) (n : NodeRef) : List (CtxRef × Nat) := (s.running n).map fun c => (c, s.nextId)

/-- The members of a node stop, and it is ready again; slots already released stay released. Its record will wait for the writes that the
stopped run has left under way (18 R360). -/
def State.rerun (s : State) (n : NodeRef) : State :=
  let cs := s.running n
  let rest := s.leftovers n
  let s := (cs.foldl (fun s c => s.stopMember n c) s).freeScratch n
  let s := s.freeTeams n
  let s := s.modHub fun h => { h with fails := h.fails.filter fun p => p.1 != n }
  s.modNode n fun x => { x with
    status := .ready, readyAt := s.hub.time, raised := 0, teams := [], sigs := [], scratches := [], left := x.left ++ rest }

/-- A spliced pair runs again as two ordinary nodes: C waits for P's completion and keeps the edges that start at it (21 R388), and
neither is spliced again in this launch. -/
def State.rerunApart (s : State) (n : NodeRef) (c : Nat) : State :=
  let k : NodeRef := { n with node := c }
  let rest := s.leftovers n
  let s := s.rerun n
  let s := s.modPart n.part fun p => { p with splrerun := satAdd32 p.splrerun 1 }
  let s := s.modNode n fun x => { x with splice := none, partner := none, apart := true }
  s.modNode k fun x => { x with
    status := .waiting, count := 1, derived := x.derived ++ [n], teams := [], splice := none, partner := none, consumer := false, apart := true,
    left := x.left ++ rest }

/-- A node that has become ready again in a launch that takes no further node is dropped (R394). -/
def State.dropIfEnded (s : State) (n : NodeRef) : State :=
  match s.launch n.part n.launch with
  | some l => if l.ended then (s.dropRest n.part n.launch none).finishIfOver n.part n.launch else s
  | none => s

/-- A node that runs is run again. -/
def State.runAgain (s : State) (n : NodeRef) : State :=
  let t := match (s.nodeInfo n).partner with
    | some c => s.rerunApart n c
    | none => s.rerun n
  (t.dropIfEnded n).wake

/-- UNSPLICED_RERUN (22 R417). -/
def execUnsplicedRerun (node : NodeRef) (s : State) : Host.Outcome State Fault Refusal :=
  let x := s.nodeInfo node
  .next (match s.failureOf node with
    | some f => if x.status = .running ∧ !x.consumer ∧ x.splice.isSome ∧ f.reruns then s.runAgain node else s
    | none => s)

/-- FIRMWARE_RERUN (12 R251): firmware answers a system cause with a fresh run of the node. -/
def execFirmwareRerun (c : CtxRef) (s : State) : Host.Outcome State Fault Refusal :=
  .next (s.byFirmware <| if (s.ctx c).hold = .firmware then
    match (s.ctx c).running with
    | some r => s.runAgain r.node
    | none => s
  else s)

/-! ## COPY nodes (R383, 16 R308 to R310) -/

/-- The space that a COPY node reaches: the shared store or virtual memory. -/
def copyReach (sp : Space) : Bool := sp == .ss || sp == .vm

/-- The parts of ranges one after another. -/
def State.copyParts (s : State) (part : Nat) (u : Use) : Nat → List Seg → Except (Cause × Word) (List Part)
  | _, [] => .ok []
  | pos, g :: r => do
    let a ← if g.space = .ss then .ok ((ssParts (64 * Config.copyDie) g.addr g.len).map (Part.shift pos))
      else s.hubParts part u pos (piecesOf g.addr g.len)
    let b ← s.copyParts part u (pos + g.len) r
    pure (a ++ b)

/-- The hub TLB takes the pages of a row. -/
def State.copyTouch (s : State) (part : Nat) (l : List Seg) : State :=
  (l.filter fun g => g.space == .vm).foldl (fun s g => s.hubTouch part (BitVec.ofNat 64 g.addr) g.len) s

/-- The copy engine has done something, or is free. -/
def State.setCopy (s : State) (r : Option CopyRun) : State := s.modHub fun h => { h with copy := r }

/-- The COPY node fails, and the engine is free: the rows before stand. -/
def State.copyFails (s : State) (n : NodeRef) (status cause : Nat) (d : Word) : State :=
  (s.setCopy none).endNode n (.fail { status := status, cause := cause, detail := d, orig := none })

/-- The ranges of a row that it reads, or writes. -/
def CopyReq.side (q : CopyReq) (i : Nat) (w : Bool) : List Seg := ((q.ranges i).filter fun p => p.1 == w).map (·.2)

/-- The bytes that a row writes: a converting COPY node belongs to no context, so no `POISONMODE` applies to it; what derives from a
poisoned unit or side word is marked (DESIGN CHOICE, log 82). -/
def copyRowOut (q : CopyReq) (r : CopyRun) : List (Byte × Bool) :=
  let n := ((q.side r.row false).map (·.len)).sum
  let l := (List.range n).map fun k => Table.get r.buf (0, false) k
  if q.ce then
    let x := convRow q.cv (copyRm q.rm) (fun e => (Config.copyRandom (r.draw + r.row * q.len + e)).toNat) (l.take q.len) (l.drop q.len)
    x.main ++ x.side
  else l

/-- The rows of a copy. -/
def CopyReq.count (q : CopyReq) : Nat := if q.len = 0 then 0 else q.rows

/-- The next step of the copy engine on a COPY node, row by row: it reads a row, it writes what it has read, it goes on; the node ends
once every write is acknowledged (18 R360). -/
def State.copyStep (s : State) (n : NodeRef) (q : CopyReq) (r : CopyRun) : State :=
  if !s.unitQuiet unitCopy then s
  else match s.failureOf n with
    | some f => s.copyFails n f.status f.cause f.detail
    | none =>
      if q.count ≤ r.row then (s.setCopy none).endNode n (.ok 0 0 allSuccs)
      else if r.writing then s.setCopy (some { r with row := r.row + 1, busy := false, writing := false, buf := [] })
      else if r.busy then
        match s.copyParts n.part .write 0 (q.side r.row true) with
        | .error (c, a) => (s.noteHubMiss n.part a).copyFails n sysfail c.code a
        | .ok ps => ((s.copyTouch n.part (q.side r.row true)).setCopy (some { r with writing := true })).postParts (.hub unitCopy n.part) .write (fun _ => .none)
            (fun k => (copyRowOut q r).getD k (0, false)) ps
      else
        match s.copyParts n.part .read 0 (q.side r.row false) with
        | .error (c, a) => (s.noteHubMiss n.part a).copyFails n sysfail c.code a
        | .ok ps => ((s.copyTouch n.part (q.side r.row false)).setCopy (some { r with busy := true })).postParts (.hub unitCopy n.part) .read (fun k => .copy k)
            (fun _ => (0, false)) ps

/-- The checks of a COPY node over one row, as X makes them for XCPY (R309, R303). -/
def State.copyFaultHub (s : State) (r : CopyReq) (i : Nat) : Option (Cause × Word) :=
  ({ s with cur := { cell := 0, bank := .a } }).copyFault r i

/-- The copy engine takes a COPY node: its descriptor is read and checked. -/
def State.startCopyNode (s0 : State) (n : NodeRef) : State :=
  let a := recImage (s0.nodeInfo n).record
  let s := s0.hubFind n.part a 64
  match s.officeRead n.part a 64 with
  | .error (c, d) => s.copyFails n sysfail c d
  | .ok v =>
    let q := copyOfDesc 0 v
    if (copyDescBad v).isSome ∨ !copyReach q.ssp ∨ !copyReach q.dsp then s.copyFails n badrec 0 0
    else match (List.range q.count).findSome? (s.copyFaultHub q) with
      | some (c, d) => s.copyFails n 1 c.code d
      | none =>
        let t := s.modNode n fun x => { x with status := .running, startAt := s.hub.time }
        ({ t with freeCount := t.freeCount + q.count * q.len }).setCopy
          (some { job := .node n v, row := 0, busy := false, writing := false, buf := [], draw := s.freeCount })

/-- COPY_NODE (R383): the copy engine takes the node once it is free, unless its launch is pre-empted (02 R46), and goes on with it. -/
def execCopyNode (node : NodeRef) (s : State) : Host.Outcome State Fault Refusal :=
  let x := s.nodeInfo node
  .next (if s.hub.shut then s else match s.hub.copy with
    | some r => match r.job with
      | .node n v => if n = node then s.copyStep n (copyOfDesc 0 v) r else s
      | .page .. => s
    | none => if x.status ≠ .ready ∨ recKind x.record ≠ kCopy ∨ (s.failureOf node).isSome || s.barred node then s else s.startCopyNode node)

end Sys2Proof.Machine
end

