-- ==== Sys2Proof/Machine/Preempt.lean ====
section
/-!
DEFINITION. Pre-emption: at node boundaries, by an urgent request, the exchange with shadow storage and the way back (02 R46 to
R50, 12 R254 to R256, 21 R401).
-/
namespace Sys2Proof.Machine

/-- The cells of a partition. -/
def State.cellsOf (s : State) (part : Nat) : List Nat := (List.range 256).filter fun n => (s.cell n).part == some part

/-- The two contexts of a cell. -/
def ctxsOf (cell : Nat) : List CtxRef := [{ cell := cell, bank := .a }, { cell := cell, bank := .b }]

/-- The contexts of a partition. -/
def State.contextsOf (s : State) (part : Nat) : List CtxRef := ((s.cellsOf part).map ctxsOf).flatten

/-! ## Node boundaries (R46) -/

/-- The launches of a partition that exist now take no new node. -/
def State.preemptNodes (s : State) (part : Nat) : State :=
  s.modPart part fun p => { p with preempted := some p.nextLaunch, urgent := none }

/-- NODE_BOUNDARY_PREEMPTION. -/
def execNodeBoundaryPreemption (part : Nat) (s : State) : Host.Outcome State Fault Refusal := .next (s.byFirmware (s.preemptNodes part))

/-! ## Urgent requests (R48, R49, 12 R256, 21 R401) -/

/-- The cell's shadow storage holds a pre-empted image. -/
def Cell.holdsImage (l : Cell) : Bool := l.shadow.any fun i => !i.power

/-- A node of the partition runs that is not to be held at a generation fence. -/
def State.runsClass0 (s : State) (part : Nat) : Bool :=
  (s.nodesOf part).any fun p => p.2.status == .running && recKind p.2.record == kKernel && recPclass p.2.record == 0

/-- URGENT_PREEMPTION: the request stands, or it becomes one at node boundaries. -/
def execUrgentPreemption (part : Nat) (s : State) : Host.Outcome State Fault Refusal :=
  .next (s.byFirmware <| if (s.part part).urgent.isSome then s
  else if s.runsClass0 part || (s.cellsOf part).any fun n => (s.cell n).holdsImage then s.preemptNodes part
  else s.modPart part fun p => { p with urgent := some s.hub.time })

/-! ## The exchange (R48, R50, 12 R254) -/

/-- A context runs no node, or stands at a generation fence with nothing under way. -/
def State.atRest (s : State) (c : CtxRef) : Bool :=
  let x := s.ctx c
  x.running.isNone || (x.atFence && x.hold == .free && x.cut.isNone && s.drained c && s.teamQuiet [c])

/-- A cell of a partition is held: its contexts are at rest, or it is parked for power (12 R256). -/
def State.cellHeld (s : State) (n : Nat) : Bool := (s.cell n).gated || (ctxsOf n).all s.atRest

/-- Every cell of a partition with an urgent request is held: the exchange takes place now. -/
def State.exchangeDue (s : State) (part : Nat) : Bool := (s.part part).urgent.isSome && (s.cellsOf part).all s.cellHeld

/-- `URGENT_LIMIT` has passed, and not every cell is held (R49). -/
def State.limitOver (s : State) (part : Nat) : Bool :=
  (s.part part).urgent.any (fun t => decide (t + (s.part part).urgLimit * hubMicro ≤ s.hub.time)) && !s.exchangeDue part

/-- URGENT_LIMIT_EXPIRY: held contexts are released, and the request becomes one at node boundaries. -/
def execUrgentLimitExpiry (part : Nat) (s : State) : Host.Outcome State Fault Refusal :=
  .next (if s.limitOver part then s.preemptNodes part else s)

/-- An exchange or an expiry is due in the present hub cycle. -/
def State.urgentDue (s : State) : Bool := s.partKeys.any fun p => s.exchangeDue p || s.limitOver p

/-- The regions that a context's node retains in a space, those of the consumer of a spliced pair among them (12 R255). -/
def State.retainedRegions (s : State) (r : Running) : List Region :=
  let c := match r.consumer with
    | some k => (s.nodeInfo { r.node with node := k }).regions
    | none => []
  ((s.nodeInfo r.node).regions ++ c).filter fun g => g.retained && (g.space == 1 || g.space == 2)

/-- The retained regions of a context in WB and AB: their place in the cell's buffer and their length. -/
def State.retained (s : State) (c : CtxRef) : List (Space × Nat × Nat) :=
  match (s.ctx c).running with
  | none => []
  | some r => (s.retainedRegions r).map fun g =>
      let sp : Space := if g.space = 1 then .ab else .wb
      (sp, bufBase (s.cell c.cell).pair c.bank sp + g.base, min g.len (s.limit c sp - g.base))

/-- Where the bytes of a region stand in device HBM meanwhile: AB first, WB 2 MiB above (DESIGN CHOICE, log 84). -/
def keptAt (cell : Nat) (k : Space × Nat × Nat) : Nat :=
  Config.retainBase % (hbmSize - 2 ^ 30) + 2 ^ 22 * cell + (if k.1 = .wb then 2 ^ 21 else 0) + k.2.1

/-- The copy engine writes a region of WB or AB to device HBM. -/
def State.writeBack (s : State) (cell : Nat) (k : Space × Nat × Nat) : State :=
  let t := s.eccRead (k.1.memRef cell) k.2.1 k.2.2 (some cell)
  let m := if k.1 = .wb then (t.cell cell).wb else (t.cell cell).ab
  { t with hbm := t.hbm.store (keptAt cell k) ((m.readP k.2.1 k.2.2).map some) }

/-- A context as an image holds it: cached translations do not travel, and no iteration of a pass before the exchange rolls back any more
(08 R192). -/
def Ctx.parked (c : Ctx) : Ctx := c.forgetIterations.eachStr fun _ x => { x with tlb := [] }

/-- A context of a cell that is idle after an exchange. -/
def Ctx.idle (c : Ctx) : Ctx := { Ctx.init with part := c.part }

/-- A cell exchanges its live contexts and CB with shadow storage, which brings it in idle (R50, 12 R254), and its retained regions go to
device HBM. -/
def State.park (s0 : State) (n : Nat) (power : Bool) : State :=
  let a : CtxRef := { cell := n, bank := .a }
  let b : CtxRef := { cell := n, bank := .b }
  let kept := s0.retained a ++ s0.retained b
  let s := kept.foldl (fun s k => s.writeBack n k) s0
  let i : Image := { a := (s.ctx a).parked, b := (s.ctx b).parked, cb := (s.cell n).cb, kept := kept, power := power }
  let s := (s.modCtx a Ctx.idle).modCtx b Ctx.idle
  s.modCell n fun l => { l with shadow := some i, cb := Memory.blank 0 }

/-- The cell reloads its retained regions: they come from device HBM, and every other byte of WB, of AB and of the plane stores reads 0xFF
(R50, 12 R255, 15 R283). -/
def State.reload (s : State) (n : Nat) (kept : List (Space × Nat × Nat)) : State :=
  let t := s.modCell n fun l => { l with
    ab := Memory.blank 0xFF, wb := Memory.blank 0xFF, plane0 := Memory.blank 0xFF, plane1 := Memory.blank 0xFF }
  kept.foldl (fun s k =>
    let u := s.eccRead .hbm (keptAt n k) k.2.2 (some n)
    let l := (u.hbm.readP (keptAt n k) k.2.2).map some
    u.modCell n fun x => if k.1 = .wb then { x with wb := x.wb.store k.2.1 l } else { x with ab := x.ab.store k.2.1 l }) t

/-- The errors of a cell's shadow storage, which the exchange finds in the image that it brings in: a single bad bit is corrected, an
uncorrectable unit is counted (14 R276). -/
def State.checkImage (s : State) (n : Nat) : State :=
  (s.upsets.filter fun u => u.mem == .shadow n).foldl (fun t u => t.errorFound none u)
    { s with upsets := s.upsets.filter fun u => u.mem != .shadow n }

/-- The image of a cell has an uncorrectable unit. -/
def State.imageBad (s : State) (n : Nat) : Bool := s.upsets.any fun u => u.mem == .shadow n && u.double

/-- The nodes that a context runs: a spliced pair is two. -/
def Running.nodes (r : Running) : List NodeRef := r.node :: (r.consumer.map fun k => { r.node with node := k }).toList

/-- The nodes of the contexts of an image fail with SYSFAIL (14 R276, 27 R472). -/
def State.failParked (s : State) (i : Image) : State :=
  ([i.a, i.b].map fun x => (x.running.map Running.nodes).getD []).flatten.foldl (fun s n =>
    if (s.failureOf n).isNone then s.nodeFails n sysfail 0 0 else s) s

/-- The parked image comes back (12 R255). Where a unit of it is uncorrectable, the nodes of both its contexts fail, since the unit is not
known to belong to one of them, and the cell comes in idle (14 R276; DESIGN CHOICE, log 83). -/
def State.unpark (s0 : State) (n : Nat) : State :=
  match (s0.cell n).shadow with
  | none => s0
  | some i =>
    let s := (s0.checkImage n).reload n i.kept
    if s0.imageBad n then (s.failParked i).modCell n fun l => { l with shadow := none }
    else
      let s := (s.setCtx { cell := n, bank := .a } i.a).setCtx { cell := n, bank := .b } i.b
      s.modCell n fun l => { l with shadow := none, cb := i.cb }

/-- SHADOW_EXCHANGE: every cell of the partition is held; a cell parked for power makes no exchange, and its image counts as the
pre-empted one. -/
def execShadowExchange (part : Nat) (s : State) : Host.Outcome State Fault Refusal :=
  .next (if !s.exchangeDue part then s
  else
    let one (s : State) (n : Nat) : State :=
      match (s.cell n).shadow with
      | some i => s.modCell n fun l => { l with shadow := some { i with power := false } }
      | none => s.park n false
    ((s.cellsOf part).foldl one s).modPart part fun p => { p with urgent := none, preempted := some p.nextLaunch, parked := true })

/-- No node runs on a cell. -/
def State.cellFree (s : State) (n : Nat) : Bool := (ctxsOf n).all fun c => (s.ctx c).running.isNone

/-- PREEMPT_RESUME: parked work comes back on its own cells, which must be free and under no targeted test (26 R456); a power-gated cell
wakes. -/
def execPreemptResume (part : Nat) (s : State) : Host.Outcome State Fault Refusal :=
  let cells := (s.cellsOf part).filter fun n => (s.cell n).holdsImage
  .next (s.byFirmware <| if (s.part part).preempted.isNone then s
  else if !cells.all fun n => s.cellFree n && !(s.cell n).testing then s
  else
    let one (s : State) (n : Nat) : State :=
      (s.unpark n).modCell n fun l => if l.power = .c2 then { l with power := .p0 } else l
    ((cells.foldl one s).modPart part fun p => { p with preempted := none, parked := false }).wake)

end Sys2Proof.Machine
end

