-- ==== Sys2Proof/Machine/Join.lean ====
section
/-!
DEFINITION. The join unit, the backward scan unit, the learner queue and the dead-letter ring, and the words of S that speak to
them (20 R375 to R380, 23 R418 to R437).
-/
namespace Sys2Proof.Machine

/-! ## Accessors -/

/-- The partition that `JOWNER` names, and whether EN is set (R423). -/
def Join.part (j : Join) : Nat := bits j.owner 0 3
def Join.en (j : Join) : Bool := bitOf j.owner 3

/-- A partition owns the join. -/
def State.ownsJoin (s : State) (part : Nat) : Bool := s.hub.join.en && s.hub.join.part == part

/-- OPEN, CLOSED or COMPLETE. -/
def JoinEntry.live (e : JoinEntry) : Bool := e.state == .opened || e.state == .closed || e.state == .complete

/-- The probe window of an id (R422). -/
def joinHash (id : Word) : Nat := (bits id 0 16 ^^^ bits id 16 16) ^^^ (bits id 32 16 ^^^ bits id 48 16)
def window (id : Word) : List Nat := (List.range 8).map fun k => (joinHash id + k) % 65536

/-- The live entry of an id. -/
def State.findLive (s : State) (id : Word) : Option Nat :=
  (window id).find? fun e => (s.entry e).live && (s.entry e).id == id

/-- A deadline in microseconds from now; 0 never passes (R423). -/
def State.deadlineIn (s : State) (us : Nat) : Option Nat := if us = 0 then none else some (s.hub.time + us * hubMicro)

/-! ## Record arrays (R418, R419) -/

def JoinEntry.rewardAt (e : JoinEntry) (i : Nat) : Word := e.addr + BitVec.ofNat 64 (64 + 4 * e.t + 4 * i)

/-- The received map of an entry, in device HBM (R421). -/
def State.mapByte (s : State) (e i : Nat) : Nat := s.hub.join.stnow.toNat + 512 * e + i / 8

def State.received (s : State) (e i : Nat) : Bool := bitOf (s.hbm.read (s.mapByte e i)) (i % 8)

/-- The read of a byte of the map finds the errors of its unit (14 R271). -/
def State.findMap (s : State) (e i : Nat) : State := s.eccRead .hbm (s.mapByte e i) 1 none

def State.markReceived (s : State) (e i : Nat) : State :=
  let a := s.mapByte e i
  let b := BitVec.ofNat 8 (putBits (s.hbm.read a).toNat (i % 8) 1 1)
  let t := s.findMap e i
  { t with hbm := t.hbm.store a [some (b, false)] }

def State.clearMap (s : State) (e : Nat) : State :=
  { s with hbm := s.hbm.store (s.mapByte e 0) (List.replicate 512 (some (0, false))) }

/-- A reward is written at a step of an entry; a fault is counted and leaves the step unreceived (R428). -/
def State.putReward (s : State) (e i : Nat) (v : BitVec 32) : State × Bool :=
  match s.hubWrite s.hub.join.part ((s.entry e).rewardAt i) (numBytes v.toNat 4) with
  | .error (_, a) => ((s.noteHubMiss s.hub.join.part a).jcount 14 1, false)
  | .ok t => ((t.markReceived e i).modEntry e fun x => { x with nrec := x.nrec + 1 }, true)

/-- An entry is COMPLETE once every step is received. -/
def State.completeIfFull (s : State) (e : Nat) : State :=
  let x := s.entry e
  if x.state = .closed ∧ x.nrec = x.t then
    s.modEntry e fun x => { x with state := .complete, ctime := s.hub.time, deadline := none }
  else s

/-! ## Reward messages (R420, R428, 20 R379) -/

def msgId (m : BitVec 256) : Word := BitVec.ofNat 64 (bits m 0 64)
def msgStep (m : BitVec 256) : Nat := bits m 64 32
def msgReward (m : BitVec 256) : BitVec 32 := BitVec.ofNat 32 (bits m 96 32)
def msgBad (m : BitVec 256) : Bool := bits m 192 64 != 0

/-- The step of a terminal reward. -/
def terminalStep : Nat := 0xFFFFFFFF

/-- An orphan goes to the dead-letter ring with its reason and the hub time of its arrival (20 R379). -/
def State.orphan (s : State) (m : Nat × BitVec 256) (reason : Nat) : State :=
  let j := s.hub.join
  let v : BitVec 256 := BitVec.ofNat 256 (putBits m.2.toNat 192 64 (reason * 2 ^ 56 + m.1 % 2 ^ 56))
  let s := if 4096 ≤ (j.dlwr - j.dlrd).toNat then s.jcount 20 1 else s
  (s.jcount (3 + reason) 1).modJoin fun j => { j with
    letters := Table.set j.letters (j.dlwr.toNat % 4096) v
    dlwr := j.dlwr + 1 }

/-- The early pool holds 16,384 messages. -/
def State.poolFull (s : State) : Bool := decide (16384 ≤ s.hub.join.pool.length)

/-- A message meets an entry that is CLOSED or COMPLETE (R428). -/
def State.applyReward (s : State) (e : Nat) (m : Nat × BitVec 256) : State :=
  let x := s.entry e
  let i := if msgStep m.2 = terminalStep ∧ x.kind then x.t - 1 else msgStep m.2
  if x.t ≤ i then s.orphan m 2
  else if s.received e i then (s.findMap e i).jcount 3 1
  else match s.putReward e i (msgReward m.2) with
    | (t, true) => (t.jcount 2 1).completeIfFull e
    | (t, false) => t

/-- A message is to be held: its entry is OPEN and the pool is full. -/
def State.heldMessage (s : State) (m : BitVec 256) : Bool :=
  s.poolFull && !msgBad m && match s.findLive (msgId m) with
    | some e => (s.entry e).state == .opened && (decide (msgStep m < 4096) || msgStep m == terminalStep)
    | none => false

/-- The join unit applies one message (R428). -/
def State.applyMessage (s : State) (m : Nat × BitVec 256) : State :=
  if msgBad m.2 then s.jcount 12 1
  else match s.findLive (msgId m.2) with
    | none =>
      if (window (msgId m.2)).any fun e => (s.entry e).state == .released && (s.entry e).id == msgId m.2 then s.orphan m 3
      else s.orphan m 1
    | some e =>
      if (s.entry e).state = .opened then
        if 4096 ≤ msgStep m.2 ∧ msgStep m.2 ≠ terminalStep then s.orphan m 2
        else s.modJoin fun j => { j with pool := j.pool ++ [m] }
      else s.applyReward e m

/-! ## The order of a hub cycle (R427, 20 R377, R380) -/

/-- The unit may still do what belongs to a phase of the present cycle: 1 intake, 2 requests, 3 deadlines, 4 scan, 5 LQPOP. -/
def Join.mayPhase (j : Join) (n : Nat) : Bool := decide (j.phase ≤ n)

def State.atPhase (s : State) (n : Nat) : State :=
  s.modJoin fun j => { j with phase := n, lastReq := if j.phase = n then j.lastReq else none }

/-- A message can be taken in this cycle: one that is held keeps the others back until a place of the pool frees (R428). -/
def State.intakeDue (s : State) : Bool :=
  s.hub.join.mayPhase 1 && s.hub.join.intake != some s.hub.time && !s.hub.join.rewards.isEmpty && !(s.hub.join.held && s.poolFull)

/-- JOIN_MESSAGE_INTAKE: at most one message in a hub cycle; one that meets a full pool is held at the head of the queue. -/
def execJoinMessageIntake (_part : Nat) (s : State) : Host.Outcome State Fault Refusal :=
  .next (if !s.intakeDue then s
  else match s.hub.join.rewards with
    | [] => s
    | m :: r =>
      if s.heldMessage m.2 then (s.atPhase 1).modJoin fun j => { j with held := true, intake := some s.hub.time }
      else ((s.atPhase 1).modJoin fun j => { j with rewards := r, held := false, intake := some s.hub.time }).applyMessage m)

/-- The inbound reward queue holds 1,024 messages (20 R366). -/
def State.rewardsFull (s : State) : Bool := decide (1024 ≤ s.hub.join.rewards.length)

/-- REWARD_MESSAGE_ARRIVAL: a full queue withholds credits; the arrivals of a hub cycle come in ascending port number, before its RWPOSTs
(20 R366, R367, R380). -/
def execRewardMessageArrival (m : PortMessage) (s : State) : Host.Outcome State Fault Refusal :=
  .next (if 8 ≤ m.port || s.hub.join.lastPost.isSome || s.hub.join.lastPort.any (fun p => decide (m.port < p)) then s
  else s.msgComes m.port .reward s.rewardsFull
    (s.modJoin fun j => { j with rewards := j.rewards ++ [(s.hub.time, m.msg)], lastPort := some m.port }))

/-! ## Deadlines (R426) -/

/-- The deadline of an entry has passed. -/
def State.passed (s : State) (e : JoinEntry) : Bool := e.deadline.any fun d => decide (d ≤ s.hub.time)

/-- The tests of a cycle come after its message and its requests. -/
def State.mayTest (s : State) : Bool := s.hub.join.mayPhase 3 && !s.intakeDue

/-- A deadline is to be tested in this cycle. -/
def State.testsDue (s : State) : Bool :=
  s.hub.join.mayPhase 3 && s.hub.join.entries.any fun p => (p.2.state == .opened || p.2.state == .closed) && s.passed p.2

/-- The unit has done what comes before a phase in the order of the present hub cycle (R427). -/
def State.phaseOpen (s : State) (n : Nat) : Bool := s.hub.join.mayPhase n && !s.intakeDue && (decide (n ≤ 3) || !s.testsDue)

/-- The messages of an entry leave the pool. -/
def State.takePool (s : State) (id : Word) : List (Nat × BitVec 256) × State :=
  (s.hub.join.pool.filter fun m => msgId m.2 == id,
   s.modJoin fun j => { j with pool := j.pool.filter fun m => msgId m.2 != id })

/-- OPEN_DEADLINE: the entry is abandoned, its pool messages are orphans with reason 3. -/
def execOpenDeadline (entry : Nat) (s : State) : Host.Outcome State Fault Refusal :=
  let x := s.entry entry
  .next (if x.state ≠ .opened || !s.passed x || !s.mayTest then s
  else
    let t := (((s.atPhase 3).releaseEntry entry true).jcount 9 1)
    let (ms, t) := t.takePool x.id
    ms.foldl (fun t m => t.orphan m 3) t)

/-- A CLOSED entry's deadline is tested under a close action. -/
def State.closePassed (s : State) (x : JoinEntry) (fill : Bool) : Bool :=
  x.state == .closed && s.passed x && s.mayTest && bitOf s.hub.join.mode 1 == fill

/-- CLOSE_DEADLINE_DROP. -/
def execCloseDeadlineDrop (entry : Nat) (s : State) : Host.Outcome State Fault Refusal :=
  .next (if s.closePassed (s.entry entry) false then ((s.atPhase 3).releaseEntry entry true).jcount 7 1 else s)

/-- CLOSE_DEADLINE_FILL: JFILL at every step not received. -/
def execCloseDeadlineFill (entry : Nat) (s : State) : Host.Outcome State Fault Refusal :=
  .next (if s.closePassed (s.entry entry) true then
    let t := (List.range (s.entry entry).t).foldl (fun (t : State) i =>
      if t.received entry i then t else (t.putReward entry i t.hub.join.fill).1) (s.atPhase 3)
    (t.modEntry entry fun x => { x with
      state := .complete, part_ := true, filled := true, ctime := s.hub.time, deadline := none }).jcount 8 1
  else s)

/-- JHOLD has passed since an entry was released. -/
def State.holdOver (s : State) (x : JoinEntry) : Bool :=
  x.state == .released && s.hub.join.hold != 0 && decide (x.since + s.hub.join.hold * hubMicro ≤ s.hub.time)

/-- JHOLD_EXPIRY. -/
def execJholdExpiry (entry : Nat) (s : State) : Host.Outcome State Fault Refusal :=
  .next (if s.holdOver (s.entry entry) then s.modEntry entry fun _ => JoinEntry.init else s)

/-! ## The scan unit (R430 to R433) -/

/-- The live entries with their numbers. -/
def State.liveEntries (s : State) : List (Nat × JoinEntry) := s.hub.join.entries.filter fun p => p.2.live

/-- The least of a list by a key. -/
def leastBy (key : JoinEntry → List Nat) : List (Nat × JoinEntry) → Option (Nat × JoinEntry)
  | [] => none
  | p :: r =>
    match leastBy key r with
    | none => some p
    | some q => if key p.2 ≤ key q.2 then some p else some q

/-- The episode that the scan unit takes next (R430). -/
def State.nextEpisode (s : State) : Option Nat :=
  let p := if bitOf s.hub.join.mode 0 then (leastBy (fun e => [e.oseq]) s.liveEntries).filter fun p => p.2.state == .complete
    else leastBy (fun e => [e.ctime, e.id.toNat]) (s.liveEntries.filter fun p => p.2.state == .complete)
  p.map (·.1)

/-- A join episode waits for the unit, which is free. -/
def State.episodeWaits (s : State) : Option Nat :=
  if s.hub.join.scan.isNone && s.hub.join.job.isNone && decide (s.hub.join.learner.length < 4096) then s.nextEpisode else none

/-- The SCAN nodes that wait, of launches that are not pre-empted (02 R46): the time at which each became ready. -/
def State.jobsWaiting (s : State) : List (NodeRef × NodeInfo) :=
  ((s.partKeys.map s.nodesOf).flatten).filter fun p =>
    p.2.status == .ready && recKind p.2.record == kScan && (s.failureOf p.1).isNone && !s.barred p.1

/-- The oldest waiting SCAN node. -/
def State.nextJob (s : State) : Option (NodeRef × NodeInfo) :=
  s.jobsWaiting.foldl (fun m p =>
    match m with
    | none => some p
    | some q => if [q.2.readyAt, q.2.order] ≤ [p.2.readyAt, p.2.order] then some q else some p) none

/-- The time at which the oldest waiting episode became COMPLETE. -/
def State.oldestComplete (s : State) : Option Nat :=
  (leastBy (fun e => [e.ctime]) (s.liveEntries.filter fun p => p.2.state == .complete)).map fun p => p.2.ctime

/-- The kind that the unit serves now, where both wait: `true` for a SCAN job (R433). -/
def State.jobFirst (s : State) (j : NodeInfo) : Bool :=
  match s.hub.join.served with
  | some k => !k
  | none => s.oldestComplete.any fun t => decide (j.readyAt < t)

/-- The unit has served a kind; it forgets which once nothing waits. -/
def State.servedKind (s : State) (job : Bool) : State :=
  let more := s.episodeWaits.isSome || s.nextJob.isSome || s.hub.join.scan.isSome || s.hub.join.job.isSome
  s.modJoin fun j => { j with served := if more then some job else none }

/-- One 32-bit value of the record as the unit reads it, and the poisoned units that it meets. -/
def State.scanWord (s : State) (part : Nat) (a : Word) (n : Nat) : Except (Cause × Word) (Nat × List Nat) :=
  match s.hubRead part a n with
  | .error e => .error e
  | .ok l => .ok (if (badUnits a.toNat l).isEmpty then bytesNum l else 0, badUnits a.toNat l)

/-- The parameters of a scan. -/
structure ScanJob where
  part : Nat
  addr : Word
  t    : Nat
  vt   : Nat
  gam  : Nat
  glam : Nat
  deriving DecidableEq, Repr, Inhabited

/-- The address of element i of an array of the record that begins k times T after the header. -/
def ScanJob.at_ (j : ScanJob) (k i w : Nat) : Word := j.addr + BitVec.ofNat 64 (64 + k * j.t + w * i)

/-- One rounding to FP32 (R432). -/
def fmul (a b : Nat) : Nat := (fp32.mul 0 a b).1
def fadd (a b : Nat) : Nat := (fp32.add 0 a b).1
def fneg (a : Nat) : Nat := a % 2 ^ 31 + 2 ^ 31 * (1 - a / 2 ^ 31)

/-- A[t] and G[t] from the values of step t (R432). -/
def scanStep (j : ScanJob) (vn an v r : Nat) : Nat × Nat :=
  let y := fadd r (fmul j.gam vn)
  let a := fadd (fadd y (fneg v)) (fmul j.glam an)
  (a, fadd a v)

/-- The reads of step t of a scan: done, V[t], r[t], and the next V where the step is not done. -/
def State.scanReads (s : State) (j : ScanJob) (i : Nat) : List (Word × Nat) :=
  let done := match s.scanWord j.part (j.at_ 16 i 1) 1 with
    | .ok d => d.1 != 0
    | .error _ => true
  [(j.at_ 16 i 1, 1), (j.at_ 0 i 4, 4), (j.at_ 4 i 4, 4)] ++ if done || i + 1 == j.t then [] else [(j.at_ 0 (i + 1) 4, 4)]

/-- What step t of a scan computes from the next A: A[t] and G[t], and the poisoned units it has met. -/
def State.scanValues (s : State) (j : ScanJob) (i an : Nat) : Except (Cause × Word) (Nat × Nat × List Nat) := do
  let d ← s.scanWord j.part (j.at_ 16 i 1) 1
  let v ← s.scanWord j.part (j.at_ 0 i 4) 4
  let r ← s.scanWord j.part (j.at_ 4 i 4) 4
  let w ← if d.1 ≠ 0 then pure (0, []) else if i + 1 = j.t then pure (j.vt, []) else s.scanWord j.part (j.at_ 0 (i + 1) 4) 4
  let x := scanStep j w.1 (if d.1 ≠ 0 ∨ i + 1 = j.t then 0 else an) v.1 r.1
  pure (x.1, x.2, d.2 ++ v.2 ++ r.2 ++ w.2)

/-- Writes of a step, in order up to the first that does not translate: what stands before it stays. -/
def State.scanWrites (s : State) (part : Nat) : List (Word × Nat) → State × Option (Cause × Word)
  | [] => (s, none)
  | (a, v) :: r =>
    match s.hubPost unitScan part a (numBytes v 4) with
    | .error e => (s.noteHubMiss part e.2, some e)
    | .ok t => t.scanWrites part r

/-- A scan from step i - 1 down to 0; a fault ends it. -/
def State.scanFrom (s0 : State) (j : ScanJob) : Nat → Nat → List Nat → State × List Nat × Option (Cause × Word)
  | 0, _, us => (s0, us, none)
  | i + 1, an, us =>
    let s := s0.findReads j.part (s0.scanReads j i)
    match s.scanValues j i an with
    | .error e => (s, us, some e)
    | .ok (a, g, u) =>
      match s.scanWrites j.part [(j.at_ 8 i 4, a), (j.at_ 12 i 4, g)] with
      | (t, some e) => (t, us ++ u, some e)
      | (t, none) => t.scanFrom j i a (us ++ u)

/-- The scan of a record: it counts the poisoned units and a fault (R432). -/
def State.scan (s : State) (j : ScanJob) : State × Option (Cause × Word) :=
  match s.scanFrom j j.t 0 [] with
  | (t, us, none) => (t.jcount 13 us.eraseDups.length, none)
  | (t, us, some (c, a)) => ((t.jcount 13 us.eraseDups.length).jcount 14 1, some (c, a))

/-- SCAN_TAKE: the staleness test, and the scan of an episode that passes it (R431, R432). -/
def execScanTake (_part : Nat) (s : State) : Host.Outcome State Fault Refusal :=
  .next (match s.episodeWaits with
    | none => s
    | some e =>
      if !s.phaseOpen 4 || s.nextJob.any (fun p => s.jobFirst p.2) then s
      else
        let x := s.entry e
        let d := s.hub.join.lv - x.version
        let s := s.atPhase 4
        if s.hub.join.maxlag < d then ((s.releaseEntry e true).jcount 10 1).servedKind false
        else
          let j : ScanJob := { part := s.hub.join.part, addr := x.addr, t := x.t, vt := x.vt.toNat, gam := s.hub.join.gamma.toNat,
                               glam := s.hub.join.glambda.toNat }
          match s.scan j with
          | (t, some _) => (t.releaseEntry e true).servedKind false
          | (t, none) => (t.modJoin fun j => { j with scan := some (e, d) }).servedKind false)

/-- The release record (20 R375). -/
def releaseRecord (x : JoinEntry) (d : BitVec 32) : BitVec 128 :=
  BitVec.ofNat 128 (x.addr.toNat + 2 ^ 64 * (x.t % 2 ^ 16) + 2 ^ 80 * x.part_.toNat + 2 ^ 81 * x.filled.toNat + 2 ^ 96 * d.toNat)

/-- RELEASE_RECORD_ENTRY (R431): the writes of the scan are acknowledged. -/
def execReleaseRecordEntry (_part : Nat) (s : State) : Host.Outcome State Fault Refusal :=
  .next (match s.hub.join.scan with
    | none => s
    | some (e, d) =>
      if !s.phaseOpen 4 || !s.unitQuiet unitScan then s
      else
        let r := releaseRecord (s.entry e) d
        (((s.atPhase 4).releaseEntry e false).jcount 11 1).modJoin fun j =>
          { j with scan := none, learner := j.learner ++ [r] })

/-- A SCAN descriptor is malformed (R433). -/
def scanDescBad (v : Nat) : Bool := bitsN v 0 6 != 0 || bitsN v 55 9 != 0 || bitsN v 128 384 != 0

/-- The job of a SCAN node: T and VT come from the header. -/
def State.scanJobOf (s : State) (part v : Nat) : Except (Cause × Word) (ScanJob × List Nat) :=
  let addr : Word := BitVec.ofNat 64 (bitsN v 0 64)
  match s.hubRead part addr 64 with
  | .error e => .error e
  | .ok l =>
    let h := ofBytes ((List.range 64).map fun k =>
      if (badUnits addr.toNat l).contains ((addr.toNat + k) / 8 * 8) then (0 : Byte) else (l.getD k (0, false)).1)
    .ok ({ part := part, addr := addr, t := bitsN h 96 16, vt := bitsN h 128 32, gam := bitsN v 64 32, glam := bitsN v 96 32 },
      badUnits addr.toNat l)

/-- The scan unit has started on a SCAN node: it ends, well or with a failure, once the writes of its scan are acknowledged. -/
def State.jobRuns (s : State) (n : NodeRef) (f : Option (Nat × Nat × Word)) : State :=
  let t := (s.modNode n fun x => { x with status := .running, startAt := s.hub.time }).modJoin fun j => { j with job := some n }
  match f with
  | some (status, cause, a) => t.nodeFails n status cause a
  | none => t

/-- The scan of a SCAN node (R433). -/
def State.runScanJob (s0 : State) (n : NodeRef) : State :=
  let d := recImage (s0.nodeInfo n).record
  let s := s0.hubFind n.part d 64
  match s.officeRead n.part d 64 with
  | .error (c, a) => (if c = Cause.poison.code then s else s.jcount 14 1).jobRuns n (some (sysfail, c, a))
  | .ok v =>
    if scanDescBad v then s.jobRuns n (some (badrec, 0, 0))
    else
      let s := s.hubFind n.part (BitVec.ofNat 64 (bitsN v 0 64)) 64
      match s.scanJobOf n.part v with
      | .error (c, a) => (s.jcount 14 1).jobRuns n (some (sysfail, c.code, a))
      | .ok (j, us) =>
        let s := s.jcount 13 us.length
        if j.t = 0 ∨ 4096 < j.t then s.jobRuns n (some (badrec, 0, 0))
        else match s.scan j with
          | (t, some (c, a)) => t.jobRuns n (some (sysfail, c.code, a))
          | (t, none) => t.jobRuns n none

/-- A SCAN node that the unit has scanned ends. -/
def State.endJob (s : State) (n : NodeRef) : State :=
  let t := s.modJoin fun j => { j with job := none }
  match s.failureOf n with
  | some f => t.endNode n (.fail f)
  | none => t.endNode n (.ok 0 0 allSuccs)

/-- SCAN_JOB (R433): the oldest waiting job, where the unit is free and it is the turn of jobs; then the end of the job that it works
on, before the submissions of the hub cycle are made (21 R388). -/
def execScanJob (node : NodeRef) (s : State) : Host.Outcome State Fault Refusal :=
  .next (if !s.phaseOpen 4 || s.hub.shut then s
  else match s.hub.join.job with
    | some n => if n = node ∧ s.unitQuiet unitScan then (s.atPhase 4).endJob node else s
    | none =>
      match s.nextJob with
      | none => s
      | some p =>
        if p.1 ≠ node || s.hub.join.scan.isSome || s.episodeWaits.isSome && !s.jobFirst p.2 then s
        else ((s.atPhase 4).runScanJob node).servedKind true)

/-! ## JOWNER and the dead-letter ring (R425, 20 R375, R379) -/

/-- Every LQPOP that waits for a partition that no longer owns the join is released with an empty result (20 R376). -/
def State.releaseWaiters (s : State) : State :=
  { s with ctxs := s.ctxs.map fun p =>
      (p.1, if p.2.lqWait && !s.ownsJoin (s.partOf (ctxOfKey p.1)) then { p.2 with lqWait := false, lqGot := some (0, 0) } else p.2) }

/-- A new owner: every entry is FREE, pool and learner queue are empty. -/
def State.newOwner (s : State) : State :=
  let n := s.liveEntries.length
  ((s.jcount 21 n).modJoin fun j => { j with
    entries := [], pool := [], scan := none, discarded := j.discarded + j.learner.length, learner := [] }).releaseWaiters

/-- A write of `JOWNER` samples JSTBASE (R423). -/
def State.writeOwner (s : State) (v : Word) : State :=
  let o := BitVec.ofNat 4 (bits v 0 4)
  let t := s.modJoin fun j => { j with owner := o, stnow := j.stbase }
  if o = s.hub.join.owner then t else t.newOwner

/-- A write of a hub register that takes effect in the next hub cycle, by its offset in the window (R423, 27 R459). -/
def State.writeLater (s : State) (off : Nat) (v : Word) : State :=
  s.modHub fun h => { h with later := h.later ++ [{ off := off, val := v, host := false }] }

/-- Offsets in the window: `JOWNER`, `DLRD`, and the counter that is `DLWR` (R423). -/
def offJowner : Nat := 0x10000
def offDlrd : Nat := 0x10058
def offDlwr : Nat := 0x10100 + 8 * 19

/-- JOWNER_WRITE. -/
def execJownerWrite (v : BitVec 64) (s : State) : Host.Outcome State Fault Refusal := .next (s.byFirmware (s.writeLater offJowner v))

/-- DEAD_LETTER_ACK: a reader's count (20 R379); the host reaches no register after a failed configuration record (01 R19). -/
def execDeadLetterAck (v : BitVec 64) (s : State) : Host.Outcome State Fault Refusal :=
  .next (if s.cfg.recordOk then s.writeLater offDlrd v else s)

/-- DEAD_LETTER_CLEAR: firmware's. -/
def execDeadLetterClear (s : State) : Host.Outcome State Fault Refusal :=
  .next (s.byFirmware ((s.writeLater offDlwr 0).writeLater offDlrd 0))

/-! ## Words of S (20 R376 to R378, 23 R434 to R437) -/

/-- A word of S waits until every earlier access of its context is finished (R434, 18 R360); the first try fixes its rank. -/
def afterEarlier : Act Bool := do
  let c ← cx
  let r ← (match c.hubRank with
    | some r => pure r
    | none => do
      let r ← freshId
      modCx fun c => { c with hubRank := some r }
      pure r)
  fun s => .ok (s.earlyDone { node := default, slot := 0, c := s.cur, rank := r }, s)

/-- The hub takes the word's request, in the order of a hub cycle (R427): ascending cell, A before B (20 R377). -/
def hubTurn (phase : Nat) : Act Unit := fun s =>
  let j := s.hub.join
  let k := ctxKey s.cur
  if s.phaseOpen phase ∧ (j.phase < phase ∨ j.lastReq.all fun l => decide (l < k)) then
    .ok ((), (s.atPhase phase).modJoin fun j => { j with lastReq := some k })
  else .error (.wait .other)

/-- The context's partition owns the join. -/
def owner : Act Bool := fun s => .ok (s.ownsJoin (s.partOf s.cur), s)

/-- A word that has acted leaves no rank behind. -/
def acted : Act Flow := do
  modCx fun c => { c with hubRank := none }
  pure .seq

/-- The status word of EPOPEN and EPCLOSE: status, and the entry where it is 0 (R435). -/
def statusWord (st e : Nat) : Word := BitVec.ofNat 64 (if st = 0 then 2 ^ 16 * e else st)

/-- The entry that EPOPEN claims: the first FREE one in probe order, or the RELEASED one released earliest. -/
def State.claim (s : State) (id : Word) : Option Nat :=
  match (window id).find? fun e => (s.entry e).state == .free with
  | some e => some e
  | none =>
    (window id).foldl (fun m e =>
      if (s.entry e).state = .released then
        match m with
        | none => some e
        | some f => if (s.entry e).since < (s.entry f).since then some e else some f
      else m) none

/-- EPOPEN at the hub (R435): the new state and the status word; a translation fault of the header counts in JFAULT (R437). -/
def State.openEpisode (s0 : State) (part : Nat) (addr id : Word) : State × Word :=
  let s := s0.hubFind part addr 64
  let fail (st : Nat) : State × Word := (s.jcount 1 1, statusWord st 0)
  match s.hubRead part addr 64 with
  | .error _ => ((s.jcount 14 1).jcount 1 1, statusWord 5 0)
  | .ok l =>
    if l.any (·.2) then fail 5
    else
      let h := bytesNum l
      if bitsN h 0 64 ≠ id.toNat ∨ 1 < bitsN h 112 8 ∨ bitsN h 160 352 ≠ 0 then fail 3
      else if (s.findLive id).isSome then fail 2
      else match s.claim id with
        | none => fail 1
        | some e =>
          let j := s.hub.join
          let x : JoinEntry := { JoinEntry.init with
            state := .opened, id := id, addr := addr, version := BitVec.ofNat 32 (bitsN h 64 32), kind := bitsN h 112 8 == 1
            oseq := j.opens, deadline := s.deadlineIn j.openmax }
          ((((s.modEntry e fun _ => x).clearMap e).modJoin fun j => { j with opens := j.opens + 1 }).jcount 0 1, statusWord 0 e)

/-- T and VT go into the header (R418, R435). -/
def State.putHeader (s : State) (part : Nat) (addr : Word) (t : Nat) (vt : BitVec 32) : Option State :=
  match s.hubWrite part (addr + 12) (numBytes t 2) with
  | .error _ => none
  | .ok s1 => match s1.hubWrite part (addr + 16) (numBytes vt.toNat 4) with
    | .error _ => none
    | .ok s2 => some s2

/-- EPCLOSE at the hub (R435); a translation fault of the header counts in JFAULT (R437). -/
def State.closeEpisode (s : State) (part : Nat) (id b : Word) : State × Word :=
  match (window id).find? fun e => (s.entry e).state == .opened && (s.entry e).id == id with
  | none => (s, statusWord 1 0)
  | some e =>
    let t := bits b 32 13
    let vt := BitVec.ofNat 32 (bits b 0 32)
    if t = 0 ∨ 4096 < t ∨ bits b 45 19 ≠ 0 then (s, statusWord 2 0)
    else match s.putHeader part (s.entry e).addr t vt with
      | none => ((s.noteHubMiss part (s.entry e).addr).jcount 14 1, statusWord 5 0)
      | some s =>
        let s := s.modEntry e fun x => { x with t := t, vt := vt }
        let s := if (s.entry e).kind then (List.range (t - 1)).foldl (fun (s : State) i => (s.putReward e i 0).1) s else s
        let s := s.modEntry e fun x => { x with state := .closed, deadline := s.deadlineIn s.hub.join.timeout }
        let (ms, s) := s.takePool id
        let s := ms.foldl (fun (s : State) m => s.applyReward e m) s
        (s.completeIfFull e, statusWord 0 e)

/-- What EPOPEN and EPCLOSE share: the checks, the wait, the turn at the hub, the status. -/
def episode (o : SX) (aligned : Bool) (f : State → Nat → Word → Word → State × Word) (s : State) :
    Host.Outcome State Fault Refusal :=
  finish 1 false (do
    let rs := [(sRef o.a, o.ka), (sRef o.b, o.kb)]
    checkReads rs rs
    let c ← cx
    let a0 : Word := (c.front (sRef o.a)).1.setWidth 64
    let ready ← afterEarlier
    let rank ← (fun s => .ok ((s.ctx s.cur).hubRank, s) : Act (Option Nat))
    let a ← takeQ (sRef o.a) o.ka
    let b ← takeQ (sRef o.b) o.kb
    checkPush (sRef o.d)
    trapIf (aligned && (bits a0 0 6 != 0 || bits a0 55 9 != 0)) .align a0
    outward
    if !ready then
      fun _ => .ok (.stay, s.modCtx s.cur fun c => { c with hubRank := rank })
    else
      let own ← owner
      if own then
        hubTurn 2
        let st ← (fun s =>
          let r := f s (s.partOf s.cur) (a.setWidth 64) (b.setWidth 64)
          .ok (r.2, r.1) : Act Word)
        pushSoon (sRef o.d) (wide st)
      else pushSoon (sRef o.d) (wide 4)
      acted) s

/-- EPOPEN (R435). -/
def execEpopen (o : SX) (s : State) : Host.Outcome State Fault Refusal := episode o true State.openEpisode s

/-- EPCLOSE (R435). -/
def execEpclose (o : SX) (s : State) : Host.Outcome State Fault Refusal := episode o false State.closeEpisode s

/-- The message of an RWPOST: under ZERO a poisoned dword reads as 0. -/
def postMessage (l : List (Byte × Bool)) : BitVec 256 :=
  BitVec.ofNat 256 (ofBytes (zeroed ((List.range 32).map fun k =>
    ((l.getD k (0, false)).1, ((l.drop (k / 8 * 8)).take 8).any (·.2)))))

/-- The parts of the message: those of four loads of a dword each (07 R158, R159). -/
def messageParts (a : Word) : Act (Option Nat × List Part) := do
  let l ← [0, 8, 16, 24].mapM fun k => do
    let (off, ps) ← scalarParts .read (a + BitVec.ofNat 64 k) 8
    pure (off, ps.map (Part.shift k))
  pure ((l.head?.bind (·.1)), (l.map (·.2)).flatten)

/-- The four loads issue; the word holds S until their bytes have come. -/
def messageReads (a : Word) (off : Option Nat) (ps : List Part) : Act Unit := do
  let id ← (match off with
    | some _ => newOp .scalar (offSeg off 32) [] []
    | none => freshId)
  fun s => .ok ((), (s.modCtx s.cur fun c =>
    { c with rwpost := some { id := id, addr := a, code := false, len := 32, got := [] } }).issueParts id (.stream s.cur .s) .read false
      false 0 (fun p => .init id p) (fun _ => (0, false)) (fun _ => true) ps)

/-- A message enters the reward queue behind the arrivals of the hub cycle, in the order of 20 R377; a full queue makes the word wait, not
at a generation fence (R436, 20 R367). -/
def postReward (m : BitVec 256) : Act Unit := fun s =>
  let k := ctxKey s.cur
  if s.rewardsFull then .error (.wait .full)
  else if !s.hub.join.lastPost.all fun l => decide (l < k) then .error (.wait .other)
  else .ok ((), s.modJoin fun j => { j with rewards := j.rewards ++ [(s.hub.time, m)], lastPost := some k })

/-- RWPOST (R436): the message is read as plain loads of S, and enters the reward queue once it is there. -/
def execRwpost (o : SX) (s : State) : Host.Outcome State Fault Refusal :=
  finish 1 false (do
    checkRead (sRef o.a) 1
    let c ← cx
    let a : Word := (c.front (sRef o.a)).1.setWidth 64
    trapIf (bits a 0 5 != 0) .align a
    match c.rwpost with
    | none => do
      let (off, ps) ← messageParts a
      outward
      if ← afterEarlier then messageReads a off ps else pure ()
      pure .stay
    | some r => do
      if !r.full then pure .stay
      else
        let l := r.bytes 0 32
        let gone ← consumeNow (if bits a 56 8 = 0xC0 then .ss else .vm) (badUnits (if bits a 56 8 = 0xC0 then bits a 0 27 else a.toNat) l)
        let _ ← takeQ (sRef o.a) o.ka
        let own ← owner
        if gone then pure ()
        else if own then postReward (postMessage l)
        else fun s => .ok ((), s.jcount 12 1)
        modCx fun c => { c with rwpost := none }
        acted) s

/-- The value of a selector (R437). -/
def State.jstat (s : State) (sel : Nat) : Nat :=
  let j := s.hub.join
  match sel with
  | 15 => s.liveEntries.length
  | 16 => j.pool.length
  | 17 => j.lv.toNat
  | 18 => j.learner.length
  | 19 => j.dlwr.toNat
  | _ => Table.get j.counts 0 sel

/-- JSTAT (R437). -/
def execJstat (o : SX) (s : State) : Host.Outcome State Fault Refusal :=
  plain (do
    checkPush (sRef o.d)
    outward
    let own ← owner
    let v ← (fun s => .ok (s.jstat o.b.toNat, s) : Act Nat)
    pushSoon (sRef o.d) (wide (BitVec.ofNat 64 (if own then v else 0)))) s

/-- LVSET (20 R378). -/
def execLvset (o : SX) (s : State) : Host.Outcome State Fault Refusal :=
  plain (do
    let v ← read1 (sRef o.a) o.ka
    outward
    outwardQs [sRef o.a]
    if ← owner then
      hubTurn 2
      fun s => .ok ((), s.modJoin fun j => { j with lv := BitVec.ofNat 32 (bits v 0 32) })
    else pure ()) s

/-- A result with no exposed latency takes its place at once. -/
def landNow (q : QRef) (v : Word) : Act Unit := fun s =>
  match q.dest with
  | none => .ok ((), s)
  | some d => .ok ((), s.modCtx s.cur fun c => c.land d (wide v) s.curIt)

/-- Both pushes of an LQPOP, in one step; a record drops the cell's read cache (20 R376). -/
def lqResult (q : QRef) (r : Word × Word) : Act Flow := do
  landNow q r.1
  landNow q r.2
  modCx fun c => { c with lqWait := false, lqGot := none }
  (if r.1 ≠ 0 then fun s => .ok ((), s.dropLines s.cur.cell fun _ => true) else pure ())
  pure .seq

/-- A context with a lower number waits for a record of the same learner queue (20 R377). -/
def State.lqBehind (s : State) (c : CtxRef) : Bool :=
  s.ctxs.any fun p => decide (p.1 < ctxKey c) && p.2.lqWait && p.2.lqGot.isNone && s.ownsJoin (s.partOf (ctxOfKey p.1))

/-- The checks of an LQPOP before it asks: two places in its queue, after every result on its way there. -/
def lqPlaces (q : QRef) : Act Unit := do
  let c ← cx
  match q with
  | .zero => pure ()
  | .chan _ => waitIf (decide (8 < c.entries q + c.pendingQ q + 2)) .outside
  | _ => trapIf (decide (q.depth < c.entries q + c.pendingQ q + 2)) .qovf q.code
  waitIf (c.pendingQ q != 0) .lock

/-- The front record of the learner queue. -/
def State.takeRecord (s : State) : State × (Word × Word) :=
  match s.hub.join.learner with
  | [] => (s, (0, 0))
  | r :: rest => (s.modJoin fun j => { j with learner := rest }, (BitVec.ofNat 64 (bits r 0 64), BitVec.ofNat 64 (bits r 64 64)))

/-- LQPOP and LQPOP.nb. -/
def lqpop (nb : Bool) (o : SX) (s : State) : Host.Outcome State Fault Refusal :=
  finish 1 false (do
    let q := sRef o.d
    lqPlaces q
    outward
    let c ← cx
    match c.lqGot with
    | some r => lqResult q r
    | none =>
      if !(← owner) then lqResult q (0, 0)
      else
        let s ← (fun s => .ok (s, s) : Act State)
        if s.hub.join.learner.isEmpty && !nb then
          modCx fun c => { c.noteWait .s .outside with lqWait := true }
          leaveFence
          pure .stay
        else
          waitIf (s.lqBehind s.cur && !s.hub.join.learner.isEmpty) .outside
          hubTurn 5
          let r ← (fun s => .ok (s.takeRecord.2, s.takeRecord.1) : Act (Word × Word))
          lqResult q r) s

/-- LQPOP (20 R376). -/
def execLqpop (o : SX) (s : State) : Host.Outcome State Fault Refusal := lqpop false o s

/-- LQPOP.nb (20 R376). -/
def execLqpopNb (o : SX) (s : State) : Host.Outcome State Fault Refusal := lqpop true o s

/-- What the join unit still has to do in the present hub cycle: a message, a deadline, a hold, a record for a waiting LQPOP. -/
def State.joinDue (s : State) : Bool :=
  s.intakeDue || s.testsDue || s.hub.join.entries.any fun p => s.holdOver p.2

/-- The learner queue gives a record to a context whose LQPOP waits (20 R377). -/
def State.giveRecord (s : State) (k : Nat) : State :=
  let c := ctxOfKey k
  if (s.ctx c).lqWait && (s.ctx c).lqGot.isNone && s.ownsJoin (s.partOf c) && !s.hub.join.learner.isEmpty then
    (s.takeRecord.1).modCtx c fun x => { x with lqWait := false, lqGot := some s.takeRecord.2 }
  else s

/-- The end of a hub cycle for the join unit: waiting LQPOPs are served in ascending order, and the order starts afresh. -/
def State.joinCycle (s0 : State) : State :=
  let s := (s0.ctxs.map (·.1)).foldl State.giveRecord s0
  let idle := s.episodeWaits.isNone && s.nextJob.isNone && s.hub.join.scan.isNone && s.hub.join.job.isNone
  s.modJoin fun j => { j with phase := 0, lastReq := none, lastPost := none, lastPort := none, served := if idle then none else j.served }

end Sys2Proof.Machine
end

