-- ==== Sys2Proof/Machine/HubRegs.lean ====
section
/-!
DEFINITION. The hub register window and the capability list: writes by firmware and the host, and what a read gives (27 R458 to
R461, R473 to R475; 17 R326, R338; 20 R368 to R371; 22 R410, R411; 23 R423, R424; 26 R457; 02 R29).
-/
namespace Sys2Proof.Machine

/-! ## Cell mode (02 R29) -/

/-- The number of cells of the package (01 R8). -/
def cellCount : Nat := 256

/-- Firmware sets the mode: a reserved value leaves it. -/
def Cell.setMode (l : Cell) (m : BitVec 2) : Cell := if 2 ≤ m.toNat then l else { l with mode := m }

/-- CELLMODE_WRITE: a write while a node is placed is held, and a reserved value changes nothing, an earlier write that is still held
included; MBZ bits are ignored and counted as a firmware error. -/
def execCellmodeWrite (cell : Nat) (v : BitVec 64) (s : State) : Host.Outcome State Fault Refusal :=
  let m := BitVec.ofNat 2 (bits v 0 2)
  let s1 := if bits v 2 62 = 0 then s else s.modCounts fun n => { n with fwErrors := satAdd32 n.fwErrors 1 }
  .next (s.byFirmware <| if cellCount ≤ cell then s
  else if 2 ≤ m.toNat then s1
  else if s.cellIdle cell then s1.modCell cell fun l => { l.setMode m with modeHeld := none }
  else s1.modCell cell fun l => { l with modeHeld := some m })

/-- CELLMODE_HELD_APPLY: the held write takes effect once both contexts are free. -/
def execCellmodeHeldApply (cell : Nat) (s : State) : Host.Outcome State Fault Refusal :=
  .next (match (s.cell cell).modeHeld with
    | some m => if s.cellIdle cell then s.modCell cell fun l => { l.setMode m with modeHeld := none } else s
    | none => s)

/-! ## Reliability records (26 R457) -/

/-- A cell belongs to a partition with attested firmware, or not (27 R468). -/
def State.securityOf (s : State) (l : Cell) : Security :=
  match l.part with
  | some p => if (s.part p).tenant then .tenant else .openState
  | none => .openState

/-- A new STATE of a cell: a fenced cell is in quarantine, and a change of its bit in the capability list raises vector 512
(27 R461, R468). -/
def State.setCellState (s : State) (cell : Nat) (st : BitVec 2) : State :=
  let old := (s.cell cell).state
  let fenced := decide (2 ≤ st.toNat)
  let t := s.modCell cell fun l =>
    { l with state := st, security := if fenced then .fenced else if l.security = .fenced then s.securityOf l else l.security }
  if (old == 2#2) = (st == 2#2) then t else t.interrupt errorVector

/-- A firmware write of the first eight bytes of a record: SCORE, STATE and TESTS. STATE 3 is neither written nor left, a fenced cell
that returns to service has SCORE 0, and after a failed configuration record every cell stays fenced (01 R19). -/
def State.writeReliability (s : State) (cell : Nat) (v : Word) : State :=
  if cellCount ≤ cell then s
  else
    let l := s.cell cell
    let st := BitVec.ofNat 2 (bits v 16 2)
    let st := if st = 3#2 ∨ l.state = 3#2 ∨ !s.cfg.recordOk then l.state else st
    let score := if l.state = 2#2 ∧ st = 0#2 then 0 else bits v 0 16
    (s.setCellState cell st).modCell cell fun l => { l with score := score, tests := BitVec.ofNat 32 (bits v 32 32) }

/-- RELIABILITY_STATE_WRITE. -/
def execReliabilityStateWrite (cell : Nat) (v : BitVec 64) (s : State) : Host.Outcome State Fault Refusal :=
  .next (s.byFirmware (s.writeReliability cell v))

/-! ## Writes of the window (27 R459) -/

/-- The place of an offset in the window. -/
inductive Place where
  | device (off : Nat)
  | join (off : Nat)
  | reliability (cell k : Nat)
  | letter (j k : Nat)
  | grant (e k : Nat)
  | part (n off : Nat)
  | queue (n q off : Nat)
  | none
  deriving DecidableEq, Repr, Inhabited

/-- The layout of R459; an access is 8 bytes, aligned. -/
def placeOf (off : Nat) : Place :=
  if off % 8 ≠ 0 then .none
  else if off < 0x10000 then .device off
  else if off < 0x20000 then .join (off - 0x10000)
  else if off < 0x22000 then .reliability ((off - 0x20000) / 32) (off % 32 / 8)
  else if 0x30000 ≤ off ∧ off < 0x50000 then .letter ((off - 0x30000) / 32) (off % 32 / 8)
  else if 0x60000 ≤ off ∧ off < 0x70000 then .grant ((off - 0x60000) / 16) (off % 16 / 8)
  else if 0x100000 ≤ off ∧ off < 0x180000 then .part ((off - 0x100000) / 0x10000) (off % 0x10000)
  else if 0x2000000 ≤ off ∧ off < 0x4000000 then
    .queue ((off - 0x2000000) / 0x400000) (off % 0x400000 / 0x10000) (off % 0x10000)
  else .none

/-- The low 32 bits. -/
def low32 (v : Word) : Nat := bits v 0 32

/-- A firmware limit is taken into its range (R474). -/
def intoRange (lo hi v : Nat) : Nat := max lo (min hi v)

/-- The device page. -/
def State.writeDevice (s : State) (off : Nat) (v : Word) : State :=
  match off with
  | 0x00 => s.modHub fun h => { h with tlbinv := { h.tlbinv with va := BitVec.ofNat 64 (bits v 16 39 * 2 ^ 16) } }
  | 0x08 => s.modHub fun h => { h with tlbinv := { h.tlbinv with pages := bits v 0 40 } }
  | 0x10 => s.modHub fun h => { h with tlbinv := h.tlbinv.write v }
  | _ =>
    if 0x100 ≤ off ∧ off < 0x120 then
      s.modDie ((off - 0x100) / 8) fun d => { d with droopEn := bitOf v 16, droopLevel := BitVec.ofNat 10 (bits v 0 10) }
    else s

/-- A counter of the join page that a firmware write of 0 clears (R423): the counters of R437, and `DLWR`. -/
def State.clearJoin (s : State) (sel : Nat) : State :=
  if sel = 19 then s.modJoin fun j => { j with dlwr := 0 }
  else if 15 ≤ sel ∧ sel ≤ 18 then s
  else s.modJoin fun j => { j with counts := Table.set j.counts sel 0 }

/-- The join page. -/
def State.writeJoin (s : State) (off : Nat) (v : Word) : State :=
  match off with
  | 0x00 => s.writeOwner v
  | 0x08 => s.modJoin fun j => { j with mode := BitVec.ofNat 2 (bits v 0 2) }
  | 0x10 => s.modJoin fun j => { j with timeout := low32 v }
  | 0x18 => s.modJoin fun j => { j with openmax := low32 v }
  | 0x20 => s.modJoin fun j => { j with fill := BitVec.ofNat 32 (low32 v) }
  | 0x28 => s.modJoin fun j => { j with gamma := BitVec.ofNat 32 (low32 v) }
  | 0x30 => s.modJoin fun j => { j with glambda := BitVec.ofNat 32 (low32 v) }
  | 0x38 => s.modJoin fun j => { j with maxlag := BitVec.ofNat 32 (low32 v) }
  | 0x40 => s.modJoin fun j => { j with lv := BitVec.ofNat 32 (low32 v) }
  | 0x48 => s.modJoin fun j => { j with hold := low32 v }
  | 0x50 => s.modJoin fun j => { j with stbase := v &&& ~~~0xFFFF#64 }
  | 0x58 => s.modJoin fun j => { j with dlrd := BitVec.ofNat 32 (low32 v) }
  | _ => if 0x100 ≤ off ∧ off ≤ 0x1A8 ∧ v = 0 then s.clearJoin ((off - 0x100) / 8) else s

/-- The words of a reliability record. -/
def State.writeRecord (s : State) (cell k : Nat) (v : Word) : State :=
  match k with
  | 0 => s.writeReliability cell v
  | 2 => s.modCell cell fun l => { l with katskip := BitVec.ofNat 32 (bits v 32 32) }
  | 3 => s.modCell cell fun l => { l with katfail := BitVec.ofNat 32 (bits v 0 32), corr := BitVec.ofNat 32 (bits v 32 32) }
  | _ => s

/-- Half of a grant entry: MBZ bits leave it invalid, and a load clears the letterboxes of the cell it covers (16 R317). -/
def State.writeGrant (s : State) (e k : Nat) (v : Word) : State :=
  let old := Table.get s.hub.grants 0 e
  let new := putBits old.toNat (64 * k) 64 v.toNat
  let new := if bitsN new 54 17 = 0 then new else putBits (putBits new 54 17 0) 71 1 0
  let t := s.modHub fun h => { h with grants := Table.set h.grants e (BitVec.ofNat 128 new) }
  if bitsN new 71 1 = 1 then t.modCell (bitsN new 80 8) fun l => { l with letters := [] } else t

/-- A value that `CRSIZE` takes (R475). -/
def crsizeOk (v : Nat) : Bool := v == 0 || (List.range 9).any fun k => v == 2 ^ (8 + k)

/-- The counters of the linker, cleared by a firmware write of 0 (22 R410). -/
def Partition.clearLink (p : Partition) (off : Nat) : Partition :=
  if off = 0x198 then { p with spldone := 0 }
  else if off = 0x1A0 then { p with splrerun := 0 }
  else { p with splref := Table.set p.splref ((off - 0x100) / 8 + 1) 0 }

/-- A partition page. -/
def State.writePart (s : State) (n off : Nat) (v : Word) : State :=
  match off with
  | 0x00 => s.modHub fun h => { h with ptroot := Table.set h.ptroot n (v &&& ~~~0xFFFF#64) }
  | 0x08 => s.modPart n fun p => { p with linkmode := BitVec.ofNat 2 (bits v 0 2) }
  | 0x10 => s.modPart n fun p => { p with ageLimit := intoRange 10 1000000 (low32 v) }
  | 0x18 => s.modPart n fun p => { p with resLimit := intoRange 10 1000000 (low32 v) }
  | 0x20 => s.modPart n fun p => { p with urgLimit := intoRange 1 10000 (low32 v) }
  | 0x40 => s.modPart n fun p => { p with crbase := BitVec.ofNat 64 (bits v 4 48 * 16) }
  | 0x48 => if crsizeOk (bits v 0 17) then s.modPart n fun p => { p with crsize := bits v 0 17 } else s
  | 0x50 => s.modPart n fun p => { p with crwr := BitVec.ofNat 32 (low32 v) }
  | 0x58 => s.modPart n fun p => { p with crrd := BitVec.ofNat 32 (low32 v) }
  | 0x60 => if v = 0 then s.modPart n fun p => { p with crovw := 0 } else s
  | _ => if 0x100 ≤ off ∧ off ≤ 0x1A0 ∧ v = 0 then s.modPart n fun p => p.clearLink off else s

/-- A page of a launch queue (20 R368): the shadow registers and `LQHEAD` are not written. -/
def State.writeQueue (s : State) (n q off : Nat) (v : Word) : State :=
  match off with
  | 0x00 => s.writeTail n q v
  | 0x10 => s.writeStat n q v
  | 0x18 => s.writeErr n q
  | _ => if 0x8000 ≤ off ∧ s.cfg.recordOk then
      s.modQueue n q fun x => { x with ring := Table.put x.ring 0 ((off - 0x8000) / 8) v }
    else s

/-- What the host may write: its rule grants it (R459). -/
def Place.hostMay : Place → Bool
  | .queue .. => true
  | .part _ off => off == 0x58
  | .join off => off == 0x58
  | _ => false

/-- A register whose new value applies from the next hub cycle: the join page, `LINKMODE`, the limits, `CRBASE` and `CRSIZE` (R474,
R475, 22 R411, 23 R423). -/
def Place.nextCycle : Place → Bool
  | .join _ => true
  | .part _ off => [0x08, 0x10, 0x18, 0x20, 0x40, 0x48].contains off
  | _ => false

/-- A write of a place takes effect. -/
def State.placeWrite (s : State) (p : Place) (v : Word) : State :=
  match p with
  | .device off => s.writeDevice off v
  | .join off => s.writeJoin off v
  | .reliability c k => s.writeRecord c k v
  | .grant e k => s.writeGrant e k v
  | .part n off => s.writePart n off v
  | .queue n q off => s.writeQueue n q off v
  | _ => s

/-- No table names what stands at the place. -/
def Place.unlisted : Place → Bool
  | .none => true
  | .device off => !([0x00, 0x08, 0x10].contains off || decide (0x100 ≤ off) && decide (off < 0x120))
  | _ => false

/-- A counter of the package, in the order of `PkgCounts`. -/
def PkgCounts.value (n : PkgCounts) (k : Nat) : Nat :=
  [n.uncorrected, n.corrected, n.dualMiss, n.ignoredNl, n.grantDrops, n.boxOverflow, n.dropped, n.hubPoison, n.fwErrors, n.testFails,
    n.badTokens, n.hostDrops].getD k 0

/-- It is cleared. -/
def PkgCounts.clear (n : PkgCounts) (k : Nat) : PkgCounts :=
  match k with
  | 0 => { n with uncorrected := 0 }
  | 1 => { n with corrected := 0 }
  | 2 => { n with dualMiss := 0 }
  | 3 => { n with ignoredNl := 0 }
  | 4 => { n with grantDrops := 0 }
  | 5 => { n with boxOverflow := 0 }
  | 6 => { n with dropped := 0 }
  | 7 => { n with hubPoison := 0 }
  | 8 => { n with fwErrors := 0 }
  | 9 => { n with testFails := 0 }
  | 10 => { n with badTokens := 0 }
  | 11 => { n with hostDrops := 0 }
  | _ => n

/-- A counter for which no table gives an offset (26 R447, R450): what it holds. -/
def State.counterValue (s : State) (c : CounterRef) : Word :=
  match c with
  | .event cell n => Table.get (s.cell cell).evc 0 n
  | .package k => BitVec.ofNat 64 (s.hub.counts.value k)
  | .retries p => BitVec.ofNat 64 (s.port p).retries
  | .drops p => BitVec.ofNat 64 (s.port p).drops

/-- Firmware clears it with a write of 0. -/
def State.clearCounter (s : State) (c : CounterRef) : State :=
  match c with
  | .event cell n => if cellCount ≤ cell then s else s.modCell cell fun l => { l with evc := Table.set l.evc n 0 }
  | .package k => s.modCounts fun n => n.clear k
  | .retries p => s.modHub fun h => { h with ports := Table.modify h.ports Port.init p fun x => { x with retries := 0 } }
  | .drops p => s.modHub fun h => { h with ports := Table.modify h.ports Port.init p fun x => { x with drops := 0 } }

/-- The counter at an offset that no table names (log 36). -/
def counterOf (off : Nat) : Option CounterRef := if (placeOf off).unlisted then Config.counterAt off else none

/-- A write of the window by firmware: at once, or from the next hub cycle on. -/
def State.firmwareWrite (s : State) (off : Nat) (v : Word) : State :=
  if (placeOf off).nextCycle then s.writeLater off v
  else match counterOf off with
    | some c => if v = 0 then s.clearCounter c else s
    | none => s.placeWrite (placeOf off) v

/-- A write of the window: by firmware, or by the host where its rule grants it. -/
def State.windowWrite (s : State) (w : HubWrite) : State :=
  let p := placeOf w.off
  if !w.host then s.byFirmware (s.firmwareWrite w.off w.val)
  else if !(p.hostMay && s.cfg.recordOk) then s
  else if p.nextCycle then s.writeLater w.off w.val
  else s.placeWrite p w.val

/-- The writes of the hub cycle that ends take effect, in their order. -/
def State.applyLater (s : State) : State :=
  s.hub.later.foldl (fun t w => t.placeWrite (placeOf w.off) w.val) (s.modHub fun h => { h with later := [] })

/-- REGISTER_WRITE. -/
def execRegisterWrite (w : HubWrite) (s : State) : Host.Outcome State Fault Refusal := .next (s.windowWrite w)

/-! ## Reads of the window -/

/-- A 64-bit value. -/
def w64 (n : Nat) : Word := BitVec.ofNat 64 n

/-- The device page as a read gives it. -/
def State.readDevice (s : State) (off : Nat) : Word :=
  let i := s.hub.tlbinv
  match off with
  | 0x00 => i.va
  | 0x08 => w64 i.pages
  | 0x10 => w64 (2 ^ 63 * i.busy.isSome.toNat + 2 ^ 62 * i.rej.toNat + i.part)
  | _ =>
    if 0x100 ≤ off ∧ off < 0x120 then
      let d := s.die ((off - 0x100) / 8)
      w64 (2 ^ 16 * d.droopEn.toNat + d.droopLevel.toNat)
    else 0

/-- The join page. -/
def State.readJoin (s : State) (off : Nat) : Word :=
  let j := s.hub.join
  match off with
  | 0x00 => j.owner.setWidth 64
  | 0x08 => j.mode.setWidth 64
  | 0x10 => w64 j.timeout
  | 0x18 => w64 j.openmax
  | 0x20 => j.fill.setWidth 64
  | 0x28 => j.gamma.setWidth 64
  | 0x30 => j.glambda.setWidth 64
  | 0x38 => j.maxlag.setWidth 64
  | 0x40 => j.lv.setWidth 64
  | 0x48 => w64 j.hold
  | 0x50 => j.stbase
  | 0x58 => j.dlrd.setWidth 64
  | _ => if 0x100 ≤ off ∧ off ≤ 0x1A8 then w64 (s.jstat ((off - 0x100) / 8)) else 0

/-- A reliability record. -/
def Cell.record (l : Cell) (k : Nat) : Word :=
  match k with
  | 0 => w64 (2 ^ 32 * l.tests.toNat + 2 ^ 16 * l.state.toNat + l.score)
  | 2 => w64 (2 ^ 32 * l.katskip.toNat)
  | 3 => w64 (2 ^ 32 * l.corr.toNat + l.katfail.toNat)
  | _ => 0

/-- A partition page. -/
def State.readPart (s : State) (n off : Nat) : Word :=
  let p := s.part n
  match off with
  | 0x00 => Table.get s.hub.ptroot 0 n
  | 0x08 => p.linkmode.setWidth 64
  | 0x10 => w64 p.ageLimit
  | 0x18 => w64 p.resLimit
  | 0x20 => w64 p.urgLimit
  | 0x40 => p.crbase
  | 0x48 => w64 p.crsize
  | 0x50 => p.crwr.setWidth 64
  | 0x58 => p.crrd.setWidth 64
  | 0x60 => w64 p.crovw
  | 0x198 => w64 p.spldone
  | 0x1A0 => w64 p.splrerun
  | _ => if 0x100 ≤ off ∧ off < 0x198 then w64 (Table.get p.splref 0 ((off - 0x100) / 8 + 1)) else 0

/-- A page of a launch queue: the ring is not read. -/
def State.readQueue (s : State) (n q off : Nat) : Word :=
  let x := s.queue n q
  match off with
  | 0x00 => x.tail.setWidth 64
  | 0x08 => x.head.setWidth 64
  | 0x10 => w64 (2 ^ 16 * min x.live 0xFFFF + 2 * x.ovr.toNat + x.halt.toNat)
  | 0x18 => w64 (2 ^ 32 * x.errWord.toNat + x.reason)
  | _ => if 0x100 ≤ off ∧ off < 0x200 then Table.get x.sh 0 ((off - 0x100) / 8) else 0

/-- What a read of the window gives; the host sees none of it after a failed configuration record (01 R19). -/
def State.windowRead (s : State) (off : Nat) : Word :=
  if !s.cfg.recordOk then 0
  else match counterOf off with
  | some c => s.counterValue c
  | none => match placeOf off with
    | .device o => s.readDevice o
    | .join o => s.readJoin o
    | .reliability c k => (s.cell c).record k
    | .letter j k => w64 (bits (Table.get s.hub.join.letters 0 j) (64 * k) 64)
    | .grant e k => w64 (bits (Table.get s.hub.grants 0 e) (64 * k) 64)
    | .part n o => s.readPart n o
    | .queue n q o => s.readQueue n q o
    | .none => 0

/-! ## The capability list (27 R460, R461) -/

/-- The header of an entry. -/
def capHeader (next length id : Nat) : Word := w64 (2 ^ 32 * next + 2 ^ 16 * length + 2 ^ 8 + id)

/-- The cells of a map that have a property, as 64-bit words. -/
def State.cellMap (s : State) (f : Cell → Bool) : List Word :=
  (List.range 4).map fun w => w64 (((List.range 64).map fun k => if f (s.cell (64 * w + k)) then 2 ^ k else 0).sum)

/-- The cells in service. -/
def State.inService (s : State) : Nat := ((List.range cellCount).filter fun n => (s.cell n).state == 0#2).length

/-- The partitions that exist. -/
def State.definedParts (s : State) : List Nat := (List.range 8).filter fun n => (s.part n).defined

/-- The entries: their IDs and the words after their headers. -/
def State.capabilities (s : State) : List (Nat × List Word) :=
  let core := [w64 (2 ^ 32 * s.inService + 4 * s.anyTenant.toNat + 2 * (s.cfg.recordOk && s.cfg.firmwareOk).toNat +
      s.cfg.recordOk.toNat), w64 600000000, 0]
  let maps := (s.definedParts.map fun n => s.cellMap fun l => l.part == some n).flatten
  [(0x01, core), (0x02, [w64 0xFE]), (0x03, [w64 (2 ^ 32 * 16 + 32), w64 12]), (0x04, [w64 (2 ^ 32 * 4096 + 65536), w64 4096]),
   (0x05, [w64 0x400000, w64 19]), (0x06, w64 s.definedParts.length :: maps),
   (0x07, s.cellMap (fun l => l.state == 2#2) ++ s.cellMap (fun l => l.state == 3#2)),
   (0x08, [w64 (2 ^ 32 * (s.cfg.package % 2 ^ 20) + (s.hub.ports.filter fun p => p.2.up).length), w64 (s.cfg.domain % 2 ^ 10)])]

/-- The chain of entries from an offset. -/
def capChain (off : Nat) : List (Nat × List Word) → List Word
  | [] => []
  | (id, ws) :: r =>
    let len := 8 * (1 + ws.length)
    capHeader (if r.isEmpty then 0 else off + len) len id :: ws ++ capChain (off + len) r

/-- The capability list in BAR2, in 64-bit words. -/
def State.capabilityList (s : State) : List Word := capChain 0 s.capabilities

end Sys2Proof.Machine
end

