-- ==== Sys2Proof/Machine/Device.lean ====
section
/-!
DEFINITION. The device as a whole: partitions, resets, attestation, debug, power, droop, time, targeted test and the patrol
scrubber (02 R22; 14 R263, R270, R276; 20 R373; 26 R448, R455, R456; 27 R462, R463, R466 to R473, R476).
-/
namespace Sys2Proof.Machine

/-! ## Partitions (02 R22, 10 R223, R226, 27 R466, R472) -/

/-- A context of a cell that changes its partition: its coder state is cleared, and no translation of the old partition stays. -/
def Ctx.moved (c : Ctx) (part : Nat) : Ctx :=
  { c.eachStr (fun _ x => { x with tlb := [] }) with tables := [], slots := [], part := BitVec.ofNat 4 part }

/-- The cell belongs to a partition with attested firmware, in quarantine too (R468). -/
def State.tenantCell (s : State) (cell : Nat) : Bool := (s.cell cell).part.any fun p => (s.part p).tenant

/-- A cell leaves TENANT and its partition: shadow storage, every typed buffer and the coder state are cleared, and a parked node fails
(R472, 10 R223, 14 R263, R276). -/
def State.leaveTenant (s : State) (cell : Nat) : State :=
  let l := s.cell cell
  let t := match l.shadow with
    | some i => s.failParked i
    | none => s
  let t := (ctxsOf cell).foldl (fun s c => s.modCtx c fun x => x.moved 0) t
  t.modCell cell fun l => { l with
    part := none, shadow := none, cache := [], wb := Memory.blank 0, ab := Memory.blank 0, cb := Memory.blank 0
    security := if l.security = .fenced then .fenced else .openState }

/-- LEAVE_TENANT: between nodes of the cell. -/
def execLeaveTenant (cell : Nat) (s : State) : Host.Outcome State Fault Refusal :=
  .next (s.byFirmware <| if s.tenantCell cell && s.cellFree cell then s.leaveTenant cell else s)

/-- A cell goes to a partition. -/
def State.moveCell (s : State) (cell part : Nat) : State :=
  let s := if s.tenantCell cell then s.leaveTenant cell else s
  let s := (ctxsOf cell).foldl (fun s c => s.modCtx c fun x => x.moved part) s
  s.modCell cell fun (l : Cell) =>
    let m : Cell := { l with
      part := some part, cache := []
      shadow := l.shadow.map fun i => { i with a := i.a.moved part, b := i.b.moved part } }
    { m with security := if m.security = .fenced then .fenced else s.securityOf m }

/-- Firmware moves whole cells between nodes: neither context runs one, and none is parked in open shadow storage. -/
def State.mayMove (s : State) (cell : Nat) : Bool :=
  s.cellFree cell &&
    (s.tenantCell cell || (s.cell cell).shadow.all fun i => i.a.running.isNone && i.b.running.isNone)

/-- CELL_REPARTITION. -/
def execCellRepartition (cell part : Nat) (s : State) : Host.Outcome State Fault Refusal :=
  .next (s.byFirmware <| if cell < cellCount ∧ (s.part part).defined ∧ s.mayMove cell then s.moveCell cell part else s)

/-- PARTITION_CREATION: a tenant's firmware must verify; the shadow registers of its queues are 0. -/
def execPartitionCreation (p : PartitionSpec) (s : State) : Host.Outcome State Fault Refusal :=
  .next (s.byFirmware <| if 8 ≤ p.part ∨ (s.part p.part).defined ∨ (p.tenant ∧ !p.imageOk) ∨
      !p.cells.all (fun n => decide (n < cellCount) && s.mayMove n) then s
  else
    let s := s.modPart p.part fun x => { x with
      defined := true, tenant := p.tenant, queues := x.queues.map fun q => (q.1, { q.2 with sh := [] }) }
    let s := s.modHub fun h => { h with debug := Table.set h.debug p.part 0 }
    p.cells.foldl (fun s n => s.moveCell n p.part) s)

/-! ## Partition reset (27 R462, R463) -/

/-- The nodes that run on the cells of a partition. -/
def State.runningNodes (s : State) (part : Nat) : List NodeRef :=
  ((s.nodesOf part).filter fun p => p.2.status == .running && recKind p.2.record == kKernel).map (·.1)

/-- A cell of the partition is reset: its contexts stop with no cut. In C2 they stand in the image, which keeps CB; an image that an
exchange has parked goes with its work, and its CB is the cell's again where no other work holds it (log 58). -/
def State.resetCell (s0 : State) (n : Nat) : State :=
  let free := s0.cellFree n
  let s := (ctxsOf n).foldl (fun s c => (s.stopCtx c).modCtx c Ctx.emptied) s0
  s.modCell n fun l =>
    match l.shadow with
    | none => l
    | some i =>
      if i.power then { l with shadow := some { i with a := i.a.dropWork.emptied, b := i.b.dropWork.emptied } }
      else { l with shadow := none, cb := if free then i.cb else l.cb }

/-- A reset of a partition: its contexts stop with no cut, and each running node ends with SYSFAIL once the writes that it has made are
acknowledged (18 R360). -/
def State.resetPart (s : State) (part : Nat) : State :=
  let ns := (s.runningNodes part).filter fun n => (s.failureOf n).isNone
  let s := (s.cellsOf part).foldl State.resetCell s
  let s := s.modPart part fun p => { p with urgent := none, preempted := none, parked := false, reserved := none, keptFor := [] }
  ns.foldl (fun s n => s.nodeFails n sysfail 0 0) s

/-- PARTITION_RESET. -/
def execPartitionReset (part : Nat) (s : State) : Host.Outcome State Fault Refusal := .next (s.byFirmware (s.resetPart part))

/-- CAPABILITY_FAULT: an error record for the host, vector 512, and a reset of the partition that the task served. -/
def execCapabilityFault (part : Nat) (s : State) : Host.Outcome State Fault Refusal :=
  .next (s.byFirmware ((s.errorRec (.capability part)).resetPart part))

/-! ## Device reset (27 R466, R476; 01 R19) -/

/-- A cell after a reset: cells that the configuration disables, or all cells where a verification fails, are in quarantine. A cell that
a good record disables has STATE 2 where the firmware image fails (DESIGN CHOICE, log 81). -/
def cellAfter (cfg : DeviceConfig) (n : Nat) : Cell :=
  if !(cfg.recordOk && cfg.firmwareOk) then { Cell.init with state := 2, security := .fenced }
  else if cfg.disabled.contains n then { Cell.init with state := 3, security := .fenced }
  else Cell.init

/-- DEVICE_RESET: everything on the chip is as after reset; HBM keeps its contents where the stacks keep their power. -/
def execDeviceReset (cfg : DeviceConfig) (s : State) : Host.Outcome State Fault Refusal :=
  .next { State.reset with
    cells := (List.range cellCount).map fun n => (n, cellAfter cfg n)
    cfg := cfg
    hbm := if cfg.keepHbm then s.hbm else Memory.blank 0
    hostMem := s.hostMem
    peerMem := s.peerMem
    upsets := if cfg.keepHbm then s.upsets.filter fun u => u.mem == .hbm else []
    nextId := s.nextId
    performs := s.performs
    agenda := s.agenda
    pickCount := s.pickCount
    freeCount := s.freeCount
    hub := { Hub.init with resets := s.hub.resets + 1, nonces := s.hub.nonces + 1, replies := s.hub.replies } }

/-! ## SPDM (27 R467) -/

/-- An answer through the DOE mailbox. -/
def State.answer (s : State) (r : SpdmReply) : State := s.modReplies fun x => { x with spdm := x.spdm ++ [r] }

def execGetVersion (s : State) : Host.Outcome State Fault Refusal := .next (s.answer .version)

def execGetCapabilities (s : State) : Host.Outcome State Fault Refusal := .next (s.answer .capabilities)

def execNegotiateAlgorithms (s : State) : Host.Outcome State Fault Refusal := .next (s.answer .algorithms)

/-- GET_DIGESTS: the digest of the certificate chain. -/
def execGetDigests (s : State) : Host.Outcome State Fault Refusal :=
  .next (s.answer (.digests (Config.spdmValue s.hub.resets 0)))

def execGetCertificate (slot off len : Nat) (s : State) : Host.Outcome State Fault Refusal :=
  .next (s.answer (.certificate slot ((List.range len).map fun k => Config.certByte s.hub.resets slot (off + k))))

/-- CHALLENGE: signed with the identity key. -/
def execChallenge (nonce : BitVec 256) (s : State) : Host.Outcome State Fault Refusal :=
  .next (s.answer (.challengeAuth nonce (Config.spdmSign s.hub.resets nonce 0)))

/-- A measurement: boot ROM, configuration record, firmware, and the firmware of partitions 0 to 7. -/
def State.measurement (s : State) (i : Nat) : BitVec 384 :=
  if i ≤ 3 ∨ (s.part (i - 4)).defined then Config.spdmValue s.hub.resets i else 0

/-- GET_MEASUREMENTS: one index, or all of them by 255. -/
def execGetMeasurements (index : Nat) (nonce : BitVec 256) (s : State) : Host.Outcome State Fault Refusal :=
  let is := (List.range 12).filter fun i => i != 0 && (i == index || index == 255)
  .next (s.answer (.measurements nonce (is.map fun i => (i, s.measurement i)) (Config.spdmSign s.hub.resets nonce (index + 1))))

/-- Any other request is answered with ERROR UnsupportedRequest. -/
def execSpdmUnsupported (code : BitVec 8) (s : State) : Host.Outcome State Fault Refusal := .next (s.answer (.unsupported code))

/-! ## Power (27 R471) -/

/-- A cell takes a power state; C2 needs both contexts at rest, and is refused while shadow storage holds a pre-empted image. -/
def State.powerTo (s : State) (cell : Nat) (p : Power) : State :=
  let l := s.cell cell
  let set (s : State) (p : Power) : State := s.modCell cell fun l => { l with power := p }
  match p with
  | .p1 => if l.power = .c2 then s else set s .p1
  | .c1 => if l.power ≠ .c2 ∧ s.cellFree cell then set s .c1 else s
  | .c2 =>
    if l.power = .c2 ∨ !(ctxsOf cell).all s.atRest then s
    else if l.holdsImage then (if s.cellFree cell then set s .c1 else s)
    else set (s.park cell true) .c2
  | .p0 => set (if l.power = .c2 ∧ l.shadow.any (·.power) then s.unpark cell else s) .p0

/-- The debugger holds a cell: by a halt request, or at a BRK. -/
def State.debugHolds (s : State) (cell : Nat) : Bool := (s.cell cell).halted || (ctxsOf cell).any fun c => (s.ctx c).hold == .debug

/-- A request that reaches a debug-halted cell is deferred until the halt ends. -/
def State.powerRequest (s : State) (cell : Nat) (p : Power) : State :=
  if cellCount ≤ cell then s
  else if s.debugHolds cell then s.modCell cell fun l => { l with powerReq := some p }
  else s.powerTo cell p

def execPowerP1 (cell : Nat) (s : State) : Host.Outcome State Fault Refusal := .next (s.byFirmware (s.powerRequest cell .p1))

def execPowerC1 (cell : Nat) (s : State) : Host.Outcome State Fault Refusal := .next (s.byFirmware (s.powerRequest cell .c1))

def execPowerC2 (cell : Nat) (s : State) : Host.Outcome State Fault Refusal := .next (s.byFirmware (s.powerRequest cell .c2))

/-- POWER_C3: package sleep, once every cell is in C1 or C2. -/
def execPowerC3 (s : State) : Host.Outcome State Fault Refusal :=
  .next (s.byFirmware <| if (List.range cellCount).all fun n => (s.cell n).power == .c1 || (s.cell n).power == .c2 then
    s.modHub fun h => { h with sleep := true } else s)

/-- POWER_WAKE: the package wakes, and the cell goes to P0. -/
def execPowerWake (cell : Nat) (s : State) : Host.Outcome State Fault Refusal :=
  .next (s.byFirmware ((s.modHub fun h => { h with sleep := false }).powerRequest cell .p0))

/-! ## Debug (27 R468 to R471) -/

/-- DEBUG_STATE_SET: INVASIVE for a TENANT partition needs a token (R469). -/
def execDebugStateSet (part : Nat) (v : BitVec 2) (s : State) : Host.Outcome State Fault Refusal :=
  .next (s.byFirmware <| if v = 3 ∨ 8 ≤ part ∨ (v = 2 ∧ (s.part part).tenant) then s
  else s.modHub fun h => { h with debug := Table.set h.debug part v })

/-- DEBUG_TOKEN: over the nonce last issued, with a signature that verifies; the hub then issues another nonce. -/
def execDebugToken (t : DebugToken) (s : State) : Host.Outcome State Fault Refusal :=
  .next (if t.part < 8 ∧ t.nonce = Config.nonce s.hub.nonces ∧ Config.tokenVerifies t then
    s.modHub fun h => { h with debug := Table.set h.debug t.part 2, nonces := h.nonces + 1 }
  else s.modCounts fun n => { n with badTokens := n.badTokens + 1 })

/-- The debug state of a cell: that of its partition, but a FENCED cell stays NONINVASIVE (R468, R470). -/
def State.debugOf (s : State) (cell : Nat) : BitVec 2 :=
  match (s.cell cell).part with
  | some p => if Table.get s.hub.debug 0 p = 2#2 ∧ (s.cell cell).security = .fenced then 1 else Table.get s.hub.debug 0 p
  | none => 0

/-- Halt, step and state access are granted for a cell. -/
def State.debugGranted (s : State) (cell : Nat) : Bool := s.debugOf cell == 2#2

/-- The debugger of a partition reads the counters of a cell: from NONINVASIVE on, those of every context that is not a tenant's, a
tenant's own alone (R470). -/
def State.countersGranted (s : State) (part cell : Nat) : Bool :=
  Table.get s.hub.debug 0 part != 0#2 && ((s.cell cell).part == some part || !(s.part part).tenant && !s.tenantCell cell)

/-- Its trace: none of a FENCED cell. -/
def State.traceGranted (s : State) (part cell : Nat) : Bool := s.countersGranted part cell && (s.cell cell).security != .fenced

/-- DEBUG_HALT_REQUEST: a cell in C1 wakes first; in C2 and C3 a halt is refused. -/
def execDebugHaltRequest (cell : Nat) (s : State) : Host.Outcome State Fault Refusal :=
  .next (if !s.debugGranted cell || s.hub.sleep || (s.cell cell).power == .c2 then s
  else s.modCell cell fun l => { l with halted := true, stepping := false, power := if l.power = .c1 then .p0 else l.power })

/-- A context that BRK halted goes on at its cut (07 R175). -/
def Ctx.leaveBreak (c : Ctx) : Ctx := if c.hold = .debug then { c.resumeAt with hold := .free } else c

/-- The end of a debug halt: a deferred power request is made now. -/
def State.endHalt (s : State) (cell : Nat) : State :=
  let p := (s.cell cell).powerReq
  let s := s.modCell cell fun l => { l with halted := false, stepping := false, powerReq := none }
  let s := (ctxsOf cell).foldl (fun s c => s.modCtx c Ctx.leaveBreak) s
  match p with
  | some p => s.powerTo cell p
  | none => s

/-- DEBUG_RESUME: the halt ends, or the cell issues for one cell cycle, which INVASIVE grants (R468). -/
def execDebugResume (cell : Nat) (stepOne : Bool) (s : State) : Host.Outcome State Fault Refusal :=
  .next (if !s.debugHolds cell || stepOne && !s.debugGranted cell then s
  else if stepOne then
    let s := (ctxsOf cell).foldl (fun s c => s.modCtx c Ctx.leaveBreak) s
    s.modCell cell fun l => { l with halted := true, stepping := true }
  else s.endHalt cell)

/-- What a debug read of a cell gives where its power state refuses it (R471). -/
def State.debugError (s : State) (cell : Nat) : Option (BitVec 32) :=
  if s.hub.sleep then some 0xDEADC003#32 else if (s.cell cell).power = .c2 then some 0xDEADC002#32 else none

/-- A debug read that a right grants: the error code of the power state, or the value; none where the right is refused (R470, R471). -/
def State.debugRead {α : Type} (s : State) (cell : Nat) (granted : Bool) (v : α) : Option (BitVec 32 ⊕ α) :=
  match s.debugError cell with
  | some e => some (.inl e)
  | none => if granted then some (.inr v) else none

/-- The debugger of a partition reads an event counter of a cell; a cell in C1 serves it. -/
def State.debugCounter (s : State) (part cell k : Nat) : Option (BitVec 32 ⊕ Word) :=
  s.debugRead cell (s.countersGranted part cell) (Table.get (s.cell cell).evc 0 k)

/-- It traces a context: the pcs of its streams with the words that they have retired. -/
def State.debugTrace (s : State) (part : Nat) (c : CtxRef) : Option (BitVec 32 ⊕ List (Word × Word)) :=
  s.debugRead c.cell (s.traceGranted part c.cell) (Stream.all.map fun st => (((s.ctx c).str st).pc, ((s.ctx c).str st).seq))

/-- State access: a context as it stands. -/
def State.debugState (s : State) (c : CtxRef) : Option (BitVec 32 ⊕ Ctx) := s.debugRead c.cell (s.debugGranted c.cell) (s.ctx c)

/-! ## Droop (27 R473) -/

/-- An alarm of a cell: 6 stretched cycles, then 64 at half the issue rate; `halfRate` stands at 65 until they begin to count. -/
def Cell.alarm (l : Cell) : Cell := { l.count 14 1 with stretch := 6, halfRate := 65 }

/-- DROOP_ALARM: a disabled detector gives none. -/
def execDroopAlarm (cells : List Nat) (s : State) : Host.Outcome State Fault Refusal :=
  .next ((cells.filter fun n => decide (n < cellCount) && (s.die (dieOf n)).droopEn).foldl (fun s n => s.modCell n Cell.alarm) s)

/-- The 64 cycles at half the issue rate are over. -/
def Cell.halfOver (l : Cell) : Bool := l.stretch == 0 && l.halfRate == 1

/-- DROOP_HALF_RATE_END. -/
def execDroopHalfRateEnd (cell : Nat) (s : State) : Host.Outcome State Fault Refusal :=
  .next (if (s.cell cell).halfOver then s.modCell cell fun l => { l with halfRate := 0 } else s)

/-- One cell cycle of a droop. -/
def Cell.droopCycle (l : Cell) : Cell :=
  if l.stretch ≠ 0 then { l with stretch := l.stretch - 1 } else if 1 < l.halfRate then { l with halfRate := l.halfRate - 1 } else l

/-- At half the issue rate every second cell cycle issues, in PAIR mode every second window of each context. -/
def Cell.rateAllows (l : Cell) : Bool :=
  l.halfRate == 0 || l.stretch != 0 || (if l.pair then l.cycle % 4 < 2 else l.cycle % 2 == 0)

/-! ## Time (26 R448, R455) -/

/-- Ticks in a millisecond of `TSTAMP`. -/
def tickMilli : Nat := 600000

/-- A millisecond has passed whose decay tick has not come yet. -/
def State.decayDue (s : State) : Bool := !s.hub.decay && decide (s.hub.decays < s.hub.tstamp.toNat / tickMilli)

/-- The reference clock of 600 MHz ticks once in two periods of 1.2 GHz, whatever the cells do: a tick is due (01 R10). -/
def State.tickDue (s : State) : Bool := s.hub.tstamp != BitVec.ofNat 64 (s.hub.time / 2)

/-- TSTAMP_TICK. -/
def execTstampTick (s : State) : Host.Outcome State Fault Refusal :=
  .next (if s.tickDue then s.modHub fun h => { h with tstamp := h.tstamp + 1 } else s)

/-- SUSPICION_DECAY: the tick comes in the present hub cycle, and is applied at its end, behind the increments of the cycle (R455). -/
def execSuspicionDecay (s : State) : Host.Outcome State Fault Refusal :=
  .next (if s.decayDue then s.modHub fun h => { h with decay := true } else s)

/-- The decay tick of a hub cycle: every score above 0 falls by 1. -/
def State.applyDecay (s : State) : State :=
  if s.hub.decay then
    { s with cells := s.cells.map fun (p : Nat × Cell) => (p.1, { p.2 with score := p.2.score - 1 }) }.modHub fun h =>
      { h with decays := h.decays + 1, decay := false }
  else s

/-! ## Suspicion and targeted test (26 R455, R456) -/

/-- The score at which a cell in service is withdrawn. -/
def suspicionLimit : Nat := 256

/-- The threshold test of a hub cycle. -/
def State.withdraw (s : State) : State :=
  { s with cells := s.cells.map fun p =>
      (p.1, if p.2.state = 0#2 ∧ suspicionLimit ≤ p.2.score then { p.2 with state := 1 } else p.2) }

/-- HUB_LINK_CHECKSUM_RETRY. -/
def execHubLinkChecksumRetry (cell : Nat) (s : State) : Host.Outcome State Fault Refusal :=
  .next (if cell < cellCount then s.suspect cell 16 else s)

/-- TARGETED_TEST_START: a withdrawn cell on which no node runs. -/
def execTargetedTestStart (cell : Nat) (s : State) : Host.Outcome State Fault Refusal :=
  .next (if (s.cell cell).state = 1#2 ∧ !(s.cell cell).testing ∧ s.cellIdle cell then
    s.modCell cell fun l => { l with testing := true } else s)

/-- The failed MKATs of a test count and raise the score, as any MKAT failure does (R455). -/
def Cell.testFailures (l : Cell) (n : Nat) : Cell :=
  { l with katfail := BitVec.ofNat 32 (satAdd32 l.katfail.toNat n), score := min (l.score + 32 * n) 0xFFFF }

/-- TARGETED_TEST_END: the first result is that of the SRAM patterns, the others are those of the MKATs. A pass halves the score
and returns the cell, unless firmware has written its STATE meanwhile; a failure fences it. -/
def execTargetedTestEnd (cell : Nat) (fails : List Bool) (s : State) : Host.Outcome State Fault Refusal :=
  .next (if !(s.cell cell).testing then s
  else
    let s := s.modCell cell fun l =>
      { l.testFailures (fails.tail.filter id).length with testing := false, tests := l.tests + 1 }
    if fails.any id then (s.modCounts fun n => { n with testFails := n.testFails + 1 }).setCellState cell 2
    else
      let half := (s.cell cell).score / 2
      let t := s.modCell cell fun l => { l with score := half }
      if (s.cell cell).state = 1#2 then t.setCellState cell (if suspicionLimit ≤ half then 1 else 0) else t)

/-! ## The patrol scrubber (14 R270, R271) -/

/-- SCRUB_PATROL: the unit is read as any other; in C3 the scrubber stands still. -/
def execScrubPatrol (unit : Nat) (s : State) : Host.Outcome State Fault Refusal :=
  .next (if s.hub.sleep ∨ hbmSize ≤ 8 * unit then s else s.eccRead .hbm (8 * unit) 8 none)

end Sys2Proof.Machine
end

