-- ==== Sys2Proof/Machine/Dispatch.lean ====
section
/-! DEFINITION. The meaning of every step of the opcode table: one arm per constructor of `Instr`. -/
namespace Sys2Proof.Machine

def exec (i : Instr) (s : State) : Host.Outcome State Fault Refusal :=
  match i with
  | .nop j g => Sys2Proof.Machine.execNop j g s
  | .illegalWord w => Sys2Proof.Machine.execIllegalWord w s
  | .halt => Sys2Proof.Machine.execHalt s
  | .trap o => Sys2Proof.Machine.execTrap o s
  | .tret o => Sys2Proof.Machine.execTret o s
  | .gfence o => Sys2Proof.Machine.execGfence o s
  | .bsync o => Sys2Proof.Machine.execBsync o s
  | .tstamp o => Sys2Proof.Machine.execTstamp o s
  | .rngd o => Sys2Proof.Machine.execRngd o s
  | .cntr o => Sys2Proof.Machine.execCntr o s
  | .nlaunch o => Sys2Proof.Machine.execNlaunch o s
  | .lqpop o => Sys2Proof.Machine.execLqpop o s
  | .lqpopNb o => Sys2Proof.Machine.execLqpopNb o s
  | .lvset o => Sys2Proof.Machine.execLvset o s
  | .epopen o => Sys2Proof.Machine.execEpopen o s
  | .epclose o => Sys2Proof.Machine.execEpclose o s
  | .rwpost o => Sys2Proof.Machine.execRwpost o s
  | .jstat o => Sys2Proof.Machine.execJstat o s
  | .wdld o => Sys2Proof.Machine.execWdld o s
  | .brk o => Sys2Proof.Machine.execBrk o s
  | .add o => Sys2Proof.Machine.execAdd o s
  | .sub o => Sys2Proof.Machine.execSub o s
  | .and o => Sys2Proof.Machine.execAnd o s
  | .or o => Sys2Proof.Machine.execOr o s
  | .xor o => Sys2Proof.Machine.execXor o s
  | .andn o => Sys2Proof.Machine.execAndn o s
  | .shl o => Sys2Proof.Machine.execShl o s
  | .shr o => Sys2Proof.Machine.execShr o s
  | .sra o => Sys2Proof.Machine.execSra o s
  | .min o => Sys2Proof.Machine.execMin o s
  | .max o => Sys2Proof.Machine.execMax o s
  | .minu o => Sys2Proof.Machine.execMinu o s
  | .maxu o => Sys2Proof.Machine.execMaxu o s
  | .seq o => Sys2Proof.Machine.execSeq o s
  | .slt o => Sys2Proof.Machine.execSlt o s
  | .sltu o => Sys2Proof.Machine.execSltu o s
  | .mul o => Sys2Proof.Machine.execMul o s
  | .mulh o => Sys2Proof.Machine.execMulh o s
  | .mulhu o => Sys2Proof.Machine.execMulhu o s
  | .div o => Sys2Proof.Machine.execDiv o s
  | .divu o => Sys2Proof.Machine.execDivu o s
  | .rem o => Sys2Proof.Machine.execRem o s
  | .remu o => Sys2Proof.Machine.execRemu o s
  | .clz o => Sys2Proof.Machine.execClz o s
  | .ctz o => Sys2Proof.Machine.execCtz o s
  | .popc o => Sys2Proof.Machine.execPopc o s
  | .rol o => Sys2Proof.Machine.execRol o s
  | .ror o => Sys2Proof.Machine.execRor o s
  | .addw o => Sys2Proof.Machine.execAddw o s
  | .subw o => Sys2Proof.Machine.execSubw o s
  | .sel o => Sys2Proof.Machine.execSel o s
  | .cmpEq o => Sys2Proof.Machine.execCmpEq o s
  | .cmpNe o => Sys2Proof.Machine.execCmpNe o s
  | .cmpLt o => Sys2Proof.Machine.execCmpLt o s
  | .cmpGe o => Sys2Proof.Machine.execCmpGe o s
  | .cmpLtu o => Sys2Proof.Machine.execCmpLtu o s
  | .cmpGeu o => Sys2Proof.Machine.execCmpGeu o s
  | .pand o => Sys2Proof.Machine.execPand o s
  | .por o => Sys2Proof.Machine.execPor o s
  | .pxor o => Sys2Proof.Machine.execPxor o s
  | .pandn o => Sys2Proof.Machine.execPandn o s
  | .pnot o => Sys2Proof.Machine.execPnot o s
  | .pset o => Sys2Proof.Machine.execPset o s
  | .pclr o => Sys2Proof.Machine.execPclr o s
  | .addi o => Sys2Proof.Machine.execAddi o s
  | .andi o => Sys2Proof.Machine.execAndi o s
  | .ori o => Sys2Proof.Machine.execOri o s
  | .xori o => Sys2Proof.Machine.execXori o s
  | .shli o => Sys2Proof.Machine.execShli o s
  | .shri o => Sys2Proof.Machine.execShri o s
  | .srai o => Sys2Proof.Machine.execSrai o s
  | .slti o => Sys2Proof.Machine.execSlti o s
  | .muli o => Sys2Proof.Machine.execMuli o s
  | .li o => Sys2Proof.Machine.execLi o s
  | .lil o => Sys2Proof.Machine.execLil o s
  | .liw o => Sys2Proof.Machine.execLiw o s
  | .lix o => Sys2Proof.Machine.execLix o s
  | .br o => Sys2Proof.Machine.execBr o s
  | .bp o => Sys2Proof.Machine.execBp o s
  | .bnp o => Sys2Proof.Machine.execBnp o s
  | .call o => Sys2Proof.Machine.execCall o s
  | .bz o => Sys2Proof.Machine.execBz o s
  | .bnz o => Sys2Proof.Machine.execBnz o s
  | .jr o => Sys2Proof.Machine.execJr o s
  | .jrl o => Sys2Proof.Machine.execJrl o s
  | .ld o => Sys2Proof.Machine.execLd o s
  | .lds o => Sys2Proof.Machine.execLds o s
  | .st o => Sys2Proof.Machine.execSt o s
  | .amoAdd o x => Sys2Proof.Machine.execAmoAdd o x s
  | .amoAnd o x => Sys2Proof.Machine.execAmoAnd o x s
  | .amoOr o x => Sys2Proof.Machine.execAmoOr o x s
  | .amoXor o x => Sys2Proof.Machine.execAmoXor o x s
  | .amoMin o x => Sys2Proof.Machine.execAmoMin o x s
  | .amoMax o x => Sys2Proof.Machine.execAmoMax o x s
  | .amoMinu o x => Sys2Proof.Machine.execAmoMinu o x s
  | .amoMaxu o x => Sys2Proof.Machine.execAmoMaxu o x s
  | .amoSwap o x => Sys2Proof.Machine.execAmoSwap o x s
  | .amoFadd o x => Sys2Proof.Machine.execAmoFadd o x s
  | .cas size o x => Sys2Proof.Machine.execCas size o x s
  | .fenceFull o => Sys2Proof.Machine.execFenceFull o s
  | .fenceLd o => Sys2Proof.Machine.execFenceLd o s
  | .fenceSt o => Sys2Proof.Machine.execFenceSt o s
  | .fenceEng o => Sys2Proof.Machine.execFenceEng o s
  | .movxr o => Sys2Proof.Machine.execMovxr o s
  | .movxk o => Sys2Proof.Machine.execMovxk o s
  | .movxw o => Sys2Proof.Machine.execMovxw o s
  | .qcnt o => Sys2Proof.Machine.execQcnt o s
  | .qdrop o => Sys2Proof.Machine.execQdrop o s
  | .qclr o => Sys2Proof.Machine.execQclr o s
  | .tsig o => Sys2Proof.Machine.execTsig o s
  | .twait o => Sys2Proof.Machine.execTwait o s
  | .tpoll o => Sys2Proof.Machine.execTpoll o s
  | .loop o => Sys2Proof.Machine.execLoop o s
  | .loopi o => Sys2Proof.Machine.execLoopi o s
  | .loopm o => Sys2Proof.Machine.execLoopm o s
  | .csrr o => Sys2Proof.Machine.execCsrr o s
  | .csrw o => Sys2Proof.Machine.execCsrw o s
  | .csrs o => Sys2Proof.Machine.execCsrs o s
  | .csrc o => Sys2Proof.Machine.execCsrc o s
  | .vHalt => Sys2Proof.Machine.execVHalt s
  | .vGfence o => Sys2Proof.Machine.execVGfence o s
  | .vTsig o => Sys2Proof.Machine.execVTsig o s
  | .vTwait o => Sys2Proof.Machine.execVTwait o s
  | .vTpoll o => Sys2Proof.Machine.execVTpoll o s
  | .vBrk o => Sys2Proof.Machine.execVBrk o s
  | .vadd o => Sys2Proof.Machine.execVadd o s
  | .vsub o => Sys2Proof.Machine.execVsub o s
  | .vmul o => Sys2Proof.Machine.execVmul o s
  | .vmulh o => Sys2Proof.Machine.execVmulh o s
  | .vmulhu o => Sys2Proof.Machine.execVmulhu o s
  | .vmad o => Sys2Proof.Machine.execVmad o s
  | .vmin o => Sys2Proof.Machine.execVmin o s
  | .vmax o => Sys2Proof.Machine.execVmax o s
  | .vminu o => Sys2Proof.Machine.execVminu o s
  | .vmaxu o => Sys2Proof.Machine.execVmaxu o s
  | .vabs o => Sys2Proof.Machine.execVabs o s
  | .vand o => Sys2Proof.Machine.execVand o s
  | .vor o => Sys2Proof.Machine.execVor o s
  | .vxor o => Sys2Proof.Machine.execVxor o s
  | .vandn o => Sys2Proof.Machine.execVandn o s
  | .vshl o => Sys2Proof.Machine.execVshl o s
  | .vshr o => Sys2Proof.Machine.execVshr o s
  | .vsra o => Sys2Proof.Machine.execVsra o s
  | .vfsl o => Sys2Proof.Machine.execVfsl o s
  | .vfsr o => Sys2Proof.Machine.execVfsr o s
  | .vclz o => Sys2Proof.Machine.execVclz o s
  | .vpopc o => Sys2Proof.Machine.execVpopc o s
  | .vadds o => Sys2Proof.Machine.execVadds o s
  | .vsubs o => Sys2Proof.Machine.execVsubs o s
  | .vaddsu o => Sys2Proof.Machine.execVaddsu o s
  | .vsubsu o => Sys2Proof.Machine.execVsubsu o s
  | .vavgu o => Sys2Proof.Machine.execVavgu o s
  | .vcmpEq o => Sys2Proof.Machine.execVcmpEq o s
  | .vcmpNe o => Sys2Proof.Machine.execVcmpNe o s
  | .vcmpLt o => Sys2Proof.Machine.execVcmpLt o s
  | .vcmpGe o => Sys2Proof.Machine.execVcmpGe o s
  | .vcmpLtu o => Sys2Proof.Machine.execVcmpLtu o s
  | .vcmpGeu o => Sys2Proof.Machine.execVcmpGeu o s
  | .vcmpFeq o => Sys2Proof.Machine.execVcmpFeq o s
  | .vcmpFlt o => Sys2Proof.Machine.execVcmpFlt o s
  | .vcmpFle o => Sys2Proof.Machine.execVcmpFle o s
  | .vcmpFun o => Sys2Proof.Machine.execVcmpFun o s
  | .fadd o => Sys2Proof.Machine.execFadd o s
  | .fsub o => Sys2Proof.Machine.execFsub o s
  | .fmul o => Sys2Proof.Machine.execFmul o s
  | .fma o => Sys2Proof.Machine.execFma o s
  | .fmin o => Sys2Proof.Machine.execFmin o s
  | .fmax o => Sys2Proof.Machine.execFmax o s
  | .fabs o => Sys2Proof.Machine.execFabs o s
  | .fneg o => Sys2Proof.Machine.execFneg o s
  | .frcp o => Sys2Proof.Machine.execFrcp o s
  | .frsq o => Sys2Proof.Machine.execFrsq o s
  | .fsqrt o => Sys2Proof.Machine.execFsqrt o s
  | .fexp2 o => Sys2Proof.Machine.execFexp2 o s
  | .flog2 o => Sys2Proof.Machine.execFlog2 o s
  | .cvt o code => Sys2Proof.Machine.execCvt o code s
  | .radd o => Sys2Proof.Machine.execRadd o s
  | .rfadd o => Sys2Proof.Machine.execRfadd o s
  | .rmin o => Sys2Proof.Machine.execRmin o s
  | .rmax o => Sys2Proof.Machine.execRmax o s
  | .rminu o => Sys2Proof.Machine.execRminu o s
  | .rmaxu o => Sys2Proof.Machine.execRmaxu o s
  | .rand o => Sys2Proof.Machine.execRand o s
  | .vredRor o => Sys2Proof.Machine.execVredRor o s
  | .rxor o => Sys2Proof.Machine.execRxor o s
  | .rimax o => Sys2Proof.Machine.execRimax o s
  | .vscan o => Sys2Proof.Machine.execVscan o s
  | .vfscan o => Sys2Proof.Machine.execVfscan o s
  | .vperm o => Sys2Proof.Machine.execVperm o s
  | .vslup o => Sys2Proof.Machine.execVslup o s
  | .vsldn o => Sys2Proof.Machine.execVsldn o s
  | .vcmpr o => Sys2Proof.Machine.execVcmpr o s
  | .vexpd o => Sys2Proof.Machine.execVexpd o s
  | .vsplt o => Sys2Proof.Machine.execVsplt o s
  | .vsel o => Sys2Proof.Machine.execVsel o s
  | .vins o => Sys2Proof.Machine.execVins o s
  | .vext o => Sys2Proof.Machine.execVext o s
  | .vbcst o => Sys2Proof.Machine.execVbcst o s
  | .mand o => Sys2Proof.Machine.execMand o s
  | .mor o => Sys2Proof.Machine.execMor o s
  | .mxor o => Sys2Proof.Machine.execMxor o s
  | .mandn o => Sys2Proof.Machine.execMandn o s
  | .mnot o => Sys2Proof.Machine.execMnot o s
  | .mpop o => Sys2Proof.Machine.execMpop o s
  | .mset o => Sys2Proof.Machine.execMset o s
  | .mclr o => Sys2Proof.Machine.execMclr o s
  | .mfromv o => Sys2Proof.Machine.execMfromv o s
  | .mtov o => Sys2Proof.Machine.execMtov o s
  | .vld o => Sys2Proof.Machine.execVld o s
  | .vst o => Sys2Proof.Machine.execVst o s
  | .vstb o => Sys2Proof.Machine.execVstb o s
  | .vgath o => Sys2Proof.Machine.execVgath o s
  | .vscat o => Sys2Proof.Machine.execVscat o s
  | .vwmac o => Sys2Proof.Machine.execVwmac o s
  | .vwpool o => Sys2Proof.Machine.execVwpool o s
  | .aadd o => Sys2Proof.Machine.execAadd o s
  | .aaddi o => Sys2Proof.Machine.execAaddi o s
  | .ali o => Sys2Proof.Machine.execAli o s
  | .alih o => Sys2Proof.Machine.execAlih o s
  | .afrom o => Sys2Proof.Machine.execAfrom o s
  | .ato o => Sys2Proof.Machine.execAto o s
  | .vaddi o => Sys2Proof.Machine.execVaddi o s
  | .vandi o => Sys2Proof.Machine.execVandi o s
  | .vshli o => Sys2Proof.Machine.execVshli o s
  | .vshri o => Sys2Proof.Machine.execVshri o s
  | .vsrai o => Sys2Proof.Machine.execVsrai o s
  | .pquant o => Sys2Proof.Machine.execPquant o s
  | .pldf o => Sys2Proof.Machine.execPldf o s
  | .pstf o => Sys2Proof.Machine.execPstf o s
  | .rcinit o => Sys2Proof.Machine.execRcinit o s
  | .rcenc o => Sys2Proof.Machine.execRcenc o s
  | .rcdec o => Sys2Proof.Machine.execRcdec o s
  | .rcencv o => Sys2Proof.Machine.execRcencv o s
  | .rcdecv o => Sys2Proof.Machine.execRcdecv o s
  | .rcbinv o => Sys2Proof.Machine.execRcbinv o s
  | .rcbinvEnc o => Sys2Proof.Machine.execRcbinvEnc o s
  | .rcflush o => Sys2Proof.Machine.execRcflush o s
  | .rcmark o => Sys2Proof.Machine.execRcmark o s
  | .rcback o => Sys2Proof.Machine.execRcback o s
  | .rcstat o => Sys2Proof.Machine.execRcstat o s
  | .mHalt => Sys2Proof.Machine.execMHalt s
  | .mGfence o => Sys2Proof.Machine.execMGfence o s
  | .mTsig o => Sys2Proof.Machine.execMTsig o s
  | .mTwait o => Sys2Proof.Machine.execMTwait o s
  | .mBrk o => Sys2Proof.Machine.execMBrk o s
  | .mfmt o => Sys2Proof.Machine.execMfmt o s
  | .mfmtT o => Sys2Proof.Machine.execMfmtT o s
  | .mldw o => Sys2Proof.Machine.execMldw o s
  | .mswap o => Sys2Proof.Machine.execMswap o s
  | .mstr o => Sys2Proof.Machine.execMstr o s
  | .mwin o => Sys2Proof.Machine.execMwin o s
  | .mzero o => Sys2Proof.Machine.execMzero o s
  | .mout o => Sys2Proof.Machine.execMout o s
  | .mkat o sig => Sys2Proof.Machine.execMkat o sig s
  | .xHalt => Sys2Proof.Machine.execXHalt s
  | .xGfence o => Sys2Proof.Machine.execXGfence o s
  | .xTsig o => Sys2Proof.Machine.execXTsig o s
  | .xTwait o => Sys2Proof.Machine.execXTwait o s
  | .xBrk o => Sys2Proof.Machine.execXBrk o s
  | .xstat o => Sys2Proof.Machine.execXstat o s
  | .xcpy o => Sys2Proof.Machine.execXcpy o s
  | .xcpy2 o => Sys2Proof.Machine.execXcpy2 o s
  | .xgath o => Sys2Proof.Machine.execXgath o s
  | .xscat o => Sys2Proof.Machine.execXscat o s
  | .xfill o => Sys2Proof.Machine.execXfill o s
  | .xsend o => Sys2Proof.Machine.execXsend o s
  | .xpeer o => Sys2Proof.Machine.execXpeer o s
  | .xlbw o => Sys2Proof.Machine.execXlbw o s
  | .xlbc o => Sys2Proof.Machine.execXlbc o s
  | .xred o => Sys2Proof.Machine.execXred o s
  | .xreds o => Sys2Proof.Machine.execXreds o s
  | .xpref o => Sys2Proof.Machine.execXpref o s
  | .resultDue c tok => Sys2Proof.Machine.execResultDue c tok s
  | .moduloPassEnd c => Sys2Proof.Machine.execModuloPassEnd c s
  | .haltBundleRetire c => Sys2Proof.Machine.execHaltBundleRetire c s
  | .engineOpStart c op => Sys2Proof.Machine.execEngineOpStart c op s
  | .engineOpComplete c op => Sys2Proof.Machine.execEngineOpComplete c op s
  | .asyncFault c op => Sys2Proof.Machine.execAsyncFault c op s
  | .trapEntry c => Sys2Proof.Machine.execTrapEntry c s
  | .firmwareResume c => Sys2Proof.Machine.execFirmwareResume c s
  | .firmwareFail c => Sys2Proof.Machine.execFirmwareFail c s
  | .firmwareRerun c => Sys2Proof.Machine.execFirmwareRerun c s
  | .barrierRelease part dom => Sys2Proof.Machine.execBarrierRelease part dom s
  | .post acc => Sys2Proof.Machine.execPost acc s
  | .perform acc => Sys2Proof.Machine.execPerform acc s
  | .ack acc => Sys2Proof.Machine.execAck acc s
  | .read acc => Sys2Proof.Machine.execRead acc s
  | .readCacheEvict cell line => Sys2Proof.Machine.execReadCacheEvict cell line s
  | .pageWalk c st va => Sys2Proof.Machine.execPageWalk c st va s
  | .tlbPrefetchWalk c st => Sys2Proof.Machine.execTlbPrefetchWalk c st s
  | .coderEmissionWrite c slot => Sys2Proof.Machine.execCoderEmissionWrite c slot s
  | .coderReadAhead c slot => Sys2Proof.Machine.execCoderReadAhead c slot s
  | .xpeerArrival t => Sys2Proof.Machine.execXpeerArrival t s
  | .xpeerAcknowledge c op granted => Sys2Proof.Machine.execXpeerAcknowledge c op granted s
  | .rewardMessageArrival msg => Sys2Proof.Machine.execRewardMessageArrival msg s
  | .barrierTokenArrival tok => Sys2Proof.Machine.execBarrierTokenArrival tok s
  | .peerAccess a => Sys2Proof.Machine.execPeerAccess a s
  | .flitRetry f => Sys2Proof.Machine.execFlitRetry f s
  | .lsaLossTimeout acc => Sys2Proof.Machine.execLsaLossTimeout acc s
  | .joinMessageIntake part => Sys2Proof.Machine.execJoinMessageIntake part s
  | .openDeadline entry => Sys2Proof.Machine.execOpenDeadline entry s
  | .closeDeadlineDrop entry => Sys2Proof.Machine.execCloseDeadlineDrop entry s
  | .closeDeadlineFill entry => Sys2Proof.Machine.execCloseDeadlineFill entry s
  | .jholdExpiry entry => Sys2Proof.Machine.execJholdExpiry entry s
  | .scanTake part => Sys2Proof.Machine.execScanTake part s
  | .releaseRecordEntry part => Sys2Proof.Machine.execReleaseRecordEntry part s
  | .scanJob node => Sys2Proof.Machine.execScanJob node s
  | .lqtailWrite part q v => Sys2Proof.Machine.execLqtailWrite part q v s
  | .lqstatOvrClear part q v => Sys2Proof.Machine.execLqstatOvrClear part q v s
  | .lqerrWrite part q => Sys2Proof.Machine.execLqerrWrite part q s
  | .launch part q => Sys2Proof.Machine.execLaunch part q s
  | .setonly part q => Sys2Proof.Machine.execSetonly part q s
  | .packetFence part q => Sys2Proof.Machine.execPacketFence part q s
  | .signal part q => Sys2Proof.Machine.execSignal part q s
  | .nodePlacement node place => Sys2Proof.Machine.execNodePlacement node place s
  | .nodeCompletion node => Sys2Proof.Machine.execNodeCompletion node s
  | .copyNode node => Sys2Proof.Machine.execCopyNode node s
  | .unsplicedRerun node => Sys2Proof.Machine.execUnsplicedRerun node s
  | .agePromotion node => Sys2Proof.Machine.execAgePromotion node s
  | .reservation node => Sys2Proof.Machine.execReservation node s
  | .nodeBoundaryPreemption part => Sys2Proof.Machine.execNodeBoundaryPreemption part s
  | .urgentPreemption part => Sys2Proof.Machine.execUrgentPreemption part s
  | .urgentLimitExpiry part => Sys2Proof.Machine.execUrgentLimitExpiry part s
  | .shadowExchange part => Sys2Proof.Machine.execShadowExchange part s
  | .preemptResume part => Sys2Proof.Machine.execPreemptResume part s
  | .tlbinvGo part v => Sys2Proof.Machine.execTlbinvGo part v s
  | .tlbinvRejClear part => Sys2Proof.Machine.execTlbinvRejClear part s
  | .tlbinvComplete part => Sys2Proof.Machine.execTlbinvComplete part s
  | .jownerWrite v => Sys2Proof.Machine.execJownerWrite v s
  | .cellmodeWrite cell v => Sys2Proof.Machine.execCellmodeWrite cell v s
  | .cellmodeHeldApply cell => Sys2Proof.Machine.execCellmodeHeldApply cell s
  | .domainRegisterWrite c reg v => Sys2Proof.Machine.execDomainRegisterWrite c reg v s
  | .grantTableLoad entries => Sys2Proof.Machine.execGrantTableLoad entries s
  | .reliabilityStateWrite cell v => Sys2Proof.Machine.execReliabilityStateWrite cell v s
  | .deadLetterAck v => Sys2Proof.Machine.execDeadLetterAck v s
  | .deadLetterClear => Sys2Proof.Machine.execDeadLetterClear s
  | .registerWrite w => Sys2Proof.Machine.execRegisterWrite w s
  | .capabilityFault part => Sys2Proof.Machine.execCapabilityFault part s
  | .partitionReset part => Sys2Proof.Machine.execPartitionReset part s
  | .cellRepartition cell part => Sys2Proof.Machine.execCellRepartition cell part s
  | .deviceReset cfg => Sys2Proof.Machine.execDeviceReset cfg s
  | .hostMemRead addr len => Sys2Proof.Machine.execHostMemRead addr len s
  | .hostMemWrite addr data => Sys2Proof.Machine.execHostMemWrite addr data s
  | .getVersion => Sys2Proof.Machine.execGetVersion s
  | .getCapabilities => Sys2Proof.Machine.execGetCapabilities s
  | .negotiateAlgorithms => Sys2Proof.Machine.execNegotiateAlgorithms s
  | .getDigests => Sys2Proof.Machine.execGetDigests s
  | .getCertificate slot off len => Sys2Proof.Machine.execGetCertificate slot off len s
  | .challenge nonce => Sys2Proof.Machine.execChallenge nonce s
  | .getMeasurements index nonce => Sys2Proof.Machine.execGetMeasurements index nonce s
  | .spdmUnsupported code => Sys2Proof.Machine.execSpdmUnsupported code s
  | .debugToken t => Sys2Proof.Machine.execDebugToken t s
  | .debugHaltRequest cell => Sys2Proof.Machine.execDebugHaltRequest cell s
  | .powerP1 cell => Sys2Proof.Machine.execPowerP1 cell s
  | .powerC1 cell => Sys2Proof.Machine.execPowerC1 cell s
  | .powerC2 cell => Sys2Proof.Machine.execPowerC2 cell s
  | .powerC3 => Sys2Proof.Machine.execPowerC3 s
  | .powerWake cell => Sys2Proof.Machine.execPowerWake cell s
  | .leaveTenant cell => Sys2Proof.Machine.execLeaveTenant cell s
  | .droopAlarm cells => Sys2Proof.Machine.execDroopAlarm cells s
  | .droopHalfRateEnd cell => Sys2Proof.Machine.execDroopHalfRateEnd cell s
  | .tstampTick => Sys2Proof.Machine.execTstampTick s
  | .suspicionDecay => Sys2Proof.Machine.execSuspicionDecay s
  | .targetedTestStart cell => Sys2Proof.Machine.execTargetedTestStart cell s
  | .targetedTestEnd cell fails => Sys2Proof.Machine.execTargetedTestEnd cell fails s
  | .scrubPatrol unit => Sys2Proof.Machine.execScrubPatrol unit s
  | .debugResume cell stepOne => Sys2Proof.Machine.execDebugResume cell stepOne s
  | .debugStateSet part v => Sys2Proof.Machine.execDebugStateSet part v s
  | .partitionCreation p => Sys2Proof.Machine.execPartitionCreation p s
  | .hubLinkChecksumRetry cell => Sys2Proof.Machine.execHubLinkChecksumRetry cell s
  | .firmwareStore addr v => Sys2Proof.Machine.execFirmwareStore addr v s
  | .pageMigrationCopy src dst len => Sys2Proof.Machine.execPageMigrationCopy src dst len s
  | .giuthPortTraining port up => Sys2Proof.Machine.execGiuthPortTraining port up s

end Sys2Proof.Machine
end

