-- ==== Sys2Proof/Machine/Issue.lean ====
section
/-!
DEFINITION. The issue of words: fetch, words that run apart, bundles, and the clock (02 R23 to R32, R45, R48; 04 R82, R96, R98,
R100; 07 R156, R168; 12 R246 to R248, R252; 26 R450, R455, R456; 27 R471, R473).
-/
namespace Sys2Proof.Machine

noncomputable section

/-! ## Fetch (04 R81, R82, R96, 07 R156, 22 R409, R413) -/

/-- The current word of a stream: its instruction, the word, and the splice-map entry of a forward word. -/
structure Fetched where
  instr : Instr
  code  : BitVec 32
  fwd   : Option Word

/-- Bit 31 of a word (02 R23). -/
def Fetched.j (f : Fetched) : Bool := bitOf f.code 31

/-- An address lies in the splice window. -/
def inWindow (va : Word) : Bool := decide (spliceBase ≤ va.toNat) && decide (va.toNat < spliceBase + spliceSize)

/-- The splice-map entry of a forward word. -/
def State.forwardAt (s : State) (pc : Word) : Option Word := (s.spliceEntry pc).filter fun e => bitOf e 63

/-- The instruction at a stream's pc, or the trap of its fetch; the second word of a pair that cannot be fetched makes the first
one ILLOP. -/
def State.fetch (s : State) (c : CtxRef) (st : Stream) : Except Trap Fetched :=
  let pc := ((s.ctx c).str st).pc
  match s.codeAt c st pc with
  | .error cause => .error { cause := cause, addr := pc, st := st, async := false, syn := some (s.synOf c .fetch pc) }
  | .ok w =>
    if isPair st w.toNat then
      match s.codeAt c st (pc + 4) with
      | .error _ => .error { cause := .illop, addr := pc + 4, st := st, async := false }
      | .ok w2 => .ok { instr := decodeWords st w w2, code := w, fwd := s.forwardAt pc }
    else .ok { instr := decodeWords st w 0, code := w, fwd := s.forwardAt pc }

/-- A stream fetches the word at its pc, and the second word of a pair (17 R333). -/
def State.touchCode (s : State) (c : CtxRef) (st : Stream) : State :=
  let pc := ((s.ctx c).str st).pc
  let t := s.touchWord c st pc
  match s.codeAt c st pc with
  | .ok w => if isPair st w.toNat then t.touchWord c st (pc + 4) else t
  | .error _ => t

/-! ## Who may issue -/

/-- A cell whose clock and rate let it issue: it is not gated, asleep or halted by the debugger (27 R471, R473). -/
def State.cellIssues (s : State) (n : Nat) : Bool :=
  let l := s.cell n
  (l.power == .p0 || l.power == .p1) && !s.hub.sleep && (!l.halted || l.stepping) && l.rateAllows

/-- An urgent request holds a context that stands at a generation fence (02 R48). -/
def State.urgentHold (s : State) (c : CtxRef) : Bool := (s.part (s.partOf c)).urgent.isSome && (s.ctx c).atFence

/-- Context B of a SOLO cell issues only while A waits for firmware (02 R30, 12 R252). -/
def State.bankIssues (s : State) (c : CtxRef) : Bool :=
  (s.cell c.cell).pair || c.bank == .a || (s.ctx { c with bank := .a }).hold == .firmware

/-- A context runs a node, and nothing outside its words holds it. -/
def State.mayIssue (s : State) (c : CtxRef) : Bool :=
  let x := s.ctx c
  s.cellIssues c.cell && x.running.isSome && x.hold == .free && x.cut.isNone && s.bankIssues c && !s.urgentHold c &&
    !x.overdue (s.cell c.cell).cycle

/-- The present cell cycle is a window of the context (02 R31). -/
def State.ownWindow (s : State) (c : CtxRef) : Bool :=
  !(s.cell c.cell).pair || (s.cell c.cell).cycle % 2 == bankNo c.bank

/-- A slot of the present cycle is still open: neither its own nor a later one has issued (R27, R100). -/
def Ctx.slotFree (c : Ctx) (st : Stream) : Bool := decide (c.slots0 < 2 ^ slotNo st)

/-- An RCFLUSH is in progress. -/
def OpKind.isFlush (k : OpKind) : Bool :=
  match k with
  | .flush .. => true
  | _ => false

/-- A stream may try its word: in a handler only S issues; V and M issue in their windows; a stream that has ended its pass, a V stream
under an RCFLUSH and an M stream under an MKAT wait (12 R248, 02 R31, 08 R184, 10 R236, 15 R301). A CSR write that clears `LII.ACT` lets
a stream that has ended its pass go on at the word behind its `LE0`, with its `LC0` as it is (DESIGN CHOICE, log 94). -/
def State.streamOpen (s : State) (c : CtxRef) (st : Stream) : Bool :=
  let x := s.ctx c
  x.slotFree st && (if x.hnd then st == .s else !((x.str st).passEnd && x.liiAct)) && (st == .s || st == .x || s.ownWindow c) &&
    !(st == .m && x.ops.any fun o => o.kind.isMkat) && !(st == .v && x.ops.any fun o => o.kind.isFlush) && !x.halting

/-! ## A word that runs apart -/

/-- The slots of the cycle that no word takes any more. -/
def State.closeSlots (s : State) (c : CtxRef) : State := s.modCtx c fun x => { x with slots0 := allSlots }

/-- The first word of a context in a cycle counts the cycle (26 R450, counters 1 and 2). -/
def State.countCycle (s : State) (c : CtxRef) (first : Bool) : State :=
  if first then s.modCell c.cell fun l => l.count (1 + bankNo c.bank) 1 else s

/-- The fields of the issue logic are as between two words. -/
def State.quietIssue (s : State) : State := { s with inBundle := false, nops := false, curFwd := none, after := none }

/-- After a word that ran apart: its slot is taken, or a trap closes the cycle. -/
def State.afterWord (t : State) (c : CtxRef) (st : Stream) (first : Bool) : State :=
  match t.lastIssue with
  | .retired =>
    ((t.modCtx c fun x => { x with slots0 := putBits x.slots0 (slotNo st) 1 1 }).countCycle c first).quietIssue
  | .trapped _ _ => (t.closeSlots c).quietIssue
  | _ => t.quietIssue

/-- A word issues apart. -/
def State.issueWord (s : State) (c : CtxRef) (st : Stream) (f : Fetched) : Host.Outcome State Fault Refusal :=
  match exec f.instr { s with cur := c, curSt := st, curFwd := f.fwd } with
  | .next t => .next (t.afterWord c st ((s.ctx c).slots0 == 0))
  | .fault e => .fault e
  | .refused r => .refused r

/-! ## Bundles (02 R23, R24, R28; 04 R98; 07 R171) -/

/-- The four words of a bundle, once all streams stand at words with J = 1. -/
def State.bundleOf (s : State) (c : CtxRef) : Option (List (Stream × Fetched)) :=
  if (s.ctx c).slots0 != 0 || !s.ownWindow c then none
  else Stream.all.mapM fun st =>
    if !s.streamOpen c st then none
    else match s.fetch c st with
      | .ok f => if f.j then some (st, f) else none
      | .error _ => none

/-- How a try of the words of a bundle ends. -/
inductive BundleTry where
  | done (s : State)
  | waits (p : Stream × Fetched)
  | traps (t : Trap) (e : Consumed)
  | stops (o : Host.Outcome State Fault Refusal)

/-- One word of a bundle. -/
def State.inSlot (s : State) (c : CtxRef) (p : Stream × Fetched) : Host.Outcome State Fault Refusal :=
  exec p.2.instr { s with cur := c, curSt := p.1, curFwd := p.2.fwd, inBundle := true }

/-- The words in slot order, until one waits or traps: where one word of a bundle traps and another waits, the first of the two decides
(DESIGN CHOICE, log 93). -/
def State.tryWords (s : State) (c : CtxRef) : List (Stream × Fetched) → BundleTry
  | [] => .done s
  | p :: r =>
    match s.inSlot c p with
    | .next t =>
      match t.lastIssue with
      | .retired => t.tryWords c r
      | .trapped x e => .traps x e
      | _ => .waits p
    | o => .stops o

/-- NOP in a slot. -/
def Fetched.isNop (f : Fetched) : Bool :=
  match f.instr with
  | .nop _ _ => true
  | _ => false

/-- LOOPM in S. -/
def Fetched.isLoopm (f : Fetched) : Bool :=
  match f.instr with
  | .loopm _ => true
  | _ => false

/-- HALT in a slot. -/
def Fetched.isHalt (f : Fetched) : Bool :=
  match f.instr with
  | .halt => true
  | .vHalt => true
  | .mHalt => true
  | .xHalt => true
  | _ => false

/-- A word that stands at a GFENCE; a V one under a false guard does not. -/
def State.atGfence (s : State) (p : Stream × Fetched) : Bool :=
  match p.2.instr with
  | .gfence _ => true
  | .mGfence _ => true
  | .xGfence _ => true
  | .vGfence o => match vMask o.gm { s with curSt := .v } with
    | .ok (some _, _) => true
    | _ => false
  | _ => false

/-- A bundle raises each count that it contains before it can issue (07 R171). -/
def State.raiseFences (s : State) (c : CtxRef) (ws : List (Stream × Fetched)) : State :=
  (ws.filter s.atGfence).foldl (fun s p => s.modCtx c fun x => x.modStr p.1 raiseFence) s

/-- The try of a bundle: a LOOPM moves all four streams itself, and its other words are NOPs (08 R183). -/
def State.tryBundle (s : State) (c : CtxRef) (ws : List (Stream × Fetched)) : BundleTry :=
  if ws.any fun p => p.2.isLoopm then
    if ws.all fun p => p.2.isLoopm || p.2.isNop then
      match s.tryWords c (ws.filter fun p => p.2.isNop) with
      | .done _ => { s with nops := true }.tryWords c (ws.filter fun p => p.2.isLoopm)
      | r => r
    else s.tryWords c (ws.take 1)
  else s.tryWords c ws

/-- No stream has a mark of an earlier HALT word. -/
def Ctx.clearHalts (c : Ctx) : Ctx := c.eachStr fun _ x => { x with halted := false }

/-- After a bundle that has issued: the cycle is closed, a generation fence is reached, the context is finished, or a TRAP takes its
cut. -/
def State.afterBundle (t : State) (c : CtxRef) (fence : Bool) : State :=
  let e := t.after
  let u := ((t.closeSlots c).countCycle c true).quietIssue
  let u := (u.modCell c.cell fun l => l.count 3 1).modCtx c fun x => { x with atFence := x.atFence || fence }
  let u := if (u.ctx c).allHalted then (u.modCtx c fun x => { x with hold := .finished, haltIn := 15 }).haltOut c else u
  match e with
  | some e => u.raise c e
  | none => u

/-- A word of a bundle traps: none of its words issues, and only the poison that the trapping word consumed stays in the log (04 R98,
14 R273). -/
def State.bundleTraps (s : State) (c : CtxRef) (t : Trap) (e : Consumed) : State :=
  (((((s.eats c t.st e s.nextId).noteMiss c t).raise c t).closeSlots c).quietIssue).noted (.trapped t e)

/-- A word of a bundle waits, so the whole bundle does: what the word does while it waits is done. A halt bundle waits for the
engines outside the issue logic (02 R45). -/
def State.bundleWaits (s : State) (c : CtxRef) (p : Stream × Fetched) (halt : Bool) : State :=
  let stays := { s with cur := c }.noted .waiting
  if halt then stays.modCtx c fun x => { x with halting := true }
  else match s.inSlot c p with
    | .next t => match t.lastIssue with
      | .waiting => t.quietIssue
      | _ => stays
    | _ => stays

/-- A bundle issues all four of its words in one cycle, or none. -/
def State.issueBundle (s0 : State) (c : CtxRef) : Host.Outcome State Fault Refusal :=
  match s0.bundleOf c with
  | none => .next (s0.noted .waiting)
  | some ws =>
    let s := (s0.modCtx c Ctx.clearHalts).raiseFences c ws
    match s.tryBundle c ws with
    | .done t => .next (t.afterBundle c (ws.any s.atGfence))
    | .waits p => .next (s.bundleWaits c p (ws.all fun q => q.2.isHalt))
    | .traps t e => .next (s.bundleTraps c t e)
    | .stops o => o

/-! ## A try of a stream -/

/-- In a handler, J = 1, GFENCE, BSYNC and LOOPM are double traps (12 R248). -/
def Fetched.doubleInHandler (f : Fetched) : Bool :=
  f.j || match f.instr with
    | .gfence _ => true
    | .bsync _ => true
    | .loopm _ => true
    | _ => false

/-- The word of a stream traps at its fetch, or for the handler's sake. -/
def State.fetchTraps (s : State) (c : CtxRef) (t : Trap) : State :=
  (((s.noteMiss c t).raise c t).closeSlots c).noted (.trapped t .none)

/-- A stream of a context tries to issue its current word. A cause that was kept is raised first (12 R244). -/
def State.issue (s0 : State) (c : CtxRef) (st : Stream) : Host.Outcome State Fault Refusal :=
  if !s0.mayIssue c then .next s0
  else if (s0.ctx c).hasPending then .next ((s0.raisePending c).closeSlots c)
  else if !s0.streamOpen c st then .next s0
  else
    let s := s0.touchCode c st
    match s.fetch c st with
    | .error t => .next (s.fetchTraps c t)
    | .ok f =>
      if (s.ctx c).hnd then
        if f.doubleInHandler then
          .next (s.fetchTraps c { cause := .illop, addr := zext64 f.code, st := st, async := false })
        else s.issueWord c st f
      else if f.j then s.issueBundle c
      else s.issueWord c st f

/-! ## The clock -/

/-- The length of a hub cycle in periods of 1.2 GHz: the one clock of the hub is halved while a cell is in P1 and none that may run is in P0
(27 R471; DESIGN CHOICE, log 9). -/
def State.hubPeriod (s : State) : Nat :=
  let has (p : Power) : Bool := (List.range cellCount).any fun n => (s.cell n).state != 3#2 && (s.cell n).power == p
  if has .p1 && !has .p0 then 2 else 1

/-- A clock of one edge in `n` periods has an edge at the end of the present hub cycle. -/
def State.edge (s : State) (n : Nat) : Bool := s.hub.time / n != (s.hub.time + s.hubPeriod) / n

/-- Whether a cell's clock ticks at the end of a hub cycle: at 600 MHz in P0, at 300 MHz in P1, not in C1, C2 and C3; a stretched cycle has
no stated length (27 R471, R473). -/
def State.ticks (s : State) (n : Nat) : Bool :=
  let l := s.cell n
  let runs (r : Nat) : Bool := if l.stretch ≠ 0 then Config.stretchedTick n s.hub.time else s.edge r
  if s.hub.sleep then false
  else match l.power with
    | .p0 => runs 2
    | .p1 => runs 4
    | _ => false

/-- The counters of a cell at the end of a cycle (26 R450): what the cycle counted, and the cycle itself. -/
def Cell.countersTick (l : Cell) (lock wait : Nat) : Cell :=
  let add (n : Nat) : Nat :=
    Table.get l.evNow 0 n + (if n = 0 then 1 else if n = 4 then lock else if n = 5 then wait else 0)
  { l with
    evc := (List.range 16).foldl (fun t n =>
      if add n = 0 then t else Table.set t n (Table.get t 0 n + BitVec.ofNat 64 (add n))) l.evc
    evNow := [] }

/-- The slots of a context that met an interlock in the cycle, and those that waited outside their cluster, whether or not the agenda has
let them try: a slot that has issued is none of them (26 R450, counters 4 and 5). -/
def State.stalled (s : State) (c : CtxRef) : Nat × Nat :=
  let tried (m : Nat × Nat) (st : Stream) : Nat × Nat :=
    match s.issue c st with
    | .next t => if t.lastIssue = .waiting then (m.1 ||| (t.ctx c).lockSlots, m.2 ||| (t.ctx c).waitSlots) else m
    | _ => m
  let x := s.ctx c
  let m := if s.mayIssue c then Stream.all.foldl tried (x.lockSlots, x.waitSlots) else (x.lockSlots, x.waitSlots)
  let still (k : Nat) : Nat := ((List.range 4).filter fun i => bitsN k i 1 == 1 && bitsN x.slots0 i 1 == 0).length
  (still m.1, still m.2)

/-- A cell at the end of a cycle. -/
def State.tickCell (s : State) (n : Nat) : Cell :=
  let a := s.stalled { cell := n, bank := .a }
  let b := s.stalled { cell := n, bank := .b }
  let l := (s.cell n).countersTick (a.1 + b.1) (a.2 + b.2)
  { l.droopCycle with cycle := l.cycle + 1, stepping := false }

/-- A context at the end of a cycle: the CSR writes of the cycle take effect, and every slot is open again (07 R168). -/
def Ctx.tick (c : Ctx) : Ctx := { c.applyCsrs with slots0 := 0, lockSlots := 0, waitSlots := 0 }

/-- What is due in the present hub cycle or cell cycle has not happened yet, so the clock stands. -/
def State.clockWaits (s : State) : Bool :=
  s.joinDue || s.decayDue || s.tickDue || s.urgentDue ||
    s.cells.any (fun p => p.2.halfOver || s.modeDue p.1) ||
    s.ctxs.any fun p => p.2.overdue (s.cell (ctxOfKey p.1).cell).cycle

/-- The cells end their cycle: the rollbacks that it has detected take place, its CSR writes take effect, its counters count. -/
def State.endCycle (s0 : State) (t : List Nat) : State :=
  let s := s0.ctxs.foldl (fun s p => if t.contains (p.1 / 2) then s.rollbackNow (ctxOfKey p.1) else s) s0
  { s with
    cells := t.foldl (fun l n => Table.set l n (s.tickCell n)) s.cells
    ctxs := s.ctxs.map fun p => (p.1, if t.contains (p.1 / 2) then p.2.tick else p.2) }

/-- A release by NLAUNCH takes place now: it is made before the submissions of its hub cycle. -/
def State.earlyDue (s : State) : Bool := !s.hub.shut && s.hub.early.any s.earlyDone

/-- The end of a hub cycle for the hub: waiting words are served, the decay tick and then the threshold test follow the increments of the
cycle (26 R455), and register writes take effect. -/
def State.hubEnds (s : State) : State := s.joinCycle.applyDecay.withdraw.applyLater

/-- The hub clock. It first does what belongs to the present cycle: the releases by NLAUNCH whose time has come, then, once no control node
waits for its decision, the submissions in their order (21 R388, R390, R398); it stands while something is due. Then the cells whose clocks
tick end their cycle, the hub ends its own, and transfers of the inbound peer queue meet the grant table before the words of the next cycle
(16 R319). -/
def State.clock (s0 : State) : State :=
  if s0.earlyDue then s0.releaseEarly
  else if s0.controlDue then s0
  else if s0.submitsDue then s0.submitAll
  else if s0.clockWaits then s0
  else
    let s := (s0.endCycle ((List.range cellCount).filter s0.ticks)).hubEnds
    (s.modHub fun h => { h with time := h.time + s0.hubPeriod, shut := false }).servePeers (Config.peerChecks s0.hub.time)

/-! ## An instruction placed from outside (log 2) -/

/-- Where a placed instruction stands, for each stream: in one page at address 0x1_0000 of device HBM. -/
def placeAddr (st : Stream) : Nat := 0x10000 + 64 * slotNo st

/-- The translation of that page. -/
def placePage : TlbEntry :=
  { vpn := 1, size := 0x10000, phys := 0x10000, home := 0, w := true, x := true, ac := true, page := .uo }

/-- The node that the context of a placed instruction runs. -/
def placeNode : Running :=
  { node := { part := 0, launch := 0, node := 0 }, rank := 0, splice := none, consumer := none, scratch := none }

/-- The context of a placed instruction: nothing holds it, and its streams stand at the page. -/
def Ctx.placedFor (c : Ctx) (bundle : Bool) (st : Stream) : Ctx :=
  let at_ (w : Stream) (r : StreamState) : StreamState :=
    { r with
      pc := if bundle || w == st then BitVec.ofNat 64 (placeAddr w) else r.pc
      passEnd := false, tlb := (placePage :: r.tlb).take (tlbEntries w) }
  { c.eachStr at_ with
    running := some (c.running.getD placeNode), hold := .free, cut := none, late := [], halting := false, atFence := false
    slots0 := 0, flights := [], ops := [], tcause := setBits c.tcause 15 1 0 }

/-- A cell that issues. -/
def Cell.placedFor (l : Cell) : Cell :=
  { l with power := .p0, halted := false, stretch := 0, halfRate := 0, cycle := l.cycle - l.cycle % 2 }

/-- The instruction of some bytes stands where context A of cell 0 fetches next in a stream; if its J bit is set, the other streams
stand at NOP with J = 1. -/
def State.placeWord (s : State) (st : Stream) (bytes : List Byte) : State :=
  let c : CtxRef := { cell := 0, bank := .a }
  let bundle := 128 ≤ (bytes.getD 3 0).toNat
  let put (m : Memory) (w : Stream) : Memory :=
    if w = st then m.store (placeAddr w) (cleanBytes bytes)
    else if bundle then m.store (placeAddr w) (cleanBytes [0, 0, 0, 0x80]) else m
  let t := (s.modCtx c fun y => y.placedFor bundle st).modCell 0 Cell.placedFor
  { t with hbm := Stream.all.foldl put s.hbm, agenda := .issue c st :: s.agenda }.modHub fun h => { h with sleep := false }

end

end Sys2Proof.Machine
end

