-- ==== Sys2Proof/Machine/Step.lean ====
section
/-!
DEFINITION. One step of the device, and the state in which an instruction comes next.
-/
namespace Sys2Proof.Machine

noncomputable section

/-- Whose step comes next: the head of the agenda, or the free choice (log 1). -/
def State.nextPick (s : State) : Pick × State :=
  match s.agenda with
  | p :: r => (p, { s with agenda := r })
  | [] => (Config.freePick s.pickCount, { s with pickCount := s.pickCount + 1 })

/-- One step: a stream tries its current word, one of the steps of rows 272 to 372 happens, the clock advances, or a unit of a memory goes
bad. A word of a stream never happens by itself. -/
def step (s : State) : Host.Outcome State Fault Refusal :=
  let (p, t) := s.nextPick
  match p with
  | .issue c st => t.issue c st
  | .happen i => if i.isEvent then exec i t else .next t
  | .clock => .next t.clock
  | .upset u => .next { t with upsets := t.upsets ++ [u] }

/-- The next step runs the instruction whose bits are `w` (log 2). -/
def State.withFetchWord (s : State) (nbits w : Nat) : State := s.placeWord (tableStream (tableBytes nbits w)) (tableBytes nbits w)

end

end Sys2Proof.Machine
end

