-- ==== Sys2Proof/Safety.lean ====
section
/-!
DEFINITION. What a safe run is, and the pure state changes in which the statements say what a word does: reads of queue
operands, a result put in flight, retirement, and the conditions under which they happen.
-/
namespace Sys2Proof.Machine

/-! ## Safe states -/

/-- Every memory of a cell has the canonical form, that of a parked image included. -/
def Cell.memWf (l : Cell) : Bool :=
  l.wb.wf && l.ab.wf && l.cb.wf && l.plane0.wf && l.plane1.wf && l.shadow.all fun i => i.cb.wf

/-- Every memory that an access or an engine can name has the canonical form. -/
def State.memWf (s : State) : Bool :=
  s.hbm.wf && s.hostMem.wf && s.peerMem.wf && s.scratch.all (fun p => p.2.wf) && s.cells.all (fun p => p.2.memWf) &&
    s.dies.all fun p => p.2.ss.wf

/-- A step is safe where it answers a next state. -/
def safeStep (s : State) : Prop := ∃ t, step s = .next t

/-! ## What a word reads (06 R125, R126) -/

/-- The front entry of a queue of the context that issues, widened; register 0 reads 0. -/
def State.front (s : State) (q : QRef) : Vec := ((s.ctx s.cur).front q).1

/-- The front entry as a 64-bit value. -/
def State.frontWord (s : State) (q : QRef) : Word := (s.front q).setWidth 64

/-- The context after a pop. A pop by a word of a modulo iteration is kept for the rollback (08 R190). -/
def Ctx.popped (c : Ctx) (it : Option Nat) (q : QRef) : Ctx :=
  match it, q.dest with
  | some i, some d => { c.dropFront q with
      pops := (c.dropFront q).pops ++ [{ it := i, dest := d, val := (c.front q).1, orig := (c.front q).2 }] }
  | _, _ => c.dropFront q

/-- The state after an operand read: a pop, or nothing under the keep bit. -/
def State.took (s : State) (q : QRef) (keep : Bool) : State :=
  if keep then s else s.setCtx s.cur ((s.ctx s.cur).popped s.curIt q)

/-- The state after operand reads in order. -/
def State.tookAll (s : State) (rs : List (QRef × Bool)) : State := rs.foldl (fun s p => s.took p.1 p.2) s

/-- The values that reads in order give. -/
def State.values (s : State) : List (QRef × Bool) → List Vec
  | [] => []
  | (q, k) :: r => s.front q :: (s.took q k).values r

/-- The n-th of the values that reads in order give. -/
def State.valueAt (s : State) (rs : List (QRef × Bool)) (n : Nat) : Vec := (s.values rs).getD n 0

/-- The n-th value as 64 bits. -/
def State.wordAt (s : State) (rs : List (QRef × Bool)) (n : Nat) : Word := (s.valueAt rs n).setWidth 64

/-- A queue holds the entries that the reads of a word need; register 0 needs none. -/
def Ctx.holds (c : Ctx) (rs : List (QRef × Bool)) (q : QRef) : Bool :=
  q == .zero || decide (needOf q 0 rs ≤ c.entries q)

/-- All operands of a word can be read. -/
def Ctx.readable (c : Ctx) (rs : List (QRef × Bool)) : Bool := rs.all fun p => c.holds rs p.1

/-- A queue has room for one more push, pending ones counted (06 R127, R130). -/
def Ctx.room (c : Ctx) (q : QRef) : Bool := q == .zero || decide (c.entries q + c.pendingQ q + 1 ≤ q.depth)

/-! ## What a word leaves -/

/-- The cycle in which a result falls due. -/
def State.dueIn (s : State) (lat : Option Nat) : Option Nat := lat.map (dueCycle s)

/-- A result in flight to a place. -/
def State.launched (s : State) (d : Dest) (v : Option Vec) (lat : Option Nat) : State :=
  ({ s with nextId := s.nextId + 1 }).modCtx s.cur fun c =>
    { c with flights := c.flights ++
        [({ tok := s.nextId, st := s.curSt, dest := d, val := v, due := s.dueIn lat, it := s.curIt } : Flight)] }

/-- A result pushed to a queue: in flight, or discarded at register 0. -/
def State.pushed (s : State) (q : QRef) (v : Option Vec) (lat : Option Nat) : State :=
  match q.dest with
  | none => s
  | some d => s.launched d v lat

/-- A change of the context that issues. -/
def State.changed (s : State) (f : Ctx → Ctx) : State := s.modCtx s.cur f

/-- A word of `len` words retires in sequence. -/
def State.retired (s : State) (len : Nat) : State :=
  (s.modCtx s.cur fun c => c.retireSeq s.curSt len).noted .retired

/-- A word retires as a taken branch. -/
def State.branched (s : State) (target : Word) (call : Bool) : State :=
  (s.modCtx s.cur fun c => c.retireJump s.curSt target call).noted .retired

/-- A word has moved the pcs itself. -/
def State.issuedOnly (s : State) : State := s.noted .retired

/-- A word traps before it issues. -/
def State.trapped (s : State) (cause : Cause) (addr : Word) : State :=
  let t : Trap := { cause := cause, addr := addr, st := s.curSt, async := false }
  ((s.noteMiss s.cur t).raise s.cur t).noted (.trapped t .none)

/-- A word waits. At an interlock its context still stands at a generation fence if it did; at a channel, a token or a letterbox, or under
back-pressure, it does not (02 R47, R49). -/
def State.waitsAt (s : State) (w : Wait) : State :=
  match w with
  | .outside => (s.modCtx s.cur fun c => c.noteWait s.curSt w).waits
  | .full => (s.modCtx s.cur fun c => c.noteWait s.curSt w).waits
  | _ => (s.modCtx s.cur fun c => c.noteWait s.curSt w).noted .waiting

/-! ## When a word goes on -/

/-- The guard of an S, M or X word is known and true (04 R83 to R85). -/
def State.guardOpen (s : State) (g : BitVec 4) : Bool :=
  let c := s.ctx s.cur
  (g.toNat == 0 || decide (8 ≤ g.toNat) || c.pending (.pred g.toNat) == 0) && c.cond g.toNat

/-- The word runs under its guard, in the iteration that the guard names. -/
def State.entered (s : State) (g : BitVec 4) : State := { s with curIt := iterOf (s.ctx s.cur) g.toNat, curG := g.toNat }

/-- Outward effects are allowed, or none of the queues is a channel (08 R188). -/
def State.outwardOk (s : State) : Bool := !(s.ctx s.cur).inwardOnly s.curSt s.curG

def QRef.isChan : QRef → Bool
  | .chan _ => true
  | _ => false

def State.queuesOk (s : State) (qs : List QRef) : Bool := s.outwardOk || !qs.any QRef.isChan

/-- A guarded word with reads `rs` and a push to `q` completes. -/
def State.goes (s : State) (g : BitVec 4) (rs : List (QRef × Bool)) (q : QRef) : Bool :=
  s.guardOpen g && (s.ctx s.cur).readable rs && (((s.entered g).tookAll rs).ctx s.cur).room q &&
    (s.entered g).queuesOk (rs.map (·.1) ++ [q])

/-- What a guarded word with reads `rs` leaves that pushes `v` to `q`. -/
def State.pushes (s : State) (g : BitVec 4) (rs : List (QRef × Bool)) (q : QRef) (v : Vec) (lat : Option Nat) : State :=
  ((((s.entered g).tookAll rs).pushed q (some v) lat).retired 1)

end Sys2Proof.Machine
end

