-- ==== Sys2Proof/Safety/Scalar.lean ====
section
/-!
DEFINITION. What 07 and 06 say of the words of the S stream, as tables: the statements hold the machine against them. The
functions are written from the rules, not from the meanings of the words.
-/
namespace Sys2Proof.Machine

/-! ## Integer arithmetic (07 R146 to R150) -/

/-- A word whose bits [5:0] count a shift. -/
def shiftCount (b : Word) : Nat := (b.extractLsb' 0 6).toNat

/-- 1 where a relation holds, otherwise 0. -/
def oneIf (p : Prop) [Decidable p] : Word := if p then 1 else 0

/-- The register-register words: fields, cycles, result. -/
inductive AluRow : Instr → SR → Nat → (Word → Word → Word) → Prop where
  | add (o : SR) : AluRow (.add o) o 1 (fun a b => a + b)
  | sub (o : SR) : AluRow (.sub o) o 1 (fun a b => a - b)
  | and (o : SR) : AluRow (.and o) o 1 (fun a b => a &&& b)
  | or (o : SR) : AluRow (.or o) o 1 (fun a b => a ||| b)
  | xor (o : SR) : AluRow (.xor o) o 1 (fun a b => a ^^^ b)
  | andn (o : SR) : AluRow (.andn o) o 1 (fun a b => a &&& ~~~b)
  | shl (o : SR) : AluRow (.shl o) o 1 (fun a b => a <<< shiftCount b)
  | shr (o : SR) : AluRow (.shr o) o 1 (fun a b => a >>> shiftCount b)
  | sra (o : SR) : AluRow (.sra o) o 1 (fun a b => a.sshiftRight (shiftCount b))
  | min (o : SR) : AluRow (.min o) o 1 (fun a b => if a.toInt ≤ b.toInt then a else b)
  | max (o : SR) : AluRow (.max o) o 1 (fun a b => if a.toInt ≤ b.toInt then b else a)
  | minu (o : SR) : AluRow (.minu o) o 1 (fun a b => if a.toNat ≤ b.toNat then a else b)
  | maxu (o : SR) : AluRow (.maxu o) o 1 (fun a b => if a.toNat ≤ b.toNat then b else a)
  | seq (o : SR) : AluRow (.seq o) o 1 (fun a b => oneIf (a = b))
  | slt (o : SR) : AluRow (.slt o) o 1 (fun a b => oneIf (a.toInt < b.toInt))
  | sltu (o : SR) : AluRow (.sltu o) o 1 (fun a b => oneIf (a.toNat < b.toNat))
  | mul (o : SR) : AluRow (.mul o) o 3 (fun a b => a * b)
  | mulh (o : SR) : AluRow (.mulh o) o 3 (fun a b => (a.signExtend 128 * b.signExtend 128).extractLsb' 64 64)
  | mulhu (o : SR) : AluRow (.mulhu o) o 3 (fun a b => (a.setWidth 128 * b.setWidth 128).extractLsb' 64 64)
  | rol (o : SR) : AluRow (.rol o) o 1 (fun a b => a.rotateLeft (shiftCount b))
  | ror (o : SR) : AluRow (.ror o) o 1 (fun a b => a.rotateRight (shiftCount b))
  | addw (o : SR) : AluRow (.addw o) o 1 (fun a b => (a.extractLsb' 0 32 + b.extractLsb' 0 32).signExtend 64)
  | subw (o : SR) : AluRow (.subw o) o 1 (fun a b => (a.extractLsb' 0 32 - b.extractLsb' 0 32).signExtend 64)

/-- The divides: fields and result. -/
inductive DivRow : Instr → SR → (Word → Word → Word) → Prop where
  | div (o : SR) : DivRow (.div o) o (fun a b => if b = 0 then 0xFFFFFFFFFFFFFFFF#64 else a.sdiv b)
  | divu (o : SR) : DivRow (.divu o) o (fun a b => if b = 0 then 0xFFFFFFFFFFFFFFFF#64 else a.udiv b)
  | rem (o : SR) : DivRow (.rem o) o (fun a b => if b = 0 then a else a.srem b)
  | remu (o : SR) : DivRow (.remu o) o (fun a b => if b = 0 then a else a.umod b)

/-- The words of one register operand: fields and result. The first set bit from the top or from the bottom; the set bits. -/
inductive UnaryRow : Instr → SR → (Word → Word) → Prop where
  | clz (o : SR) : UnaryRow (.clz o) o (fun a => BitVec.ofNat 64 (((List.range 64).find? fun k => a.getLsbD (63 - k)).getD 64))
  | ctz (o : SR) : UnaryRow (.ctz o) o (fun a => BitVec.ofNat 64 (((List.range 64).find? fun k => a.getLsbD k).getD 64))
  | popc (o : SR) : UnaryRow (.popc o) o (fun a => BitVec.ofNat 64 ((List.range 64).countP fun k => a.getLsbD k))

/-- The words with an immediate: fields, cycles, result. -/
inductive ImmRow : Instr → SI → Nat → (Word → BitVec 10 → Word) → Prop where
  | addi (o : SI) : ImmRow (.addi o) o 1 (fun a i => a + i.signExtend 64)
  | andi (o : SI) : ImmRow (.andi o) o 1 (fun a i => a &&& i.signExtend 64)
  | ori (o : SI) : ImmRow (.ori o) o 1 (fun a i => a ||| i.signExtend 64)
  | xori (o : SI) : ImmRow (.xori o) o 1 (fun a i => a ^^^ i.signExtend 64)
  | shli (o : SI) : ImmRow (.shli o) o 1 (fun a i => a <<< (i.extractLsb' 0 6).toNat)
  | shri (o : SI) : ImmRow (.shri o) o 1 (fun a i => a >>> (i.extractLsb' 0 6).toNat)
  | srai (o : SI) : ImmRow (.srai o) o 1 (fun a i => a.sshiftRight (i.extractLsb' 0 6).toNat)
  | slti (o : SI) : ImmRow (.slti o) o 1 (fun a i => oneIf (a.toInt < i.toInt))
  | muli (o : SI) : ImmRow (.muli o) o 3 (fun a i => a * i.signExtend 64)

/-- The constants: fields and result. -/
inductive ConstRow : Instr → SL → (BitVec 16 → Word) → Prop where
  | li (o : SL) : ConstRow (.li o) o (fun i => i.signExtend 64)
  | lil (o : SL) : ConstRow (.lil o) o (fun i => i.setWidth 64)
  | liw (o : SL) : ConstRow (.liw o) o (fun i => 0#16 ++ i ++ 0#32)
  | lix (o : SL) : ConstRow (.lix o) o (fun i => i ++ 0#48)

/-! ## Predicates (07 R151, R152) -/

/-- The compares: fields and relation. -/
inductive CmpRow : Instr → SR → (Word → Word → Bool) → Prop where
  | cmpEq (o : SR) : CmpRow (.cmpEq o) o (fun a b => decide (a = b))
  | cmpNe (o : SR) : CmpRow (.cmpNe o) o (fun a b => decide (a ≠ b))
  | cmpLt (o : SR) : CmpRow (.cmpLt o) o (fun a b => decide (a.toInt < b.toInt))
  | cmpGe (o : SR) : CmpRow (.cmpGe o) o (fun a b => decide (b.toInt ≤ a.toInt))
  | cmpLtu (o : SR) : CmpRow (.cmpLtu o) o (fun a b => decide (a.toNat < b.toNat))
  | cmpGeu (o : SR) : CmpRow (.cmpGeu o) o (fun a b => decide (b.toNat ≤ a.toNat))

/-- Predicate logic: fields and function. -/
inductive PredRow : Instr → SR → (Bool → Bool → Bool) → Prop where
  | pand (o : SR) : PredRow (.pand o) o (fun a b => a && b)
  | por (o : SR) : PredRow (.por o) o (fun a b => a || b)
  | pxor (o : SR) : PredRow (.pxor o) o (fun a b => xor a b)
  | pandn (o : SR) : PredRow (.pandn o) o (fun a b => a && !b)
  | pnot (o : SR) : PredRow (.pnot o) o (fun a _ => !a)
  | pset (o : SR) : PredRow (.pset o) o (fun _ _ => true)
  | pclr (o : SR) : PredRow (.pclr o) o (fun _ _ => false)

/-- The predicate that the low three bits of a field name. -/
def predNo (f : BitVec 5) : Nat := (f.extractLsb' 0 3).toNat

/-- A predicate is known: no write of it is pending. -/
def State.predKnown (s : State) (n : Nat) : Bool := n == 0 || decide (8 ≤ n) || (s.ctx s.cur).pending (.pred n) == 0

/-- A predicate bit in flight. -/
def State.setsPred (s : State) (n : Nat) (b : Bool) : State :=
  s.launched (.pred n) (some (BitVec.ofNat 2048 b.toNat)) (some 1)

/-! ## Branches (07 R153 to R156, 08 R186) -/

/-- A taken branch is allowed: outside an active modulo body. -/
def State.mayBranch (s : State) : Bool :=
  let c := s.ctx s.cur
  !(c.liiAct && within (c.str s.curSt).pc c.ss.ls0 c.ss.le0)

/-- The pc of the stream that issues. -/
def State.pcOf (s : State) : Word := ((s.ctx s.cur).str s.curSt).pc

end Sys2Proof.Machine
end

