-- ==== Sys2Proof/Safety/ScalarMem.lean ====
section
/-!
DEFINITION. What 06, 07, 08, 12, 20, 21 and 23 say of the memory, queue, loop, system and hub words of the S stream, for the
statements.
-/
namespace Sys2Proof.Machine

/-! ## Where an access goes (07 R157, R159, 17 R329) -/

/-- The parts of an access of `n` bytes at `a`, with the offset where it names the shared store; none where it traps. -/
def State.located (s : State) (u : Use) (a : Word) (n : Nat) : Option (Option Nat × List Part) :=
  if a.extractLsb' 56 8 = 0xC0#8 then
    let off := (a.extractLsb' 0 27).toNat
    if a.extractLsb' 27 29 = 0 ∧ off + n ≤ 0x6000000 then some (some off, ssParts s.cur.cell off n) else none
  else if a.extractLsb' 55 9 = 0 then
    match s.vmParts s.cur s.curSt u 0 (piecesOf a.toNat n) with
    | .ok ps => some (none, ps)
    | .error _ => none
  else none

/-- An access to virtual memory fills the TLB with the pages that it walked (17 R333). -/
def State.walked (s : State) (off : Option Nat) (ps : List Part) : State :=
  match off with
  | some _ => s
  | none => s.fillFor s.cur s.curSt ps

/-- The word that issues reads the bytes of these parts in its own step: its mode is TRAP, and no peer refuses a part (14 R273, 17
R332). -/
def State.strictNow (s : State) (ps : List Part) : Bool := (s.ctx s.cur).poisonTrap && ps.all fun p => !p.beyondPeer

/-- Before a word of V that reads at once, the stores of S to its bytes of the shared store are done (14 R278). -/
def State.readied (s : State) (now : Bool) (reads : List Seg) : State := if now && s.curSt == .v then s.pushStores reads else s

/-- No POISON before a word that makes these accesses, and reads these ranges: it reads nothing at once; or nothing that it is ordered
behind is left, and it would read no poisoned unit, or its iteration rolls back (14 R273, 08 R189). -/
def State.readsClean (s : State) (now : Bool) (sp : Space) (probes : List Access) (segs reads writes : List Seg) : Bool :=
  let t := s.readied now reads
  !now || ((probes.all fun a => t.route a != .held) && (t.ctx t.cur).rangesFree reads writes &&
    (((t.unitsNow sp probes segs).all fun p => p.2.isEmpty) || ((t.ctx t.cur).rollsBack t.curIt).isSome))

/-- The same of an S access. -/
def State.poisonFree (s : State) (kind : AccKind) (off : Option Nat) (ps : List Part) (n : Nat) (acq rel : Bool) (obs : BitVec 5) : Bool :=
  s.readsClean (s.strictNow ps) (offSpace off) (ps.map (s.probe (.stream s.cur .s) kind acq rel obs fun _ => true)) [] (offSeg off n)
    (if kind = .read then [] else offSeg off n)

/-- The accesses of a word of S that reads at once are done in its own step (07 R162). -/
def State.readAtOnce (s : State) (now : Bool) (id : Nat) : State :=
  if now then (s.accs.filter fun a => a.rank == id).foldl (fun t a => t.stepThrough s.cur a) s else s

/-- An operation enters the record of the range checker with one range for each space; it starts at once where no older one holds it, but
an X operation starts by its own event (14 R277, 16 R304). -/
def State.recorded (s : State) (kind : OpKind) (reads writes : List Seg) (parts : List Part) : State :=
  let c := s.ctx s.cur
  let o : EngineOp := { id := s.nextId, st := s.curSt, kind := kind, reads := spanSegs reads, writes := spanSegs writes, phase := .held,
                        parts := parts, buf := [], done := 0, pos := 0, pending := none, owed := none, lost := [], it := s.curIt,
                        pc := (c.str s.curSt).pc }
  let starts := s.curSt != Stream.x && c.mayStart (s.cell s.cur.cell).pair { o with it := none }
  ({ s with nextId := s.nextId + 1 }).modCtx s.cur fun x =>
    { x with ops := x.ops ++ [{ o with phase := if starts then .reading else .held }] }

/-- The record has room for an operation of the present stream with these ranges (14 R277, 16 R304). -/
def State.recordRoom (s : State) (segs : List Seg) : Bool :=
  let c := s.ctx s.cur
  let counts := s.curSt == .m || s.curSt == .x || segs.any fun g => g.space != .vm
  (!counts || decide ((c.ops.filter EngineOp.recorded).length < 32)) &&
    (s.curSt != .x || decide ((c.ops.filter fun p => p.st == .x).length < 16))

/-- The range of the shared store that an S access reads or writes. -/
def ssRange (off : Option Nat) (n : Nat) (used : Bool) : List Seg :=
  match off with
  | some o => if used then seg .ss o n else []
  | none => []

/-- An S access is issued: a record where it names the shared store, an entry that awaits the value where there is one, and the
parts of the access (07 R161, 18 R344, R345). -/
def State.accessed (s : State) (kind : ScalarKind) (ak : AccKind) (a : Word) (off : Option Nat) (ps : List Part) (n : Nat)
    (acq rel : Bool) (obs : BitVec 5) (data : Word) : State :=
  let id := s.nextId
  let t := match off with
    | some _ => s.recorded .scalar (ssRange off n (ak != AccKind.write)) (ssRange off n (ak != AccKind.read)) []
    | none => { s with nextId := s.nextId + 1 }
  let so : ScalarOp := { id := id, kind := kind, addr := a, got := [], parts := ps.length, it := s.curIt,
                         pc := (s.ctx s.cur).ss.pc }
  let u := t.modCtx s.cur fun c => if kind = ScalarKind.store then c else { c with sops := c.sops ++ [so] }
  u.issueParts id (.stream s.cur .s) ak acq rel obs (fun p => if ak = AccKind.write then .none else .scalar id p)
    (fun k => (data.extractLsb' (8 * k) 8, false)) (fun _ => true) ps

/-- The bytes of a size code: b, h, w, d (04 R87). -/
def sizeBytes (sz : BitVec 2) : Nat :=
  match sz.toNat with
  | 0 => 1
  | 1 => 2
  | 2 => 4
  | _ => 8

/-- An access of `n` bytes has the alignment that its ordering asks for (07 R159, R165). -/
def alignedIf (must : Bool) (a : Word) (n : Nat) : Bool := !must || a.toNat % n == 0

/-- The token of a result that comes later: none where register 0 discards it. -/
def resultToken (s : State) (q : QRef) : Option Nat := if q = .zero then none else some s.nextId

/-- A store or an atomic may go to virtual memory only where outward effects are allowed (08 R188). -/
def State.vmOk (s : State) (off : Option Nat) : Bool := off.isSome || s.outwardOk

/-- The atomics: fields and operation (07 R163). -/
inductive AmoRow : Instr → SR → Ext → AmoOp → Prop where
  | add (o : SR) (e : Ext) : AmoRow (.amoAdd o e) o e .add
  | and (o : SR) (e : Ext) : AmoRow (.amoAnd o e) o e .and
  | or (o : SR) (e : Ext) : AmoRow (.amoOr o e) o e .or
  | xor (o : SR) (e : Ext) : AmoRow (.amoXor o e) o e .xor
  | min (o : SR) (e : Ext) : AmoRow (.amoMin o e) o e .min
  | max (o : SR) (e : Ext) : AmoRow (.amoMax o e) o e .max
  | minu (o : SR) (e : Ext) : AmoRow (.amoMinu o e) o e .minu
  | maxu (o : SR) (e : Ext) : AmoRow (.amoMaxu o e) o e .maxu
  | swap (o : SR) (e : Ext) : AmoRow (.amoSwap o e) o e .swap
  | fadd (o : SR) (e : Ext) : AmoRow (.amoFadd o e) o e .fadd

/-- The fences by kind (07 R166). -/
inductive FenceRow : Instr → SF → Nat → Prop where
  | full (o : SF) : FenceRow (.fenceFull o) o 0
  | ld (o : SF) : FenceRow (.fenceLd o) o 1
  | st (o : SF) : FenceRow (.fenceSt o) o 2
  | eng (o : SF) : FenceRow (.fenceEng o) o 3

/-! ## Queues (06 R132 to R139) -/

/-- The queue that bits [4:0] of a value name (06 R134). -/
def queueAt (v : Word) : QRef := sRef (v.extractLsb' 0 5)

/-- All entries of a queue popped in turn (06 R137). -/
def State.emptied (s : State) (q : QRef) : State :=
  (List.range ((s.ctx s.cur).entries q)).foldl (fun t _ => t.took q false) s

/-- A token count (06 R132). -/
def State.tokenAt (s : State) (n : Nat) : BitVec 4 := (s.ctx s.cur).tokens.getD n 0

/-- A token count has changed. -/
def State.withToken (s : State) (n : Nat) (v : BitVec 4) : State := s.changed fun c => { c with tokens := c.tokens.set n v }

/-- The words that signal a token: guard or lane mask, token (06 R138, R139). -/
inductive SignalRow : Instr → Stream → BitVec 4 → Nat → Prop where
  | s (o : SR) : SignalRow (.tsig o) .s o.g (o.b.toNat % 16)
  | v (o : VR) : SignalRow (.vTsig o) .v o.gm o.a.toNat
  | m (o : MS) : SignalRow (.mTsig o) .m 0 o.a.toNat
  | x (o : MS) : SignalRow (.xTsig o) .x 0 o.a.toNat

/-- The words that wait for a token. -/
inductive AwaitRow : Instr → Stream → BitVec 4 → Nat → Prop where
  | s (o : SR) : AwaitRow (.twait o) .s o.g (o.b.toNat % 16)
  | v (o : VR) : AwaitRow (.vTwait o) .v o.gm o.a.toNat
  | m (o : MS) : AwaitRow (.mTwait o) .m 0 o.a.toNat
  | x (o : MS) : AwaitRow (.xTwait o) .x 0 o.a.toNat

/-- A mask of V is known: no write of it is pending (04 R99). -/
def State.maskKnown (s : State) (n : Nat) : Bool := n == 0 || (s.ctx s.cur).pending (.mask n) == 0

/-- The lane mask under which a V word runs, or none where a stage predicate stops it or the mask is not known (04 R84). -/
def State.lanes (s : State) (gm : BitVec 4) : Option Mask :=
  if gm.toNat < 8 then
    if s.maskKnown gm.toNat then some ((s.ctx s.cur).maskOf gm.toNat) else none
  else if (s.ctx s.cur).ps (gm.toNat - 8) then some (BitVec.allOnes 256) else none

/-- A word of a stream goes on under its guard, or its lane mask. -/
def State.opens (s : State) (st : Stream) (g : BitVec 4) : Bool :=
  match st with
  | .v => (s.lanes g).isSome
  | _ => s.guardOpen g

/-- The state in which the body of a word runs: an S word, or a V word under a stage predicate, belongs to the iteration that its
guard names (08 R189). -/
def State.begun (s : State) (st : Stream) (g : BitVec 4) : State :=
  match st with
  | .s => s.entered g
  | .v => if g.toNat < 8 then s else s.entered g
  | _ => s

/-- The GFENCE words: guard or lane mask. -/
inductive GfenceRow : Instr → Stream → BitVec 4 → Prop where
  | s (o : SX) : GfenceRow (.gfence o) .s 0
  | v (o : VR) : GfenceRow (.vGfence o) .v o.gm
  | m (o : MS) : GfenceRow (.mGfence o) .m 0
  | x (o : MS) : GfenceRow (.xGfence o) .x 0

/-- The state in which the body of a GFENCE runs: only a V word under a stage predicate belongs to an iteration. -/
def State.atFenceWord (s : State) (st : Stream) (g : BitVec 4) : State := if st = .v then s.begun .v g else s

/-- The first try of a BSYNC fixes its rank (02 R37). -/
def State.barrierBegun (s : State) (sc : DomScope) : State :=
  ({ s with nextId := s.nextId + 1 }).changed fun c => { c with barrier := some sc, barrierRank := s.nextId, arrived := false }

/-- A try of a BSYNC that waits: it signals its arrival once it may, in this package and to the packages of the domain's other members
(02 R37, 18 R359). -/
def State.barrierTried (s : State) (sc : DomScope) : State :=
  let c := s.ctx s.cur
  let go := s.mayArrive s.cur sc
  let t := if go && !c.arrived then s.tokenOut s.cur (domId (c.dom sc)) c.barrierRank else s
  (t.changed fun c => { c with arrived := c.arrived || go, waitSlots := putBits c.waitSlots 0 1 1 }).waits

/-- A BSYNC may name a domain register: its COUNT is not 0, and the smaller set domains are recorded as contained (02 R36). -/
def State.domOk (s : State) (sc : DomScope) : Bool :=
  let c := s.ctx s.cur
  domCount (c.dom sc) != 0 && scopes.all fun e => !(decide (scopeNo e < scopeNo sc) && domCount (c.dom e) != 0) ||
    s.domNested (s.partOf s.cur) (domId (c.dom e)) (domId (c.dom sc))

/-! ## Control registers (07 R167, R168) -/

/-- The CSR words that write: the operation, and the value from the old one and the operand. -/
inductive CsrRow : Instr → SC → CsrOp → (Word → Word → Word) → Prop where
  | write (o : SC) : CsrRow (.csrw o) o .write (fun _ a => a)
  | set (o : SC) : CsrRow (.csrs o) o .set (fun old a => old ||| a)
  | clear (o : SC) : CsrRow (.csrc o) o .clear (fun old a => old &&& ~~~a)

/-- A CSR write at its rank (06 R143, 07 R168): POISONCNT and XERR note it among their changes; for the others, older operations in
flight note what it overtakes, the bits that change at once change, and the modes change for the words of later cycles. -/
def State.wroteCsr (s : State) (n : Nat) (k : CsrOp) (a v : Word) : State :=
  ({ s with nextId := s.nextId + 1 }).changed fun c =>
    if n = 0x081 ∨ n = 0x0A0 then c.noteCsr n s.nextId k (csrBits n) a
    else
      let d := (c.overtake n (k.overtakes a)).putCsr n (csrBits n &&& ~~~csrLate n) v
      if csrLate n = 0 then d else { d with csrPend := d.csrPend ++ [(n, csrLate n, v)] }

/-! ## Loops (08 R178 to R186) -/

/-- A LOOP word may arm its level: its body does not end at the first word of a pair, its count fits, no modulo loop runs, and
the levels nest. -/
def State.mayLoop (s : State) (lv : Bool) (n : Nat) (off cnt : Word) : Bool :=
  let x := (s.ctx s.cur).ss
  let newLe := s.pcOf + off * 4
  !s.firstOfPair s.cur .s newLe (n - 1) && decide (cnt.extractLsb' 32 32 = 0) && s.mayBranch &&
    (decide (cnt = 0) || !badNesting x lv newLe)

/-- The stream after a LOOP word: a level is armed, or with a count of 0 the body is skipped. -/
def State.looped (s : State) (lv : Bool) (off cnt : Word) : State :=
  let c := s.ctx s.cur
  let newLe := s.pcOf + off * 4
  if cnt = 0 then
    let y := if c.hnd then { disarm (c.ss.setLc lv 0) s.pcOf (newLe + 4) with pc := newLe + 4 } else zeroCount c.ss lv s.pcOf newLe
    (s.changed fun c => c.setStr .s { y with pc := s.pcOf }).branched y.pc true
  else (s.changed fun c => c.setStr .s (c.ss.setLevel lv cnt (s.pcOf + 4) newLe)).retired 1

/-- LOOPM may start: its bundle holds only NOPs beside it, the trip count fits, no loop is active, no level 1 ends inside the body, and
where it arms a level the body ends at no first word of a pair (08 R183, R186, 04 R82). -/
def State.mayLoopm (s : State) (o : SLM) (n : Word) : Bool :=
  let c := s.ctx s.cur
  o.j && s.inBundle && s.nops && decide (n.toNat ≤ 16777208) && !c.liiAct && c.ss.lc0 == 0 && c.sv.lc0 == 0 &&
    c.sm.lc0 == 0 && c.sx.lc0 == 0 &&
    (Stream.all.all fun st => !level1Inside (c.str st) (o.ii.toNat + 1)) &&
    (n == 0 || Stream.all.all fun st => !s.bodyEndsInPair s.cur st (o.ii.toNat + 1))

/-! ## Words of the hub (20 R376 to R378, 23 R434 to R437) -/

/-- The rank at which a word of S acts at the hub, fixed by its first try (23 R434). -/
def State.hubRanked (s : State) : State × Nat :=
  match (s.ctx s.cur).hubRank with
  | some r => (s, r)
  | none => (({ s with nextId := s.nextId + 1 }).modCtx s.cur (fun c => { c with hubRank := some s.nextId }), s.nextId)

/-- Every earlier access of the context is finished. -/
def State.earlierDone (s : State) (rank : Nat) : Bool := s.earlyDone { node := default, slot := 0, c := s.cur, rank := rank }

/-- The hub takes a request of this context in the present cycle, at a phase: what comes before it in the cycle is done (20 R377,
23 R427). -/
def State.hubTakes (s : State) (phase : Nat) : Bool :=
  let j := s.hub.join
  s.phaseOpen phase && (decide (j.phase < phase) || j.lastReq.all fun l => decide (l < ctxKey s.cur))

/-- The loads of the dwords of a message in turn: the offset of the first in the shared store, all parts, and the state whose TLB holds
the pages that they walked; none where one traps (23 R436). -/
def State.dwordsAt (s : State) (a : Word) : List Nat → Option (Option Nat × List Part × State)
  | [] => some (none, [], s)
  | k :: r => match s.located .read (a + BitVec.ofNat 64 k) 8 with
    | none => none
    | some (off, ps) => match (s.walked off ps).dwordsAt a r with
      | none => none
      | some (_, qs, t) => some (off, ps.map (Part.shift k) ++ qs, t)

/-- The reads of a message are issued, and the word keeps what will come (23 R436). -/
def State.asksMessage (s : State) (a : Word) (off : Option Nat) (ps : List Part) : State :=
  let t := match off with
    | some _ => s.recorded .scalar (ssRange off 32 true) [] []
    | none => { s with nextId := s.nextId + 1 }
  (t.changed fun c => { c with rwpost := some { id := s.nextId, addr := a, code := false, len := 32, got := [] } }).issueParts s.nextId
    (.stream s.cur .s) .read false false 0 (fun p => .init s.nextId p) (fun _ => (0, false)) (fun _ => true) ps

/-- The hub has taken the request. -/
def State.atHub (s : State) (phase : Nat) : State :=
  (s.atPhase phase).modJoin fun j => { j with lastReq := some (ctxKey s.cur) }

/-- A result that takes its place at once. -/
def State.landed (s : State) (q : QRef) (v : Word) : State :=
  match q.dest with
  | none => s
  | some d => s.changed fun c => c.land d (wide v) s.curIt

/-- Both results of an LQPOP; a record drops the cell's read cache (20 R376). -/
def State.popsRecord (s : State) (q : QRef) (r : Word × Word) : State :=
  let t := ((s.landed q r.1).landed q r.2).changed fun c => { c with lqWait := false, lqGot := none }
  if r.1 = 0 then t else t.dropLines s.cur.cell fun _ => true

/-- An LQPOP has its two places, and nothing is on its way to its queue. -/
def Ctx.twoPlaces (c : Ctx) (q : QRef) : Bool :=
  c.pendingQ q == 0 && (q == .zero || decide (c.entries q + 2 ≤ q.depth))

end Sys2Proof.Machine
end

