-- ==== Sys2Proof/Safety/Vector.lean ====
section
/-!
DEFINITION. What 05, 09 and 10 say of the words of the V stream, as tables for the statements. An element function takes the width
w in bits.
-/
namespace Sys2Proof

/-- The reads of a word of two vectors, of three, and of one, in field order (09 R195). -/
def VR.ab (o : VR) : List (Machine.QRef × Bool) := [(Machine.vRef o.a, o.ka), (Machine.vRef o.b, o.kb)]
def VR.abd (o : VR) : List (Machine.QRef × Bool) :=
  [(Machine.vRef o.a, o.ka), (Machine.vRef o.b, o.kb), (Machine.vRef o.d, false)]
def VR.one (o : VR) : List (Machine.QRef × Bool) := [(Machine.vRef o.a, o.ka)]

/-- The shift count of a word with an immediate (09 R199). -/
def VI.count (o : VI) : Nat := (o.imm.extractLsb' 0 5).toNat

end Sys2Proof

namespace Sys2Proof.Machine

/-! ## Elements -/

/-- A number of w bits as two's complement. -/
def intOf (w a : Nat) : Int := (BitVec.ofNat w a).toInt

/-- An integer modulo 2^w. -/
def natOf (w : Nat) (x : Int) : Nat := (BitVec.ofInt w x).toNat

/-- The vector whose element i is `f i` where the mask bit of its lowest byte is 1, and zero elsewhere (09 R194). -/
def lanesVec (m : Mask) (et : BitVec 2) (f : Nat → Nat) : Vec :=
  vecOf (etBytes et) fun i => if m.getLsbD (etBytes et * i) then f i else 0

/-- Element i of the n-th of some vectors. -/
def elemAt (et : BitVec 2) (l : List Vec) (n i : Nat) : Nat := elem (l.getD n 0) (etBytes et) i

/-- The width of an element in bits. -/
def etBits (et : BitVec 2) : Nat := 8 * etBytes et

/-! ## Reads and results -/


/-- A V word under GM with these reads and a push to `q` runs under the mask `m`. -/
abbrev State.runs (s : State) (gm : BitVec 4) (rs : List (QRef × Bool)) (q : QRef) (m : Mask) : Prop :=
  s.lanes gm = some m ∧ (s.ctx s.cur).readable rs = true ∧ (((s.begun .v gm).tookAll rs).ctx s.cur).room q = true ∧
    (s.begun .v gm).queuesOk (rs.map (·.1) ++ [q]) = true

/-- An event of the cell is counted (26 R450). -/
def State.countedEvent (s : State) (n : Nat) : State := s.modCell s.cur.cell fun l => l.count n 1

/-- The state after the reads of a V word. -/
def State.vRead (s : State) (gm : BitVec 4) (rs : List (QRef × Bool)) : State := (s.begun .v gm).tookAll rs

/-- The values that a V word reads. -/
def State.vValues (s : State) (gm : BitVec 4) (rs : List (QRef × Bool)) : List Vec := (s.begun .v gm).values rs

/-- Sticky flags of `VCSR` are set (05 R112). -/
def State.flagged (s : State) (f : FpFlags) : State := s.changed fun c => { c with vcsr := c.vcsr ||| f.toWord }

/-- A mask in flight, due in two cycles. -/
def State.setsMask (s : State) (n : Nat) (v : Mask) : State := s.launched (.mask n) (some (v.setWidth 2048)) (some 2)

/-- The mask that the low three bits of a field name. -/
def maskNo (f : BitVec 4) : Nat := (f.extractLsb' 0 3).toNat

/-! ## Integer arithmetic (09 R197 to R199) -/

/-- Words of two vectors: element result. -/
inductive VIntRow : Instr → VR → (Nat → Nat → Nat → Nat) → Prop where
  | vadd (o : VR) : VIntRow (.vadd o) o (fun w a b => (a + b) % 2 ^ w)
  | vsub (o : VR) : VIntRow (.vsub o) o (fun w a b => (a + (2 ^ w - b)) % 2 ^ w)
  | vmul (o : VR) : VIntRow (.vmul o) o (fun w a b => a * b % 2 ^ w)
  | vmulh (o : VR) : VIntRow (.vmulh o) o (fun w a b => natOf w (intOf w a * intOf w b / 2 ^ w))
  | vmulhu (o : VR) : VIntRow (.vmulhu o) o (fun w a b => a * b / 2 ^ w)
  | vmin (o : VR) : VIntRow (.vmin o) o (fun w a b => if intOf w a ≤ intOf w b then a else b)
  | vmax (o : VR) : VIntRow (.vmax o) o (fun w a b => if intOf w a ≤ intOf w b then b else a)
  | vminu (o : VR) : VIntRow (.vminu o) o (fun _ a b => if a ≤ b then a else b)
  | vmaxu (o : VR) : VIntRow (.vmaxu o) o (fun _ a b => if a ≤ b then b else a)
  | vand (o : VR) : VIntRow (.vand o) o (fun _ a b => a &&& b)
  | vor (o : VR) : VIntRow (.vor o) o (fun _ a b => a ||| b)
  | vxor (o : VR) : VIntRow (.vxor o) o (fun _ a b => a ^^^ b)
  | vandn (o : VR) : VIntRow (.vandn o) o (fun w a b => a &&& (2 ^ w - 1 - b))
  | vshl (o : VR) : VIntRow (.vshl o) o (fun w a b => a * 2 ^ (b % w) % 2 ^ w)
  | vshr (o : VR) : VIntRow (.vshr o) o (fun w a b => a / 2 ^ (b % w))
  | vsra (o : VR) : VIntRow (.vsra o) o (fun w a b => natOf w (intOf w a / 2 ^ (b % w)))
  | vavgu (o : VR) : VIntRow (.vavgu o) o (fun _ a b => (a + b + 1) / 2)

/-- Words of one vector. -/
inductive VInt1Row : Instr → VR → (Nat → Nat → Nat) → Prop where
  | vabs (o : VR) : VInt1Row (.vabs o) o (fun w a => natOf w (if intOf w a < 0 then -intOf w a else intOf w a))
  | vclz (o : VR) : VInt1Row (.vclz o) o (fun w a => ((List.range w).find? fun k => a.testBit (w - 1 - k)).getD w)
  | vpopc (o : VR) : VInt1Row (.vpopc o) o (fun w a => (List.range w).countP fun k => a.testBit k)

/-- Words of three vectors: A, B and the pop of D. -/
inductive VInt3Row : Instr → VR → (Nat → Nat → Nat → Nat → Nat) → Prop where
  | vmad (o : VR) : VInt3Row (.vmad o) o (fun w a b c => (c + a * b) % 2 ^ w)
  | vfsl (o : VR) : VInt3Row (.vfsl o) o (fun w a b c => (a * 2 ^ w + b) * 2 ^ (c % w) / 2 ^ w % 2 ^ w)
  | vfsr (o : VR) : VInt3Row (.vfsr o) o (fun w a b c => (a * 2 ^ w + b) / 2 ^ (c % w) % 2 ^ w)

/-- Words with an immediate of ten bits; a shift's count is below the width. -/
inductive VImmRow : Instr → VI → (Nat → Nat → Nat) → Prop where
  | vaddi (o : VI) : VImmRow (.vaddi o) o (fun w a => natOf w (a + o.imm.toInt))
  | vandi (o : VI) : VImmRow (.vandi o) o (fun w a => a &&& natOf w o.imm.toInt)
  | vshli (o : VI) (h : o.count < etBits o.et) : VImmRow (.vshli o) o (fun w a => a * 2 ^ o.count % 2 ^ w)
  | vshri (o : VI) (h : o.count < etBits o.et) : VImmRow (.vshri o) o (fun _ a => a / 2 ^ o.count)
  | vsrai (o : VI) (h : o.count < etBits o.et) : VImmRow (.vsrai o) o (fun w a => natOf w (intOf w a / 2 ^ o.count))

/-- The shifts by an immediate. -/
inductive VShiftRow : Instr → VI → Prop where
  | vshli (o : VI) : VShiftRow (.vshli o) o
  | vshri (o : VI) : VShiftRow (.vshri o) o
  | vsrai (o : VI) : VShiftRow (.vsrai o) o

/-- Saturating words: the exact result, and the least and the greatest value. -/
inductive VSatRow : Instr → VR → (Nat → Nat → Nat → Int) → (Nat → Int) → (Nat → Int) → Prop where
  | vadds (o : VR) : VSatRow (.vadds o) o (fun w a b => intOf w a + intOf w b) (fun w => -(2 ^ (w - 1))) (fun w => 2 ^ (w - 1) - 1)
  | vsubs (o : VR) : VSatRow (.vsubs o) o (fun w a b => intOf w a - intOf w b) (fun w => -(2 ^ (w - 1))) (fun w => 2 ^ (w - 1) - 1)
  | vaddsu (o : VR) : VSatRow (.vaddsu o) o (fun _ a b => (a : Int) + b) (fun _ => 0) (fun w => 2 ^ w - 1)
  | vsubsu (o : VR) : VSatRow (.vsubsu o) o (fun _ a b => (a : Int) - b) (fun _ => 0) (fun w => 2 ^ w - 1)

/-- An integer clamped to a range. -/
def clampBetween (lo hi x : Int) : Int := if x < lo then lo else if hi < x then hi else x

/-! ## Compares (09 R200) -/

/-- Integer compares. -/
inductive VCmpRow : Instr → VR → (Nat → Nat → Nat → Bool) → Prop where
  | eq (o : VR) : VCmpRow (.vcmpEq o) o (fun _ a b => decide (a = b))
  | ne (o : VR) : VCmpRow (.vcmpNe o) o (fun _ a b => decide (a ≠ b))
  | lt (o : VR) : VCmpRow (.vcmpLt o) o (fun w a b => decide (intOf w a < intOf w b))
  | ge (o : VR) : VCmpRow (.vcmpGe o) o (fun w a b => decide (intOf w b ≤ intOf w a))
  | ltu (o : VR) : VCmpRow (.vcmpLtu o) o (fun _ a b => decide (a < b))
  | geu (o : VR) : VCmpRow (.vcmpGeu o) o (fun _ a b => decide (b ≤ a))

/-- Float compares: the relation, and whether it sets NV. -/
inductive VFcmpRow : Instr → VR → (FpNum → FpNum → Bool) → (FpNum → FpNum → Bool) → Prop where
  | feq (o : VR) : VFcmpRow (.vcmpFeq o) o (fun x y => !x.isNan && !y.isNan && numEq x y) (fun x y => x.isSig || y.isSig)
  | flt (o : VR) : VFcmpRow (.vcmpFlt o) o (fun x y => !x.isNan && !y.isNan && numLt x y) (fun x y => x.isNan || y.isNan)
  | fle (o : VR) : VFcmpRow (.vcmpFle o) o (fun x y => !x.isNan && !y.isNan && (numLt x y || numEq x y))
      (fun x y => x.isNan || y.isNan)
  | fun_ (o : VR) : VFcmpRow (.vcmpFun o) o (fun x y => x.isNan || y.isNan) (fun _ _ => false)

/-- The byte mask of a relation over elements: every byte of an unmasked element takes it, a masked-off one gives 0. -/
def relMask (m : Mask) (et : BitVec 2) (r : Nat → Bool) : Mask :=
  maskOfBits fun k => m.getLsbD (etBytes et * (k / etBytes et)) && r (k / etBytes et)

/-- An unmasked element has a property. -/
def anyLane (m : Mask) (et : BitVec 2) (p : Nat → Bool) : Bool :=
  (List.range (256 / etBytes et)).any fun i => m.getLsbD (etBytes et * i) && p i

/-! ## Floating point (09 R201 to R203) -/

/-- Float words of two vectors. -/
inductive VFpRow : Instr → VR → (Fmt → Nat → Nat → Nat → Coded) → Prop where
  | fadd (o : VR) : VFpRow (.fadd o) o Fmt.add
  | fsub (o : VR) : VFpRow (.fsub o) o Fmt.sub
  | fmul (o : VR) : VFpRow (.fmul o) o Fmt.mul
  | fmin (o : VR) : VFpRow (.fmin o) o (pickFp false)
  | fmax (o : VR) : VFpRow (.fmax o) o (pickFp true)

/-- Float words of one vector, with their cycles. -/
inductive VFp1Row : Instr → VR → Nat → (Fmt → Nat → Nat → Coded) → Prop where
  | fabs (o : VR) : VFp1Row (.fabs o) o 4 (withSign true)
  | fneg (o : VR) : VFp1Row (.fneg o) o 4 (withSign false)
  | frcp (o : VR) : VFp1Row (.frcp o) o 8 recip
  | frsq (o : VR) : VFp1Row (.frsq o) o 8 recipSqrt
  | fsqrt (o : VR) : VFp1Row (.fsqrt o) o 8 sqrtFp
  | fexp2 (o : VR) : VFp1Row (.fexp2 o) o 8 exp2Fp
  | flog2 (o : VR) : VFp1Row (.flog2 o) o 8 log2Fp

/-- A float result in all lanes: the vector and the flags. -/
def State.fpResult (s : State) (m : Mask) (et : BitVec 2) (q : QRef) (lat : Nat) (f : Nat → Coded) : State :=
  let r := lanesOf m (etBytes et) f
  ((s.pushed q (some r.1) (some lat)).flagged r.2).countedEvent 8

/-! ## Reductions (09 R204) -/

/-- The elements of a vector: a masked-off one is replaced by an identity. -/
def maskedElems (m : Mask) (et : BitVec 2) (v : Vec) (ident : Nat) : List Nat :=
  (List.range (256 / etBytes et)).map fun i => if m.getLsbD (etBytes et * i) then elem v (etBytes et) i else ident

/-- The same as two's complement. -/
def maskedInts (m : Mask) (et : BitVec 2) (v : Vec) (ident : Int) : List Int :=
  (List.range (256 / etBytes et)).map fun i =>
    if m.getLsbD (etBytes et * i) then intOf (etBits et) (elem v (etBytes et) i) else ident

/-- The integer reductions that fold their elements. -/
inductive VRedRow : Instr → VR → (Mask → Vec → Nat) → Prop where
  | radd (o : VR) : VRedRow (.radd o) o (fun m v => natOf 32 ((maskedInts m o.et v 0).foldl (· + ·) 0))
  | rmin (o : VR) : VRedRow (.rmin o) o (fun m v =>
      natOf 32 ((maskedInts m o.et v (2 ^ (etBits o.et - 1) - 1)).foldl min (2 ^ (etBits o.et - 1) - 1)))
  | rmax (o : VR) : VRedRow (.rmax o) o (fun m v =>
      natOf 32 ((maskedInts m o.et v (-(2 ^ (etBits o.et - 1)))).foldl max (-(2 ^ (etBits o.et - 1)))))
  | rminu (o : VR) : VRedRow (.rminu o) o (fun m v => (maskedElems m o.et v (2 ^ etBits o.et - 1)).foldl min (2 ^ etBits o.et - 1))
  | rmaxu (o : VR) : VRedRow (.rmaxu o) o (fun m v => (maskedElems m o.et v 0).foldl max 0)
  | rand (o : VR) : VRedRow (.rand o) o (fun m v =>
      (maskedElems m o.et v (2 ^ etBits o.et - 1)).foldl (· &&& ·) (2 ^ etBits o.et - 1))
  | ror (o : VR) : VRedRow (.vredRor o) o (fun m v => (maskedElems m o.et v 0).foldl (· ||| ·) 0)
  | rxor (o : VR) : VRedRow (.rxor o) o (fun m v => (maskedElems m o.et v 0).foldl (· ^^^ ·) 0)
  | rimax (o : VR) : VRedRow (.rimax o) o (fun m v => indexMax m (etBytes o.et) v)

/-- A result of 32 bits in lane 0. -/
def lane0 (x : Nat) : Vec := BitVec.ofNat 2048 (x % 2 ^ 32)

/-! ## Permutes and lane moves (09 R207 to R209) -/

/-- The words that a count in a V a queue steers: element i of the result from the vector, the count and E. -/
inductive VPermRow : Instr → VR → (Vec → Nat → Nat → Nat) → Prop where
  | vslup (o : VR) : VPermRow (.vslup o) o (fun a n i => if n ≤ i then elem a (etBytes o.et) (i - n) else 0)
  | vsldn (o : VR) : VPermRow (.vsldn o) o (fun a n i => if i + n < 256 / etBytes o.et then elem a (etBytes o.et) (i + n) else 0)
  | vsplt (o : VR) : VPermRow (.vsplt o) o (fun a n _ => elem a (etBytes o.et) (n % (256 / etBytes o.et)))

/-- The positions that a mask selects, in ascending order. -/
def picked (m : Mask) (et : BitVec 2) : List Nat := (List.range (256 / etBytes et)).filter fun i => m.getLsbD (etBytes et * i)

/-- VCMPR packs the selected elements; VEXPD spreads the first elements over the selected positions. -/
inductive VPackRow : Instr → VR → (Mask → Vec → Nat → Nat) → Prop where
  | vcmpr (o : VR) : VPackRow (.vcmpr o) o (fun q a i => ((picked q o.et).map fun k => elem a (etBytes o.et) k).getD i 0)
  | vexpd (o : VR) : VPackRow (.vexpd o) o (fun q a i =>
      if q.getLsbD (etBytes o.et * i) then elem a (etBytes o.et) ((picked q o.et).idxOf i) else 0)

/-! ## Masks (09 R210) -/

/-- The mask that a field names. -/
def State.maskAt (s : State) (f : BitVec 4) : Mask := (s.ctx s.cur).maskOf (maskNo f)

/-- Mask words of masks: the result before the lane mask. -/
inductive MaskRow : Instr → VR → (Mask → Mask → Mask) → Prop where
  | mand (o : VR) : MaskRow (.mand o) o (fun a b => a &&& b)
  | mor (o : VR) : MaskRow (.mor o) o (fun a b => a ||| b)
  | mxor (o : VR) : MaskRow (.mxor o) o (fun a b => a ^^^ b)
  | mandn (o : VR) : MaskRow (.mandn o) o (fun a b => a &&& ~~~b)
  | mnot (o : VR) : MaskRow (.mnot o) o (fun a _ => ~~~a)
  | mset (o : VR) : MaskRow (.mset o) o (fun _ _ => BitVec.allOnes 256)
  | mclr (o : VR) : MaskRow (.mclr o) o (fun _ _ => 0)

/-! ## The AOP group (09 R216) -/

/-- The AOP words: the reads, where the result goes, and the result of the values read, for the a queues of a stream. -/
inductive AopRow : Stream → Instr → List (QRef × Bool) → QRef → (Word → Word → Word) → Prop where
  | aadd (st : Stream) (o : VA) : AopRow st (.aadd o) [(aRef st o.a, o.ka), (aRef st (o.imm.extractLsb' 0 4), false)] (aRef st o.d)
      (fun a b => a + b)
  | aaddi (st : Stream) (o : VA) : AopRow st (.aaddi o) [(aRef st o.a, o.ka)] (aRef st o.d) (fun a _ => a + o.imm.signExtend 64)
  | ali (st : Stream) (o : VA) : AopRow st (.ali o) [] (aRef st o.d) (fun _ _ => o.imm.signExtend 64)
  | alih (st : Stream) (o : VA) : AopRow st (.alih o) [(aRef st o.a, o.ka)] (aRef st o.d) (fun a _ => a <<< 12 ||| o.imm.setWidth 64)
  | afrom (st : Stream) (o : VA) : AopRow st (.afrom o) [(.chan (maskNo o.a), o.ka)] (aRef st o.d) (fun a _ => a)
  | ato (st : Stream) (o : VA) : AopRow st (.ato o) [(aRef st o.a, o.ka)] (.chan (maskNo o.d)) (fun a _ => a)

end Sys2Proof.Machine
end

