-- ==== Sys2Proof/Safety/Engines.lean ====
section
/-!
DEFINITION. What 09, 10, 15 and 16 say of the words that start operations of the V, M and X engines, and of the coder's words, for
the statements.
-/
namespace Sys2Proof.Machine

/-! ## Places of an access (02 R30, 09 R211, 14 R262) -/

/-- The context may name a typed buffer: a SOLO cell gives its buffers to context A. -/
def State.mayName (s : State) (sp : Space) : Bool :=
  !(sp == .ab || sp == .wb || sp == .cb) || s.cur.bank == .a || (s.cell s.cur.cell).pair

/-- A run of bytes lies within its space. -/
def State.inside (s : State) (sp : Space) (a n : Nat) : Bool := sp == .vm || decide (a + n ≤ s.limit s.cur sp)

/-- The parts of a run, and the state whose TLB holds the pages that it walked; none where it faults. -/
def State.locatedRun (s : State) (sp : Space) (u : Use) (r : Run) : Option (List Part × State) :=
  match sp with
  | .vm => match s.vmParts s.cur s.curSt u 0 (piecesOf r.2.1.toNat r.2.2) with
    | .ok ps => some (ps, s.fillFor s.cur s.curSt ps)
    | .error _ => none
  | .ss => some (ssParts s.cur.cell r.2.1.toNat r.2.2, s)
  | _ => some ([], s)

/-- The parts of all runs in turn. -/
def State.locatedRuns (s : State) (sp : Space) (u : Use) : List Run → Option (List Part × State)
  | [] => some ([], s)
  | r :: l => match s.locatedRun sp u r with
    | none => none
    | some (ps, t) => match t.locatedRuns sp u l with
      | none => none
      | some (qs, v) => some (ps ++ qs, v)

/-- The accesses that runs make: one for each 64-byte unit, in ascending address (18 R345). -/
def State.reached (s : State) (sp : Space) (u : Use) (l : List Run) : Option (List Part × State) :=
  (s.locatedRuns sp u l).map fun x => (unitParts x.1, x.2)

/-- All runs are aligned and lie within their space. -/
def State.fits (s : State) (sp : Space) (al : Nat) (l : List Run) : Bool :=
  l.all fun r => r.2.1.toNat % al == 0 && s.inside sp r.2.1.toNat r.2.2

/-- The accesses of a load of V: they take the bytes that its runs cover. -/
def State.fetches (s : State) (id : Nat) (runs : List Run) (ps : List Part) : State :=
  s.issueParts id (.stream s.cur .v) .read false false 0 (fun p => .engine id p) (fun _ => (0, false)) (runsCover runs) ps

/-- The accesses of a store of V: the byte at an address is that of the last run that covers it, if the mask lets it through (09 R213). -/
def State.stores (s : State) (id : Nat) (runs : List Run) (v : Vec) (bm : Mask) (ps : List Part) : State :=
  let at_ := runAt (plainRuns runs)
  s.issueParts id (.stream s.cur .v) .write false false 0 (fun _ => .none) (fun x => (BitVec.ofNat 8 (elem v 1 ((at_ x).getD 0)), false))
    (fun x => (at_ x).any fun k => bm.getLsbD k) ps

/-- The address of a V memory word: the offset counts 256 bytes. -/
def vAt (o : VM) (a : Vec) : Word := a.setWidth 64 + BitVec.ofNat 64 (256 * o.off.toNat)

/-- The runs of the unmasked elements of a gather or scatter (09 R213). -/
def elemRuns (m : Mask) (et : BitVec 2) (base : Word) (idx : Vec) : List Run :=
  (List.range 64).filterMap fun k =>
    if m.getLsbD (etBytes et * k) then some (k * etBytes et, base + BitVec.ofNat 64 (elem idx 4 k), etBytes et) else none

/-- Every run of virtual memory translates (17 R336). -/
def State.allTranslate (s : State) (sp : Space) (u : Use) (l : List Run) : Bool := sp != .vm || (s.runFaults u l).isEmpty

/-- The operation of a word of V that reads at once ends in its own step (09 R214). -/
def State.endsAtOnce (s : State) (now : Bool) (id : Nat) (done : State → CtxRef → EngineOp → State) : State :=
  if now then
    let t := (s.accs.filter fun a => a.rank == id).foldl (fun t a => t.vStepThrough s.cur a) s
    match (t.ctx s.cur).op id with
    | some o => done ((t.endOp s.cur id).eccSegs s.cur o.kind.vReads) s.cur o
    | none => t
  else s

/-- No POISON before a word of V that takes the bytes which `cover` names. -/
def State.vClean (s : State) (sp : Space) (cover : Nat → Bool) (ps : List Part) (segs reads writes : List Seg) : Bool :=
  s.readsClean (s.strictNow ps) sp (ps.map (s.probe (.stream s.cur .v) .read false false 0 cover)) segs reads writes

/-- A V load of runs completes, and what it leaves: an operation and its accesses, which end in the same step where the word reads at
once. -/
def State.loads (s : State) (sp : Space) (runs : List Run) (bm : Mask) (tok : Option Nat) (ps : List Part) : State :=
  let t := s.readied (s.strictNow ps) (spanSeg sp runs)
  ((t.recorded (.vread sp (plainRuns runs) bm tok) (spanSeg sp runs) [] ps).fetches t.nextId runs ps).endsAtOnce (s.strictNow ps) t.nextId
    fun u c o => u.vreadDone c o sp (plainRuns runs) bm tok

def State.mayLoad (s : State) (sp : Space) (runs : List Run) (ps : List Part) : Bool :=
  s.vClean sp (runsCover runs) ps (runSegs sp runs) (spanSeg sp runs) [] &&
    (s.readied (s.strictNow ps) (spanSeg sp runs)).recordRoom (spanSeg sp runs)

/-- The same of a V store; a store to CB or virtual memory is an outward effect. -/
def State.saves (s : State) (sp : Space) (runs : List Run) (v : Vec) (bm : Mask) (ps : List Part) : State :=
  (s.recorded (.vwrite sp (plainRuns runs) v bm) [] (spanSeg sp runs) ps).stores s.nextId runs v bm ps

def State.maySave (s : State) (sp : Space) (runs : List Run) : Bool :=
  (s.outwardOk || !(sp == .vm || sp == .cb)) && s.recordRoom (spanSeg sp runs)

/-- No operation of V in progress, and no WDLD, names a window descriptor (09 R217, 07 R174). -/
def State.windowFree (s : State) (n : Nat) : Bool :=
  !((s.ctx s.cur).ops.any (fun p => p.st == .v && p.kind.usesWd n) || (s.ctx s.cur).wdPending n)

/-! ## The coder (10 R230) -/

/-- No load of a table is in progress. -/
def State.tablesFree (s : State) (l : List Nat) : Bool := l.all fun n => !(s.ctx s.cur).tablePending n

/-- Every lane can take its step: no slot is busy, each slot is bound in the right direction, the table gives the symbol a
probability, the bytes fit and can be translated, and no outward effect is forbidden. -/
def State.mayCode (s : State) (l : List CodeLane) : Bool :=
  let c := s.ctx s.cur
  l.all (fun x => !c.slotBusy x.slot && (x.bindFault c).isNone && x.probFault.isNone && (x.pendFault c).isNone &&
    (x.capFault c).isNone && (x.endFault c).isNone && (s.laneNeeds s.cur x).isEmpty) && s.outwardOk

/-- One lane's step: an encoder appends its bytes to the window; a decoder takes its bytes, and notes what went wrong. -/
def CodeLane.step (rank : Nat) (l : CodeLane) (c : Ctx) : Ctx × Nat :=
  match l.sym with
  | some k => (c.setSlot l.slot ((l.enc c k).s.emit (l.enc c k).out rank c.sv.pc), k)
  | none =>
    let x := l.dec c
    let now := (c.slot l.slot).now
    let d := c.setSlot l.slot (x.s.take now.byteAt x.need)
    ({ d with rcsr := d.rcsr ||| (if x.ill then 2#64 else 0) ||| (if now.overruns x.need then 4#64 else 0) }, x.sym)

/-- All lanes in turn, with the symbols. -/
def codeSteps (rank : Nat) : List CodeLane → Ctx → Ctx × List Nat
  | [], c => (c, [])
  | l :: r, c => let x := l.step rank c; let y := codeSteps rank r x.1; (y.1, x.2 :: y.2)

/-- The state after a coding word, and its symbols. -/
def State.coded (s : State) (l : List CodeLane) : State :=
  (({ s with nextId := s.nextId + 1 }).modCell s.cur.cell fun x => x.count 9 l.length).changed fun c => (codeSteps s.nextId l c).1

def State.symbols (s : State) (l : List CodeLane) : List Nat := (codeSteps s.nextId l (s.ctx s.cur)).2

/-- The lanes below n that the mask lets through. -/
def lanesBelow (m : Mask) (n : Nat) : List Nat := (List.range n).filter fun j => m.getLsbD (4 * j)

/-- Numbers in 32-bit lanes, zero elsewhere. -/
def scattered (js ks : List Nat) : Vec :=
  vecOfN 4 64 fun j => if js.contains j then ks.getD (js.idxOf j) 0 else 0

/-- A lane of RCBINV: its table has two entries. -/
def binLane (o : VC) (q : Vec) (sym : Option Nat) (j : Nat) : CodeLane :=
  { tag := j, slot := o.e.toNat + j, f := [elem q 4 j % 4096, 4096 - elem q 4 j % 4096], tv := true, sym := sym }

/-- The lane count of MODE: [4:0] plus one. -/
def laneCount (o : VC) : Nat := (o.mode.extractLsb' 0 5).toNat + 1

/-! ## The M engine (15 R281 to R301) -/

/-- The reads of the operands of an M or X word, in field order. -/
def maReads (st : Stream) (o : MA) : List (QRef × Bool) := [(aRef st o.a, o.k1), (aRef st o.b, o.k2), (aRef st o.c, o.k3)]

/-- A guarded M or X word with these reads goes on. -/
def State.maReady (s : State) (g : BitVec 4) (rs : List (QRef × Bool)) : Bool := s.guardOpen g && (s.ctx s.cur).readable rs

/-- The state after the reads. -/
def State.maRead (s : State) (g : BitVec 4) (rs : List (QRef × Bool)) : State := (s.entered g).tookAll rs

/-- The operands. -/
def State.maArg (s : State) (g : BitVec 4) (rs : List (QRef × Bool)) (n : Nat) : Word := (s.entered g).wordAt rs n

/-- An operation is recorded and the word retires. -/
def State.starts (s : State) (k : OpKind) (reads writes : List Seg) : State := s.recorded k reads writes []

/-! ## The X engine (16 R303 to R323) -/

/-- Ranges that an X word may name: X never reads WB, buffers end at their limit, virtual addresses have 55 bits. -/
def State.rangesOk (s : State) (l : List (Bool × Seg)) : Bool :=
  l.all fun p => !s.rangeBad p.1 p.2 && !vmBad p.2

/-- A member address of a superstep or peer transfer that the word may name (16 R313, R316). -/
def State.memberOk (s : State) (sc : Option DomScope) (m : Word) (n : Nat) : Bool :=
  memberSpace m != 3 && decide (memberOff m + n ≤ soloSize (memberSpace m)) && decide (n ≤ 2 ^ 24) &&
    match sc with
    | none => true
    | some k => domCount ((s.ctx s.cur).dom k) != 0 &&
        (scopes.all fun e => !(decide (scopeNo e < scopeNo k) && domCount ((s.ctx s.cur).dom e) != 0) ||
          s.domNested (s.partOf s.cur) (domId ((s.ctx s.cur).dom e)) (domId ((s.ctx s.cur).dom k))) &&
        (k == .p || k == .s || memberPkg m == s.cfg.package)

/-- The ranges of a copy that the checker records: source and destination over all rows (14 R277, 16 R309). -/
def CopyReq.span_ (r : CopyReq) (write : Bool) : List Seg :=
  if r.len = 0 ∨ r.rows = 0 then [] else spanOf write (r.ranges 0) (r.ranges (r.rows - 1))

/-- A copy that a word may start (16 R308, R309). -/
def State.mayCopy (s : State) (r : CopyReq) : Bool :=
  ((List.range r.rows).all fun k => (s.copyFault r k).isNone) && decide (bits (s.ctx s.cur).rngpos 0 24 + r.draws ≤ 0xFFFFFF) &&
    (s.outwardOk || (r.rows == 0 || r.dsp != .vm) && r.draws == 0) &&
    (r.len == 0 || r.rows == 0 || s.recordRoom (r.span_ false ++ r.span_ true))

/-- The operation of a copy, and the draws that it takes; one of no bytes is complete at once (16 R308). -/
def State.copies (s : State) (r : CopyReq) : State :=
  let c := s.ctx s.cur
  let conv : Option XConv := if r.ce then
    some { code := r.cv, rm := if r.rm = 3 then 0 else r.rm, key := c.rngkey, strm := c.rngstream, draw := c.rngpos } else none
  let src : Seg := { space := r.ssp, addr := r.sa.toNat, len := r.len }
  let dst : Seg := { space := r.dsp, addr := r.da.toNat, len := r.dlen }
  let t := if r.len = 0 ∨ r.rows = 0 then s.changed fun c => { c with xdone := c.xdone + 1 }
    else s.starts (.copy conv r.soff src dst r.sp r.dp r.rows) (r.span_ false) (r.span_ true)
  t.changed fun c =>
      { c with rngpos := setBits c.rngpos 0 24 (bits c.rngpos 0 24 + r.draws) }

end Sys2Proof.Machine
end

