-- ==== Sys2Proof/Safety/Events.lean ====
section
/-!
DEFINITION. What 02, 06, 08, 12, 17, 18, 20, 21 and 23 ask before a step of rows 272 to 372 happens, for the statements.
-/
namespace Sys2Proof.Machine

/-! ## Results in flight (02 R25, 06 R100, R131) -/

/-- A result may take its place. One with a due cycle waits for it, and for every result of the context that comes first, by due cycle,
then slot, then age. One without waits for those that are due before it there, and in a queue, a predicate or a mask for the older ones of
its kind; a channel takes the pushes of one cycle in slot order. -/
abbrev Flight.lands (f : Flight) (c : Ctx) (cycle : Nat) : Prop :=
  match f.due with
  | some d => d ≤ cycle ∧ ∀ g ∈ c.flights, ∀ e ∈ g.due,
      d ≤ e ∧ (e = d → slotNo f.st ≤ slotNo g.st ∧ (g.st = f.st → f.tok ≤ g.tok))
  | none =>
    (∀ g ∈ c.flights, g.dest = f.dest →
      (∀ e ∈ g.due, cycle ≤ e ∧ (e = cycle → slotNo f.st ≤ slotNo g.st ∧ (g.st = f.st → f.tok ≤ g.tok))) ∧
      (g.due = none → (∃ n, f.dest = .chan n) ∨ f.tok ≤ g.tok)) ∧
    ∀ n, f.dest = .chan n → (Table.get c.chanLast (0, 0) n).1 = cycle → (Table.get c.chanLast (0, 0) n).2 ≤ slotNo f.st

/-- The context with a result in its place; a channel knows the cycle and the slot of its last push (06 R131). -/
def Ctx.takesResult (c : Ctx) (cycle : Nat) (f : Flight) (v : Vec) : Ctx :=
  let d := ({ c with flights := c.flights.filter fun g => g.tok != f.tok }).land f.dest v f.it
  match f.dest with
  | .chan n => { d with chanLast := Table.set d.chanLast n (cycle, slotNo f.st) }
  | _ => d

/-! ## Contexts -/

/-- Nothing but its own words holds a context: no cut, no handler, no system cause, no halt, no debugger (12 R244, R246). -/
abbrev Ctx.unheld (x : Ctx) : Prop := x.hold = .free ∧ x.cut = none ∧ x.hnd = false

/-- All four streams stand at the end of a pass of a modulo loop (08 R184). -/
abbrev Ctx.passOver (x : Ctx) : Prop := x.liiAct = true ∧ ∀ st ∈ Stream.all, (x.str st).passEnd = true

/-- The record that a trap leaves (12 R245, R246): the four pcs and counts, the cause, `TADDR`, and `HND` for a local cause. -/
structure TrapSaved (x y : Ctx) (t : Trap) (hnd : Bool) : Prop where
  pcs   : ∀ st, (y.str st).tpc = codeAddr (x.nextWord (x.str st))
  seqs  : ∀ st, (y.str st).tseq = (x.str st).seq
  code  : bits y.tcause 0 8 = t.cause.code
  from_ : bits y.tcause 10 2 = slotNo t.st
  async : bitOf y.tcause 14 = t.async
  hnd   : y.hnd = hnd
  addr  : y.taddr = t.addr
  cut   : y.cut = none

/-! ## The memory machine (18 R344 to R354) -/

/-- An access to an SO page follows an older one; the parts of one access only where each of them lies on an SO page (18 R345, R349). -/
abbrev Access.soAfter (a b : Access) : Prop := a.page = .so ∧ b.page = .so ∧ ¬(a.mixed ≠ none ∧ a.mixed = b.mixed)

/-- POST may happen: the access has neither been posted nor read, and has not failed; nothing that ranks older in its agent's order holds it, and no older
operation has yet to access its bytes; no fence and no engine operation holds it; it is served neither by forwarding nor by a held
line. -/
abbrev State.postable (s : State) (a : Access) : Prop :=
  a.posted = false ∧ a.got = false ∧ a.failed = false ∧ s.heldByFence a = false ∧ s.heldByChecker a = false ∧ s.heldByComing a = false ∧
    s.heldByComingSo a = false ∧ s.forwarded a = none ∧ s.lineOf a = none ∧ ∀ b ∈ s.accs, b.agent = a.agent → b.before a = true →
      ¬(a.page ≠ .uo ∧ b.acq = true ∧ b.got = false ∧ visible a.home b.obs = true) ∧
      ¬(a.rel = true ∧ b.page ≠ .uo ∧ visible b.home a.obs = true ∧ b.finished = false) ∧
      (b.meets a = true → b.posted = true ∨ b.got = true) ∧ (a.soAfter b → b.finished = true)

/-- PERFORM may happen: after the POST, and after every older access of the agent to its bytes, or to an SO page where it has one; the
flit is not lost. -/
abbrev State.performable (s : State) (a : Access) : Prop :=
  a.posted = true ∧ a.performed = false ∧ s.isLost a = false ∧
    ∀ b ∈ s.accs, b.agent = a.agent → b.before a = true → (b.meets a = true ∨ a.soAfter b) →
      b.performed = true ∨ b.got = true

/-- The stream's TLB takes a translation first; the oldest of 64 entries in S, of 32 in V, M and X, makes room (17 R333). -/
def Ctx.tlbTakes (x : Ctx) (st : Stream) (e : TlbEntry) : Ctx :=
  x.modStr st fun r => { r with tlb := (e :: r.tlb).take (if st = .s then 64 else 32) }

/-! ## Engine operations (14 R277, R278) -/

/-- No older unfinished operation of the record touches what `o` writes or writes what it touches, and no plane rule holds it. -/
abbrev Ctx.recordFreeFor (x : Ctx) (pair : Bool) (o : EngineOp) : Prop :=
  ∀ p ∈ x.ops, p.id < o.id → p.conflicts o = false ∧ p.planeHolds pair o = false

/-- A V or M operation that ends: its record goes, fences that waited for it are looked at again, and the errors of what it has read are
found (14 R271). -/
def State.leavesRecord (s : State) (c : CtxRef) (o : EngineOp) : State :=
  (({ s with curPc := some o.pc }.endOp c o.id).eccSegs c (o.kind.vReads ++ o.kind.mReads)).eccPlanes c o.kind

/-- Nothing in the typed buffers of a cell is poisoned (14 R272). -/
abbrev State.cleanBuffers (s : State) (c : CtxRef) : Prop := ∀ sp ∈ [Space.ab, .wb, .cb], (s.buffer c.cell sp).marks = []

/-- The bytes of a run of a context's typed buffer. -/
def State.bufBytes (s : State) (c : CtxRef) (sp : Space) (a n : Nat) : List Byte := (s.bufRead c sp a n).map (·.1)

/-- The 32-bit word at an offset of CB. -/
def State.cbWord (s : State) (c : CtxRef) (a : Nat) : Nat := ofBytes (s.bufBytes c .cb a 4)

/-- A row against column j of the active plane: the new word of CB and its flags (05 R120, R121, 15 R289). -/
def State.sliceAt (s : State) (c : CtxRef) (acc ovf : Bool) (f klen at_ : Nat) (row : List Byte × List Nat) (j : Nat) : Nat × Nat :=
  let l := s.cell c.cell
  let col := planeColumn (l.plane (l.activeStore c.bank)) f j
  let a := if acc then s.cbWord c (at_ + 4 * j) else 0
  if f = 7 then accInt a row.1 col.1 else accFloat ovf a (rowElems f klen row.1 row.2) (elemsOf f col.1 col.2)

/-- One row of MSTR or MWIN: its 256 words of CB are written, and its flags join the others. -/
def State.streamsRow (c : CtxRef) (acc ovf : Bool) (f klen aC : Nat) (row : Nat → List Byte × List Nat) (x : State × Word) (r : Nat) :
    State × Word :=
  let ws := (List.range 256).map (x.1.sliceAt c acc ovf f klen (aC + 1024 * r) (row r))
  (x.1.bufWrite c .cb (aC + 1024 * r) (cleanBytes (ws.map fun w => toBytes w.1 4).flatten),
    ws.foldl (fun fl w => fl ||| BitVec.ofNat 64 w.2) x.2)

/-- MSTR and MWIN: n rows in turn; then the rows are counted and the flags stand that no younger CSR write has overtaken (15 R289, R296,
06 R143). -/
def State.streamsRows (s : State) (c : CtxRef) (o : EngineOp) (acc ovf : Bool) (f klen aC n : Nat) (row : Nat → List Byte × List Nat) :
    State :=
  let x := (List.range n).foldl (State.streamsRow c acc ovf f klen aC row) (s, 0)
  (x.1.modCell c.cell fun l => l.count 6 n).modCtx c fun y => { y with mcsr := y.mcsr ||| o.kept 0x079 x.2 }

/-- One row of MOUT: 256 accumulators are scaled, biased, activated and converted, and written to AB, with the side entries of a block
format (15 R299). -/
def State.readsOutRow (s : State) (c : CtxRef) (f act aC : Nat) (d p : Word) (r : Nat) : State :=
  let pb := moutPb p
  let vs := (List.range 256).map fun j => moutValue (bitOf p 63) act (s.cbWord c (pb + 2048)) (s.cbWord c (pb + 2052))
    (s.cbWord c (aC + 1024 * r + 4 * j)) (s.cbWord c (pb + 4 * j)) (s.cbWord c (pb + 1024 + 4 * j))
  let out := moutRow f (moutRm p) vs
  let t := s.bufWrite c .ab (moutAb d + moutPitch p * r) (cleanBytes out.1)
  if out.2 = [] then t else t.bufWrite c .ab (moutSide d + outSide f * r) (cleanBytes out.2)

/-- The byte of step k of MKAT's sequence (15 R301). -/
def katByte (seed : BitVec 32) (k : Nat) : Byte := (Nat.repeat katNext k (if seed = 0 then 1 else seed)).setWidth 8

/-- The signature of MKAT: 16 activation rows against 256 columns (15 R301). -/
def katSignature (seed : BitVec 32) : BitVec 32 :=
  (List.range 16).foldl (fun g r => (List.range 256).foldl (fun (g : BitVec 32) j => g.rotateLeft 1 ^^^
    BitVec.ofInt 32 ((List.range 192).foldl (fun (x : Int) q =>
      x + (katByte seed (49152 + 192 * r + q + 1)).toInt * (katByte seed (192 * j + q + 1)).toInt) 0)) g) 0

/-- Lane k of VWMAC: a tap, or the pad where it lies outside the image, times the weight plus the accumulator (09 R217). -/
def macLane (et : BitVec 2) (d : Wd) (w acc : Vec) (m : Mask) (rm : Nat) (tap : Option (List Byte)) (k : Nat) : Nat × FpFlags :=
  if lane m 4 k then
    fp32.finish rm (fmaNum ((tap.map fun l => tapNum et l k).getD (d.padNum et)) ((winFmt et).value (elem w (winBytes et) k))
      (fp32.value (elem acc 4 k)))
  else (0, FpFlags.none)

/-- The tap at an AB offset: the bytes of the 64 channels of a group. -/
def State.tapAt (s : State) (c : CtxRef) (et : BitVec 2) (g a : Nat) : List Byte :=
  s.bufBytes c .ab (a + 64 * g * winBytes et) (64 * winBytes et)

/-! ## Transfers between packages, peers (16 R316 to R319, 18 R361) -/

/-- The retries and the drops of a Giuth port (27 R465). -/
def State.flitCounted (s : State) (f : FlitEvent) : State :=
  s.modHub fun h => { h with ports := Table.modify h.ports Port.init f.port fun p =>
    { p with retries := satAdd32 p.retries (min f.tries 8), drops := if 8 < f.tries then satAdd32 p.drops 1 else p.drops } }

/-- Accesses of an agent enter the machine, POSTed: one part for each 64-byte unit, each at its home in device HBM; nothing else changes
(18 R345, R361). -/
def State.gains (s t : State) (agent : Agent) (page : PageKind) (kind : AccKind) (ps : List (Nat × Nat × Nat)) (data : Nat → Byte × Bool) :
    Prop :=
  { t with accs := s.accs, nextId := s.nextId } = s ∧ ∃ new, t.accs = s.accs ++ new ∧
    new.map (fun a => (a.addr, a.data)) = ps.map (fun p => (p.2.1, (List.range p.2.2).map fun k => data (p.1 + k))) ∧
    ∀ a ∈ new, a.agent = agent ∧ a.home = .hbm ∧ a.page = page ∧ a.posted = true ∧ a.performed = false ∧ a.kind = kind

/-- The hub copy engine has a page that migrates (17 R339). -/
def State.migrates (s : State) (r : Option CopyRun) : State := s.modHub fun h => { h with copy := r }

/-- A transfer that another hub has sent to a member here, as it stands with the posted ones (02 R37, R38). -/
def postedOf (k : BarrierToken) (x : MemberTransfer) : Posted :=
  { part := k.part, dom := k.dom.toNat, sender := x.sender, pkg := k.pkg, rank := x.rank, target := x.target, red := x.red,
    data := (List.range x.data.length).map fun n => (x.data.getD n 0, x.marks.contains n), step := k.step }

/-! ## The join unit (23 R426 to R433) -/

/-- The value of a counter of JSTAT. -/
def State.jcounter (s : State) (sel : Nat) : Nat := Table.get s.hub.join.counts 0 sel

/-- The deadline of an entry has passed, and the tests of the hub cycle have their turn: no message is left to take. -/
abbrev State.testsNow (s : State) (e : Nat) : Prop :=
  (∃ d, (s.entry e).deadline = some d ∧ d ≤ s.hub.time) ∧ s.hub.join.phase ≤ 3 ∧ s.intakeDue = false

/-- The join unit has taken the first message of its queue (R427). -/
def State.tookMessage (s : State) (r : List (Nat × BitVec 256)) : State :=
  (s.atPhase 1).modJoin fun j => { j with rewards := r, held := false, intake := some s.hub.time }

/-- The job of the episode in an entry. -/
def State.episodeJob (s : State) (e : Nat) : ScanJob :=
  let j := s.hub.join
  { part := j.part, addr := (s.entry e).addr, t := (s.entry e).t, vt := (s.entry e).vt.toNat, gam := j.gamma.toNat,
    glam := j.glambda.toNat }

/-! ## Launch queues (20 R369 to R374) -/

/-- A queue past the packet at its head: the head, the shadow registers, and whether the packet was a FENCE. -/
def LaunchQueue.advanced (x : LaunchQueue) : LaunchQueue :=
  { x with head := x.head + BitVec.ofNat 32 (1 + hdrLen x.header), sh := x.after, fence := hdrOp x.header == 3 }

/-- The packet at the head of a queue is taken: the turn of its level, and the queue. -/
def State.packetTaken (s : State) (part q : Nat) (x : LaunchQueue) : State :=
  (s.modPart part fun p => { p with turns := Table.set p.turns x.level q }).modQueue part q fun _ => x.advanced

/-- The packet at the head of a queue is rejected for a reason (R372). -/
def State.packetRejected (s : State) (part q : Nat) (x : LaunchQueue) (why : Nat) : State :=
  ((s.modPart part fun p => { p with turns := Table.set p.turns x.level q }).modQueue part q fun y =>
    { y with head := y.head + BitVec.ofNat 32 (1 + hdrLen y.header), errWord := y.head, reason := why, halt := true }).interrupt
      (64 * part + q)

/-- The opcode of each packet step (R374). -/
inductive PacketRow : (Nat → Nat → Instr) → Nat → Prop where
  | launch : PacketRow .launch 1
  | setonly : PacketRow .setonly 2
  | fence : PacketRow .packetFence 3
  | signal : PacketRow .signal 4

/-! ## Nodes (21 R390 to R402) -/

/-- A node fails with a status of R396. -/
def State.failsNode (s : State) (n : NodeRef) (status cause : Nat) (a : Word) : State :=
  s.endNode n { status := status, cause := cause, detail := a, spl := false, slots := [], failed := true, isEnd := false }

/-- A node ends well and releases some slots. -/
def State.endsNode (s : State) (n : NodeRef) (status : Nat) (detail : Word) (slots : List Nat) : State :=
  s.endNode n { status := status, cause := 0, detail := detail, spl := false, slots := slots, failed := false, isEnd := false }

/-- A node of a kind stands ready or runs, nothing has failed it, and no unit of the hub works on it. -/
abbrev State.stands (s : State) (n : NodeRef) (st : NodeStatus) (kind : Nat) : Prop :=
  (s.nodeInfo n).status = st ∧ recKind (s.nodeInfo n).record = kind ∧ (s.nodeInfo n).consumer = false ∧ s.failureOf n = none ∧
    s.atUnit n = false

/-- A node that placement takes next (R400). -/
abbrev State.placesNext (s : State) (n : NodeRef) : Prop :=
  s.wantsTeam n (s.nodeInfo n) = true ∧ s.officeDue n.part = false ∧ s.isNext n = true

/-- Pre-emption at node boundaries: no launch that exists takes a new node (02 R46). -/
def State.heldBack (s : State) (part : Nat) : State :=
  s.modPart part fun p => { p with preempted := some p.nextLaunch, urgent := none }

/-! ## The device (26, 27) -/

/-- The steps that firmware takes: a package whose image does not verify runs none (27 R466). -/
inductive FirmwareStep : Instr → Prop where
  | resume (c : CtxRef) : FirmwareStep (.firmwareResume c)
  | fail (c : CtxRef) : FirmwareStep (.firmwareFail c)
  | rerun (c : CtxRef) : FirmwareStep (.firmwareRerun c)
  | domain (c : CtxRef) (r : DomScope) (w : DomainWrite) : FirmwareStep (.domainRegisterWrite c r w)
  | grants (es : List (BitVec 128)) : FirmwareStep (.grantTableLoad es)
  | store (a : Nat) (v : Word) : FirmwareStep (.firmwareStore a v)
  | migrate (a b n : Nat) : FirmwareStep (.pageMigrationCopy a b n)
  | invalidate (p : Nat) (v : Word) : FirmwareStep (.tlbinvGo p v)
  | rejClear (p : Nat) : FirmwareStep (.tlbinvRejClear p)
  | mode (c : Nat) (v : Word) : FirmwareStep (.cellmodeWrite c v)
  | record (c : Nat) (v : Word) : FirmwareStep (.reliabilityStateWrite c v)
  | register (w : HubWrite) : w.host = false → FirmwareStep (.registerWrite w)
  | owner (v : Word) : FirmwareStep (.jownerWrite v)
  | letters : FirmwareStep .deadLetterClear
  | boundary (p : Nat) : FirmwareStep (.nodeBoundaryPreemption p)
  | urgent (p : Nat) : FirmwareStep (.urgentPreemption p)
  | bringBack (p : Nat) : FirmwareStep (.preemptResume p)
  | leave (c : Nat) : FirmwareStep (.leaveTenant c)
  | move (c p : Nat) : FirmwareStep (.cellRepartition c p)
  | create (p : PartitionSpec) : FirmwareStep (.partitionCreation p)
  | reset (p : Nat) : FirmwareStep (.partitionReset p)
  | capability (p : Nat) : FirmwareStep (.capabilityFault p)
  | p1 (c : Nat) : FirmwareStep (.powerP1 c)
  | c1 (c : Nat) : FirmwareStep (.powerC1 c)
  | c2 (c : Nat) : FirmwareStep (.powerC2 c)
  | c3 : FirmwareStep .powerC3
  | wake (c : Nat) : FirmwareStep (.powerWake c)
  | debug (p : Nat) (v : BitVec 2) : FirmwareStep (.debugStateSet p v)

/-- The answers of the device through its mailbox (27 R467). -/
def State.answers (s : State) (r : SpdmReply) : State :=
  s.modReplies fun x => { x with spdm := x.spdm ++ [r] }

/-- The cell takes a power state. -/
def State.powered (s : State) (cell : Nat) (p : Power) : State := s.modCell cell fun l => { l with power := p }

end Sys2Proof.Machine

namespace Sys2Proof
open Sys2Proof.Machine

/-- The bytes of a transfer that arrives, each with its mark. -/
def PeerTransfer.bytes (t : PeerTransfer) : List (Byte × Bool) :=
  (List.range t.data.length).map fun k => (t.data.getD k 0, t.marks.contains k)

/-- The transfer comes by a port, names a cell of the package and lies inside a whole typed buffer of it. -/
abbrev PeerTransfer.lands (t : PeerTransfer) : Prop :=
  t.port < 8 ∧ t.cell < 256 ∧ t.space.toNat ≠ 3 ∧ t.off + t.data.length ≤ soloSize t.space.toNat

/-- No younger transfer of its sender for the cell has come before it (16 R316). -/
abbrev PeerTransfer.inTurn (t : PeerTransfer) (s : State) : Prop := ∀ p ∈ s.hub.peerLast, p.1 = peerKey t → p.2 < t.rank

/-- No full queue of another kind holds the MSG flits of a port (27 R464). -/
abbrev Machine.State.flitFree (s : State) (port : Nat) (k : MsgKind) : Prop := ∀ w, (s.port port).waits = some w → w = k

end Sys2Proof
end

