-- ==== Sys2Proof/Safety/Whole.lean ====
section
/-!
DEFINITION. What the statements about all words say: the words with a guard, what a word leaves as it is, and the values that
reset gives.
-/
namespace Sys2Proof.Machine

/-! ## Guards (04 R83 to R85) -/

/-- The words with a guard, by stream, guard and length. In a V word it is the guard form of GM (R83 to R85). -/
inductive GuardRow : Instr → Stream → BitVec 4 → Nat → Prop where
  | nop (j : Bool) (g : BitVec 4) (st : Stream) : GuardRow (.nop j g) st g 1
  | add (o : SR) : GuardRow (.add o) .s o.g 1
  | sub (o : SR) : GuardRow (.sub o) .s o.g 1
  | and (o : SR) : GuardRow (.and o) .s o.g 1
  | or (o : SR) : GuardRow (.or o) .s o.g 1
  | xor (o : SR) : GuardRow (.xor o) .s o.g 1
  | andn (o : SR) : GuardRow (.andn o) .s o.g 1
  | shl (o : SR) : GuardRow (.shl o) .s o.g 1
  | shr (o : SR) : GuardRow (.shr o) .s o.g 1
  | sra (o : SR) : GuardRow (.sra o) .s o.g 1
  | min (o : SR) : GuardRow (.min o) .s o.g 1
  | max (o : SR) : GuardRow (.max o) .s o.g 1
  | minu (o : SR) : GuardRow (.minu o) .s o.g 1
  | maxu (o : SR) : GuardRow (.maxu o) .s o.g 1
  | seq (o : SR) : GuardRow (.seq o) .s o.g 1
  | slt (o : SR) : GuardRow (.slt o) .s o.g 1
  | sltu (o : SR) : GuardRow (.sltu o) .s o.g 1
  | mul (o : SR) : GuardRow (.mul o) .s o.g 1
  | mulh (o : SR) : GuardRow (.mulh o) .s o.g 1
  | mulhu (o : SR) : GuardRow (.mulhu o) .s o.g 1
  | div (o : SR) : GuardRow (.div o) .s o.g 1
  | divu (o : SR) : GuardRow (.divu o) .s o.g 1
  | rem (o : SR) : GuardRow (.rem o) .s o.g 1
  | remu (o : SR) : GuardRow (.remu o) .s o.g 1
  | clz (o : SR) : GuardRow (.clz o) .s o.g 1
  | ctz (o : SR) : GuardRow (.ctz o) .s o.g 1
  | popc (o : SR) : GuardRow (.popc o) .s o.g 1
  | rol (o : SR) : GuardRow (.rol o) .s o.g 1
  | ror (o : SR) : GuardRow (.ror o) .s o.g 1
  | addw (o : SR) : GuardRow (.addw o) .s o.g 1
  | subw (o : SR) : GuardRow (.subw o) .s o.g 1
  | cmpEq (o : SR) : GuardRow (.cmpEq o) .s o.g 1
  | cmpNe (o : SR) : GuardRow (.cmpNe o) .s o.g 1
  | cmpLt (o : SR) : GuardRow (.cmpLt o) .s o.g 1
  | cmpGe (o : SR) : GuardRow (.cmpGe o) .s o.g 1
  | cmpLtu (o : SR) : GuardRow (.cmpLtu o) .s o.g 1
  | cmpGeu (o : SR) : GuardRow (.cmpGeu o) .s o.g 1
  | pand (o : SR) : GuardRow (.pand o) .s o.g 1
  | por (o : SR) : GuardRow (.por o) .s o.g 1
  | pxor (o : SR) : GuardRow (.pxor o) .s o.g 1
  | pandn (o : SR) : GuardRow (.pandn o) .s o.g 1
  | pnot (o : SR) : GuardRow (.pnot o) .s o.g 1
  | pset (o : SR) : GuardRow (.pset o) .s o.g 1
  | pclr (o : SR) : GuardRow (.pclr o) .s o.g 1
  | addi (o : SI) : GuardRow (.addi o) .s o.g 1
  | andi (o : SI) : GuardRow (.andi o) .s o.g 1
  | ori (o : SI) : GuardRow (.ori o) .s o.g 1
  | xori (o : SI) : GuardRow (.xori o) .s o.g 1
  | shli (o : SI) : GuardRow (.shli o) .s o.g 1
  | shri (o : SI) : GuardRow (.shri o) .s o.g 1
  | srai (o : SI) : GuardRow (.srai o) .s o.g 1
  | slti (o : SI) : GuardRow (.slti o) .s o.g 1
  | muli (o : SI) : GuardRow (.muli o) .s o.g 1
  | li (o : SL) : GuardRow (.li o) .s o.g 1
  | lil (o : SL) : GuardRow (.lil o) .s o.g 1
  | liw (o : SL) : GuardRow (.liw o) .s o.g 1
  | lix (o : SL) : GuardRow (.lix o) .s o.g 1
  | call (o : SB) : GuardRow (.call o) .s o.g 1
  | jr (o : SR) : GuardRow (.jr o) .s o.g 1
  | jrl (o : SR) : GuardRow (.jrl o) .s o.g 1
  | ld (o : SM) : GuardRow (.ld o) .s o.g 1
  | lds (o : SM) : GuardRow (.lds o) .s o.g 1
  | st (o : SM) : GuardRow (.st o) .s o.g 1
  | amoAdd (o : SR) (x : Ext) : GuardRow (.amoAdd o x) .s o.g 2
  | amoAnd (o : SR) (x : Ext) : GuardRow (.amoAnd o x) .s o.g 2
  | amoOr (o : SR) (x : Ext) : GuardRow (.amoOr o x) .s o.g 2
  | amoXor (o : SR) (x : Ext) : GuardRow (.amoXor o x) .s o.g 2
  | amoMin (o : SR) (x : Ext) : GuardRow (.amoMin o x) .s o.g 2
  | amoMax (o : SR) (x : Ext) : GuardRow (.amoMax o x) .s o.g 2
  | amoMinu (o : SR) (x : Ext) : GuardRow (.amoMinu o x) .s o.g 2
  | amoMaxu (o : SR) (x : Ext) : GuardRow (.amoMaxu o x) .s o.g 2
  | amoSwap (o : SR) (x : Ext) : GuardRow (.amoSwap o x) .s o.g 2
  | amoFadd (o : SR) (x : Ext) : GuardRow (.amoFadd o x) .s o.g 2
  | cas (size : Bool) (o : SR) (x : Ext) : GuardRow (.cas size o x) .s o.g 2
  | movxr (o : SR) : GuardRow (.movxr o) .s o.g 1
  | movxk (o : SR) : GuardRow (.movxk o) .s o.g 1
  | movxw (o : SR) : GuardRow (.movxw o) .s o.g 1
  | qcnt (o : SR) : GuardRow (.qcnt o) .s o.g 1
  | qdrop (o : SR) : GuardRow (.qdrop o) .s o.g 1
  | qclr (o : SR) : GuardRow (.qclr o) .s o.g 1
  | tsig (o : SR) : GuardRow (.tsig o) .s o.g 1
  | twait (o : SR) : GuardRow (.twait o) .s o.g 1
  | tpoll (o : SR) : GuardRow (.tpoll o) .s o.g 1
  | vGfence (o : VR) : GuardRow (.vGfence o) .v o.gm 1
  | vTsig (o : VR) : GuardRow (.vTsig o) .v o.gm 1
  | vTwait (o : VR) : GuardRow (.vTwait o) .v o.gm 1
  | vTpoll (o : VR) : GuardRow (.vTpoll o) .v o.gm 1
  | vBrk (o : VR) : GuardRow (.vBrk o) .v o.gm 1
  | vadd (o : VR) : GuardRow (.vadd o) .v o.gm 1
  | vsub (o : VR) : GuardRow (.vsub o) .v o.gm 1
  | vmul (o : VR) : GuardRow (.vmul o) .v o.gm 1
  | vmulh (o : VR) : GuardRow (.vmulh o) .v o.gm 1
  | vmulhu (o : VR) : GuardRow (.vmulhu o) .v o.gm 1
  | vmad (o : VR) : GuardRow (.vmad o) .v o.gm 1
  | vmin (o : VR) : GuardRow (.vmin o) .v o.gm 1
  | vmax (o : VR) : GuardRow (.vmax o) .v o.gm 1
  | vminu (o : VR) : GuardRow (.vminu o) .v o.gm 1
  | vmaxu (o : VR) : GuardRow (.vmaxu o) .v o.gm 1
  | vabs (o : VR) : GuardRow (.vabs o) .v o.gm 1
  | vand (o : VR) : GuardRow (.vand o) .v o.gm 1
  | vor (o : VR) : GuardRow (.vor o) .v o.gm 1
  | vxor (o : VR) : GuardRow (.vxor o) .v o.gm 1
  | vandn (o : VR) : GuardRow (.vandn o) .v o.gm 1
  | vshl (o : VR) : GuardRow (.vshl o) .v o.gm 1
  | vshr (o : VR) : GuardRow (.vshr o) .v o.gm 1
  | vsra (o : VR) : GuardRow (.vsra o) .v o.gm 1
  | vfsl (o : VR) : GuardRow (.vfsl o) .v o.gm 1
  | vfsr (o : VR) : GuardRow (.vfsr o) .v o.gm 1
  | vclz (o : VR) : GuardRow (.vclz o) .v o.gm 1
  | vpopc (o : VR) : GuardRow (.vpopc o) .v o.gm 1
  | vadds (o : VR) : GuardRow (.vadds o) .v o.gm 1
  | vsubs (o : VR) : GuardRow (.vsubs o) .v o.gm 1
  | vaddsu (o : VR) : GuardRow (.vaddsu o) .v o.gm 1
  | vsubsu (o : VR) : GuardRow (.vsubsu o) .v o.gm 1
  | vavgu (o : VR) : GuardRow (.vavgu o) .v o.gm 1
  | vcmpEq (o : VR) : GuardRow (.vcmpEq o) .v o.gm 1
  | vcmpNe (o : VR) : GuardRow (.vcmpNe o) .v o.gm 1
  | vcmpLt (o : VR) : GuardRow (.vcmpLt o) .v o.gm 1
  | vcmpGe (o : VR) : GuardRow (.vcmpGe o) .v o.gm 1
  | vcmpLtu (o : VR) : GuardRow (.vcmpLtu o) .v o.gm 1
  | vcmpGeu (o : VR) : GuardRow (.vcmpGeu o) .v o.gm 1
  | vcmpFeq (o : VR) : GuardRow (.vcmpFeq o) .v o.gm 1
  | vcmpFlt (o : VR) : GuardRow (.vcmpFlt o) .v o.gm 1
  | vcmpFle (o : VR) : GuardRow (.vcmpFle o) .v o.gm 1
  | vcmpFun (o : VR) : GuardRow (.vcmpFun o) .v o.gm 1
  | fadd (o : VR) : GuardRow (.fadd o) .v o.gm 1
  | fsub (o : VR) : GuardRow (.fsub o) .v o.gm 1
  | fmul (o : VR) : GuardRow (.fmul o) .v o.gm 1
  | fma (o : VR) : GuardRow (.fma o) .v o.gm 1
  | fmin (o : VR) : GuardRow (.fmin o) .v o.gm 1
  | fmax (o : VR) : GuardRow (.fmax o) .v o.gm 1
  | fabs (o : VR) : GuardRow (.fabs o) .v o.gm 1
  | fneg (o : VR) : GuardRow (.fneg o) .v o.gm 1
  | frcp (o : VR) : GuardRow (.frcp o) .v o.gm 1
  | frsq (o : VR) : GuardRow (.frsq o) .v o.gm 1
  | fsqrt (o : VR) : GuardRow (.fsqrt o) .v o.gm 1
  | fexp2 (o : VR) : GuardRow (.fexp2 o) .v o.gm 1
  | flog2 (o : VR) : GuardRow (.flog2 o) .v o.gm 1
  | cvt (o : VR) (code : BitVec 5) : GuardRow (.cvt o code) .v o.gm 1
  | radd (o : VR) : GuardRow (.radd o) .v o.gm 1
  | rfadd (o : VR) : GuardRow (.rfadd o) .v o.gm 1
  | rmin (o : VR) : GuardRow (.rmin o) .v o.gm 1
  | rmax (o : VR) : GuardRow (.rmax o) .v o.gm 1
  | rminu (o : VR) : GuardRow (.rminu o) .v o.gm 1
  | rmaxu (o : VR) : GuardRow (.rmaxu o) .v o.gm 1
  | rand (o : VR) : GuardRow (.rand o) .v o.gm 1
  | vredRor (o : VR) : GuardRow (.vredRor o) .v o.gm 1
  | rxor (o : VR) : GuardRow (.rxor o) .v o.gm 1
  | rimax (o : VR) : GuardRow (.rimax o) .v o.gm 1
  | vscan (o : VR) : GuardRow (.vscan o) .v o.gm 1
  | vfscan (o : VR) : GuardRow (.vfscan o) .v o.gm 1
  | vperm (o : VR) : GuardRow (.vperm o) .v o.gm 1
  | vslup (o : VR) : GuardRow (.vslup o) .v o.gm 1
  | vsldn (o : VR) : GuardRow (.vsldn o) .v o.gm 1
  | vcmpr (o : VR) : GuardRow (.vcmpr o) .v o.gm 1
  | vexpd (o : VR) : GuardRow (.vexpd o) .v o.gm 1
  | vsplt (o : VR) : GuardRow (.vsplt o) .v o.gm 1
  | vsel (o : VR) : GuardRow (.vsel o) .v o.gm 1
  | vins (o : VR) : GuardRow (.vins o) .v o.gm 1
  | vext (o : VR) : GuardRow (.vext o) .v o.gm 1
  | vbcst (o : VR) : GuardRow (.vbcst o) .v o.gm 1
  | mand (o : VR) : GuardRow (.mand o) .v o.gm 1
  | mor (o : VR) : GuardRow (.mor o) .v o.gm 1
  | mxor (o : VR) : GuardRow (.mxor o) .v o.gm 1
  | mandn (o : VR) : GuardRow (.mandn o) .v o.gm 1
  | mnot (o : VR) : GuardRow (.mnot o) .v o.gm 1
  | mpop (o : VR) : GuardRow (.mpop o) .v o.gm 1
  | mset (o : VR) : GuardRow (.mset o) .v o.gm 1
  | mclr (o : VR) : GuardRow (.mclr o) .v o.gm 1
  | mfromv (o : VR) : GuardRow (.mfromv o) .v o.gm 1
  | mtov (o : VR) : GuardRow (.mtov o) .v o.gm 1
  | vld (o : VM) : GuardRow (.vld o) .v o.gm 1
  | vst (o : VM) : GuardRow (.vst o) .v o.gm 1
  | vstb (o : VM) : GuardRow (.vstb o) .v o.gm 1
  | vgath (o : VM) : GuardRow (.vgath o) .v o.gm 1
  | vscat (o : VM) : GuardRow (.vscat o) .v o.gm 1
  | vwmac (o : VW) : GuardRow (.vwmac o) .v o.gm 1
  | vwpool (o : VW) : GuardRow (.vwpool o) .v o.gm 1
  | vaddi (o : VI) : GuardRow (.vaddi o) .v o.gm 1
  | vandi (o : VI) : GuardRow (.vandi o) .v o.gm 1
  | vshli (o : VI) : GuardRow (.vshli o) .v o.gm 1
  | vshri (o : VI) : GuardRow (.vshri o) .v o.gm 1
  | vsrai (o : VI) : GuardRow (.vsrai o) .v o.gm 1
  | pquant (o : VC) : GuardRow (.pquant o) .v o.gm 1
  | pldf (o : VC) : GuardRow (.pldf o) .v o.gm 1
  | pstf (o : VC) : GuardRow (.pstf o) .v o.gm 1
  | rcinit (o : VC) : GuardRow (.rcinit o) .v o.gm 1
  | rcenc (o : VC) : GuardRow (.rcenc o) .v o.gm 1
  | rcdec (o : VC) : GuardRow (.rcdec o) .v o.gm 1
  | rcencv (o : VC) : GuardRow (.rcencv o) .v o.gm 1
  | rcdecv (o : VC) : GuardRow (.rcdecv o) .v o.gm 1
  | rcbinv (o : VC) : GuardRow (.rcbinv o) .v o.gm 1
  | rcbinvEnc (o : VC) : GuardRow (.rcbinvEnc o) .v o.gm 1
  | rcflush (o : VC) : GuardRow (.rcflush o) .v o.gm 1
  | rcmark (o : VC) : GuardRow (.rcmark o) .v o.gm 1
  | rcback (o : VC) : GuardRow (.rcback o) .v o.gm 1
  | rcstat (o : VC) : GuardRow (.rcstat o) .v o.gm 1
  | mfmt (o : MA) : GuardRow (.mfmt o) .m o.g 1
  | mfmtT (o : MA) : GuardRow (.mfmtT o) .m o.g 1
  | mldw (o : MA) : GuardRow (.mldw o) .m o.g 1
  | mswap (o : MA) : GuardRow (.mswap o) .m o.g 1
  | mstr (o : MA) : GuardRow (.mstr o) .m o.g 1
  | mwin (o : MA) : GuardRow (.mwin o) .m o.g 1
  | mzero (o : MA) : GuardRow (.mzero o) .m o.g 1
  | mout (o : MA) : GuardRow (.mout o) .m o.g 1
  | mkat (o : MA) (sig : BitVec 32) : GuardRow (.mkat o sig) .m o.g 2
  | xcpy (o : MA) : GuardRow (.xcpy o) .x o.g 1
  | xcpy2 (o : MA) : GuardRow (.xcpy2 o) .x o.g 1
  | xgath (o : MA) : GuardRow (.xgath o) .x o.g 1
  | xscat (o : MA) : GuardRow (.xscat o) .x o.g 1
  | xfill (o : MA) : GuardRow (.xfill o) .x o.g 1
  | xsend (o : MA) : GuardRow (.xsend o) .x o.g 1
  | xpeer (o : MA) : GuardRow (.xpeer o) .x o.g 1
  | xlbw (o : MA) : GuardRow (.xlbw o) .x o.g 1
  | xlbc (o : MA) : GuardRow (.xlbc o) .x o.g 1
  | xred (o : MA) : GuardRow (.xred o) .x o.g 1
  | xreds (o : MA) : GuardRow (.xreds o) .x o.g 1
  | xpref (o : MA) : GuardRow (.xpref o) .x o.g 1

/-- The V words of FALU, FSPEC, CVT and VRED, which event counter 8 counts (04 R92, 26 R450). -/
inductive CountedRow : Instr → Prop where
  | fadd (o : VR) : CountedRow (.fadd o)
  | fsub (o : VR) : CountedRow (.fsub o)
  | fmul (o : VR) : CountedRow (.fmul o)
  | fma (o : VR) : CountedRow (.fma o)
  | fmin (o : VR) : CountedRow (.fmin o)
  | fmax (o : VR) : CountedRow (.fmax o)
  | fabs (o : VR) : CountedRow (.fabs o)
  | fneg (o : VR) : CountedRow (.fneg o)
  | frcp (o : VR) : CountedRow (.frcp o)
  | frsq (o : VR) : CountedRow (.frsq o)
  | fsqrt (o : VR) : CountedRow (.fsqrt o)
  | fexp2 (o : VR) : CountedRow (.fexp2 o)
  | flog2 (o : VR) : CountedRow (.flog2 o)
  | cvt (o : VR) (code : BitVec 5) : CountedRow (.cvt o code)
  | radd (o : VR) : CountedRow (.radd o)
  | rfadd (o : VR) : CountedRow (.rfadd o)
  | rmin (o : VR) : CountedRow (.rmin o)
  | rmax (o : VR) : CountedRow (.rmax o)
  | rminu (o : VR) : CountedRow (.rminu o)
  | rmaxu (o : VR) : CountedRow (.rmaxu o)
  | rand (o : VR) : CountedRow (.rand o)
  | vredRor (o : VR) : CountedRow (.vredRor o)
  | rxor (o : VR) : CountedRow (.rxor o)
  | rimax (o : VR) : CountedRow (.rimax o)
  | vscan (o : VR) : CountedRow (.vscan o)
  | vfscan (o : VR) : CountedRow (.vfscan o)

/-! ## What the register words of S leave -/

/-- The words of S that compute from registers, with the queues that they read (07 R146 to R152). -/
inductive RegisterRow : Instr → List QRef → Prop where
  | alu (i : Instr) (o : SR) (lat : Nat) (f : Word → Word → Word) : AluRow i o lat f → RegisterRow i [sRef o.a, sRef o.b]
  | div (i : Instr) (o : SR) (f : Word → Word → Word) : DivRow i o f → RegisterRow i [sRef o.a, sRef o.b]
  | unary (i : Instr) (o : SR) (f : Word → Word) : UnaryRow i o f → RegisterRow i [sRef o.a]
  | imm (i : Instr) (o : SI) (lat : Nat) (f : Word → BitVec 10 → Word) : ImmRow i o lat f → RegisterRow i [sRef o.a]
  | const (i : Instr) (o : SL) (f : BitVec 16 → Word) : ConstRow i o f → RegisterRow i []
  | sel (o : SR) : RegisterRow (.sel o) [sRef o.a, sRef o.b]
  | cmp (i : Instr) (o : SR) (f : Word → Word → Bool) : CmpRow i o f → RegisterRow i [sRef o.a, sRef o.b]
  | pred (i : Instr) (o : SR) (f : Bool → Bool → Bool) : PredRow i o f → RegisterRow i []

/-- Nothing outside a context has changed: every byte of every home and buffer, the accesses, the hub, the other contexts. -/
structure SameDevice (s t : State) (c : CtxRef) : Prop where
  homes  : ∀ h, t.homeMem h = s.homeMem h
  bufs   : ∀ n sp, t.buffer n sp = s.buffer n sp
  accs   : t.accs = s.accs
  hub    : t.hub = s.hub
  others : ∀ d, d ≠ c → t.ctx d = s.ctx d

/-- The special registers, accumulators, masks, tokens and exception registers of a context are as they were, and so are the streams
but S. -/
structure SameRegisters (x y : Ctx) : Prop where
  streams : y.sv = x.sv ∧ y.sm = x.sm ∧ y.sx = x.sx
  saved   : y.ss.tpc = x.ss.tpc ∧ y.ss.tseq = x.ss.tseq ∧ y.ss.tlb = x.ss.tlb
  trap    : y.tvec = x.tvec ∧ y.tcause = x.tcause ∧ y.taddr = x.taddr ∧ y.torig = x.torig ∧ y.tinfl = x.tinfl ∧ y.cut = x.cut
  modulo  : y.lpw = x.lpw ∧ y.lii = x.lii
  domains : ∀ sc, y.dom sc = x.dom sc ∧ y.sstep sc = x.sstep sc
  node    : y.param = x.param ∧ y.node = x.node ∧ y.gen = x.gen ∧ y.part = x.part
  random  : y.rngkey = x.rngkey ∧ y.rngstream = x.rngstream ∧ y.rngpos = x.rngpos
  engines : y.vcsr = x.vcsr ∧ y.mcsr = x.mcsr ∧ y.rcsr = x.rcsr ∧ y.xerr = x.xerr ∧ y.xdone = x.xdone
  poison  : y.poisonlog = x.poisonlog ∧ y.poisoncnt = x.poisoncnt
  files   : y.preds = x.preds ∧ y.masks = x.masks ∧ y.tokens = x.tokens ∧ y.vq = x.vq ∧ y.wd = x.wd ∧ y.slots = x.slots ∧
    y.tables = x.tables
  work    : y.ops = x.ops ∧ y.sops = x.sops ∧ y.fences = x.fences ∧ y.hold = x.hold

/-! ## Reset (06 R140, 14 R476, 22 R411, 23 R423, 27 R474) -/

/-- The control registers of a context at the values of R140, and the window descriptors, the format and the plane tags as R476 has
them. -/
structure RegistersAtReset (x : Ctx) : Prop where
  status  : x.status = 0 ∧ x.gen = 0
  trap    : x.tvec = 0 ∧ x.tcause = 0 ∧ x.taddr = 0 ∧ x.torig = 0 ∧ x.tinfl = 0
  streams : ∀ st, (x.str st).tpc = 0 ∧ (x.str st).tseq = 0 ∧ (x.str st).lc0 = 0 ∧ (x.str st).ls0 = 0 ∧ (x.str st).le0 = 0 ∧
    (x.str st).lc1 = 0 ∧ (x.str st).ls1 = 0 ∧ (x.str st).le1 = 0
  modulo  : x.lpw = 0 ∧ x.lii = 0
  domains : ∀ sc, x.dom sc = 0 ∧ x.sstep sc = 0
  random  : x.rngkey = 0 ∧ x.rngstream = 0 ∧ x.rngpos = 0
  engines : x.vcsr = 0 ∧ x.mcsr = 0 ∧ x.rcsr = 0 ∧ x.xerr = 0
  poison  : x.poisonlog = 0 ∧ x.poisoncnt = 0
  windows : ∀ n, Table.get x.wd 0 n = 0
  formats : x.cf = 0 ∧ x.tagAct = 0 ∧ x.tagSh = 0

/-- The memories of a cell as R476 has them. -/
structure CellAtReset (l : Cell) : Prop where
  mode   : l.mode = 0
  bufs   : l.wb = Memory.blank 0 ∧ l.ab = Memory.blank 0 ∧ l.cb = Memory.blank 0
  planes : l.plane0 = Memory.blank 0 ∧ l.plane1 = Memory.blank 0
  shadow : l.shadow = none

/-! ## Fetch (04 R81, R82, R96) -/

/-- The instruction that stands at the pc of a stream: one word, or the two words of a pair, as the memory of its page gives them. -/
def State.standsAt (s : State) (c : CtxRef) (st : Stream) (w : BitVec 32) (i : Instr) : Prop :=
  let pc := ((s.ctx c).str st).pc
  s.codeAt c st pc = .ok w ∧
    if isPair st w.toNat then ∃ w2, s.codeAt c st (pc + 4) = .ok w2 ∧ i = decodeWords st w w2 else i = decodeWords st w 0

/-- A step in which a stream may try its word: no cause that was kept is due first. -/
def State.triesWord (s : State) (c : CtxRef) (st : Stream) : Prop :=
  s.mayIssue c = true ∧ (s.ctx c).hasPending = false ∧ s.streamOpen c st = true

/-- The words that a handler may not issue (12 R248). -/
def barredInHandler (w : BitVec 32) (i : Instr) : Bool :=
  bitOf w 31 || match i with
    | .gfence _ | .bsync _ | .loopm _ => true
    | _ => false

/-! ## Bundles (02 R23, R24, R27; 04 R98) -/

/-- The four words of the streams in slot order. -/
def State.joined (s : State) (c : CtxRef) (w : Stream → BitVec 32) (i : Stream → Instr) : List (Stream × Fetched) :=
  Stream.all.map fun q => (q, { instr := i q, code := w q, fwd := s.forwardAt ((s.ctx c).str q).pc })

/-- All four streams stand at words with J = 1 and may try them in a cycle in which no slot has issued. -/
def State.allJoined (s : State) (c : CtxRef) (w : Stream → BitVec 32) (i : Stream → Instr) : Prop :=
  (s.ctx c).slots0 = 0 ∧ s.ownWindow c = true ∧ ∀ q, s.standsAt c q (w q) (i q) ∧ bitOf (w q) 31 = true ∧ s.streamOpen c q = true

/-- The state after some words of a bundle that retire one after the other. -/
def State.ranWords (s : State) (c : CtxRef) : List (Stream × Fetched) → Option State
  | [] => some s
  | p :: r =>
    match s.inSlot c p with
    | .next t => if t.lastIssue = .retired then t.ranWords c r else none
    | _ => none

end Sys2Proof.Machine
end

