-- ==== Sys2Proof/Certificates/Slice0/Obligations.lean ====
section
/-!
DEFINITION. The statements for the provers. Each equation `exec i s = .next t` names the whole next state: what `t` does not
change is as it was.
-/
open Sys2Proof Sys2Proof.Machine

/-! ## The scalar stream -/

/-- 07 R146: a register-register word reads A then B, and its result is in flight for the cycles of the table. -/
def Obligations.ScalarArithmetic : Prop :=
  ∀ (i : Instr) (o : SR) (lat : Nat) (f : Word → Word → Word) (s : State), AluRow i o lat f →
    let rs := [(sRef o.a, o.ka), (sRef o.b, o.kb)]
    s.goes o.g rs (sRef o.d) = true →
    exec i s = .next (s.pushes o.g rs (sRef o.d)
      (wide (f ((s.entered o.g).wordAt rs 0) ((s.entered o.g).wordAt rs 1))) (some lat))

/-- 07 R147: a divide pushes its result after 24 cycles; a zero divisor sets `STATUS.DZ`, and nothing traps. -/
def Obligations.ScalarDivides : Prop :=
  ∀ (i : Instr) (o : SR) (f : Word → Word → Word) (s : State), DivRow i o f →
    let rs := [(sRef o.a, o.ka), (sRef o.b, o.kb)]
    let a := (s.entered o.g).wordAt rs 0
    let b := (s.entered o.g).wordAt rs 1
    s.goes o.g rs (sRef o.d) = true →
    let t := ((s.entered o.g).tookAll rs).pushed (sRef o.d) (some (wide (f a b))) (some 24)
    exec i s = .next ((if b = 0 then t.changed fun c => { c with status := c.status ||| 1#64 } else t).retired 1)

/-- 07 R146, R149, R150: CLZ, CTZ, POPC, the words with an immediate, and the constants. -/
def Obligations.ScalarUnaryAndImmediate : Prop :=
  (∀ (i : Instr) (o : SR) (f : Word → Word) (s : State), UnaryRow i o f →
    let rs := [(sRef o.a, o.ka)]
    s.goes o.g rs (sRef o.d) = true →
    exec i s = .next (s.pushes o.g rs (sRef o.d) (wide (f ((s.entered o.g).wordAt rs 0))) (some 1))) ∧
  (∀ (i : Instr) (o : SI) (lat : Nat) (f : Word → BitVec 10 → Word) (s : State), ImmRow i o lat f →
    let rs := [(sRef o.a, o.ka)]
    s.goes o.g rs (sRef o.d) = true →
    exec i s = .next (s.pushes o.g rs (sRef o.d) (wide (f ((s.entered o.g).wordAt rs 0) o.imm)) (some lat))) ∧
  (∀ (i : Instr) (o : SL) (f : BitVec 16 → Word) (s : State), ConstRow i o f →
    s.goes o.g [] (sRef o.d) = true →
    exec i s = .next (s.pushes o.g [] (sRef o.d) (wide (f o.imm)) (some 1)))

/-- 07 R148: SEL reads both operands whatever its condition says, and pushes the one that the condition names. -/
def Obligations.SelectReadsBoth : Prop :=
  ∀ (o : SR) (s : State),
    let rs := [(sRef o.a, o.ka), (sRef o.b, o.kb)]
    s.predKnown o.g.toNat = true → (s.ctx s.cur).readable rs = true →
    ((s.tookAll rs).ctx s.cur).room (sRef o.d) = true → s.queuesOk [sRef o.a, sRef o.b, sRef o.d] = true →
    exec (.sel o) s = .next (((s.tookAll rs).pushed (sRef o.d)
      (some (wide (if (s.ctx s.cur).cond o.g.toNat then s.wordAt rs 0 else s.wordAt rs 1))) (some 1)).retired 1)

/-- 07 R151, R152: a compare and a word of predicate logic write their predicate after one cycle. -/
def Obligations.ScalarPredicates : Prop :=
  (∀ (i : Instr) (o : SR) (f : Word → Word → Bool) (s : State), CmpRow i o f →
    let rs := [(sRef o.a, o.ka), (sRef o.b, o.kb)]
    s.goes o.g rs .zero = true →
    exec i s = .next ((((s.entered o.g).tookAll rs).setsPred (predNo o.d)
      (f ((s.entered o.g).wordAt rs 0) ((s.entered o.g).wordAt rs 1))).retired 1)) ∧
  (∀ (i : Instr) (o : SR) (f : Bool → Bool → Bool) (s : State), PredRow i o f →
    s.guardOpen o.g = true → s.predKnown (predNo o.a) = true → s.predKnown (predNo o.b) = true →
    exec i s = .next (((s.entered o.g).setsPred (predNo o.d)
      (f ((s.ctx s.cur).pred (predNo o.a)) ((s.ctx s.cur).pred (predNo o.b)))).retired 1))

/-- 07 R153, R154: BR, BP, BNP, BZ and BNZ go to their target when they are taken, otherwise to the next word. -/
def Obligations.ScalarBranches : Prop :=
  (∀ (o : SB) (s : State), s.mayBranch = true →
    exec (.br o) s = .next (s.branched (s.pcOf + o.off.signExtend 64 * 4) false)) ∧
  (∀ (o : SB) (s : State), s.predKnown o.g.toNat = true → s.mayBranch = true →
    exec (.bp o) s = .next (if (s.ctx s.cur).cond o.g.toNat then s.branched (s.pcOf + o.off.signExtend 64 * 4) false
      else s.retired 1) ∧
    exec (.bnp o) s = .next (if (s.ctx s.cur).cond o.g.toNat then s.retired 1
      else s.branched (s.pcOf + o.off.signExtend 64 * 4) false)) ∧
  (∀ (o : SBZ) (s : State), (s.ctx s.cur).readable [(sRef o.a, o.ka)] = true → s.queuesOk [sRef o.a] = true →
    s.mayBranch = true →
    let t := s.took (sRef o.a) o.ka
    exec (.bz o) s = .next (if s.frontWord (sRef o.a) = 0 then t.branched (s.pcOf + o.off.signExtend 64 * 4) false
      else t.retired 1) ∧
    exec (.bnz o) s = .next (if s.frontWord (sRef o.a) = 0 then t.retired 1
      else t.branched (s.pcOf + o.off.signExtend 64 * 4) false))

/-- 07 R153, R155: CALL and JRL push PC + 4 and go to their target; JR goes to the value that it pops. -/
def Obligations.ScalarCallsAndJumps : Prop :=
  (∀ (o : SB) (s : State), s.guardOpen o.g = true → s.mayBranch = true → (s.ctx s.cur).room (.loc 23) = true →
    exec (.call o) s = .next (((s.entered o.g).pushed (.loc 23) (some (wide (s.pcOf + 4))) (some 1)).branched
      (s.pcOf + o.off.signExtend 64 * 4) true)) ∧
  (∀ (o : SR) (s : State), s.goes o.g [(sRef o.a, o.ka)] .zero = true → s.mayBranch = true →
    (s.frontWord (sRef o.a)).extractLsb' 0 2 = 0 →
    exec (.jr o) s = .next (((s.entered o.g).took (sRef o.a) o.ka).branched (s.frontWord (sRef o.a)) false)) ∧
  (∀ (o : SR) (s : State), s.goes o.g [(sRef o.a, o.ka)] (sRef o.d) = true → s.mayBranch = true →
    (s.frontWord (sRef o.a)).extractLsb' 0 2 = 0 →
    exec (.jrl o) s = .next ((((s.entered o.g).took (sRef o.a) o.ka).pushed (sRef o.d) (some (wide (s.pcOf + 4)))
      (some 1)).branched (s.frontWord (sRef o.a)) true))

/-! ## Memory words of the scalar stream -/

/-- 07 R157 to R162: LD and LDS read their address, reserve the push of their result, and issue the access that fetches it; under TRAP
they take their bytes in the same step, once what they are ordered behind is done and no unit of them is poisoned. That a word under
TRAP reads in the step of its issue is the model's reading (log 13, DEDUCED), not the text of R162. -/
def Obligations.ScalarLoadsIssue : Prop :=
  ∀ (sext : Bool) (o : SM) (s : State) (off : Option Nat) (ps : List Part),
    let rs := [(sRef o.a, o.ka)]
    let a := s.frontWord (sRef o.a)
    let n := sizeBytes o.sz
    let s1 := (s.entered o.g).tookAll rs
    let s2 := s1.pushed (sRef o.d) none none
    let s3 := s2.walked off ps
    s.curSt = .s → s.goes o.g rs (sRef o.d) = true → alignedIf (o.ord != 0#2) a n = true → s2.located .read a n = some (off, ps) →
    s3.poisonFree .read off ps n (o.ord != 0#2) false o.obs = true →
    (off = none ∨ s3.recordRoom (ssRange off n true) = true) →
    exec (if sext then .lds o else .ld o) s = .next (((s3.accessed (.load n sext (resultToken s1 (sRef o.d))) .read a off ps n
      (o.ord != 0#2) false o.obs 0).readAtOnce (s3.strictNow ps) s3.nextId).retired 1)

/-- 07 R157 to R159, R161: ST reads its address, then its data, and issues the access that stores it. -/
def Obligations.ScalarStoreIssues : Prop :=
  ∀ (o : SM) (s : State) (off : Option Nat) (ps : List Part),
    let rs := [(sRef o.a, o.ka), (sRef o.d, o.kd)]
    let a := (s.entered o.g).wordAt rs 0
    let v := (s.entered o.g).wordAt rs 1
    let n := sizeBytes o.sz
    let s1 := (s.entered o.g).tookAll rs
    let s2 := s1.walked off ps
    s.goes o.g rs .zero = true → alignedIf (o.ord != 0#2) a n = true → s1.located .write a n = some (off, ps) →
    s2.vmOk off = true → (off = none ∨ s2.recordRoom (ssRange off n true) = true) →
    exec (.st o) s = .next ((s2.accessed .store .write a off ps n false (o.ord != 0#2) o.obs v).retired 1)

/-- 07 R163 to R165: an atomic reads its operands in field order, reserves the push of the old value, and issues one access that
reads and writes; under TRAP it is done in the same step, which is the model's reading (log 13, DEDUCED). -/
def Obligations.ScalarAtomicsIssue : Prop :=
  (∀ (i : Instr) (o : SR) (e : Ext) (op : AmoOp) (s : State) (off : Option Nat) (ps : List Part), AmoRow i o e op →
    let rs := [(sRef o.a, o.ka), (sRef o.b, o.kb)]
    let a := (s.entered o.g).wordAt rs 0
    let b := (s.entered o.g).wordAt rs 1
    let n := if e.c.getLsbD 0 then 8 else 4
    let s1 := (s.entered o.g).tookAll rs
    let s2 := s1.pushed (sRef o.d) none none
    let s3 := s2.walked off ps
    s.curSt = .s → s.goes o.g rs (sRef o.d) = true → alignedIf true a n = true → s2.located .atomic a n = some (off, ps) →
    s3.poisonFree (.amo op b) off ps n (e.ord.getLsbD 0) (e.ord.getLsbD 1) e.obs = true → s3.vmOk off = true →
    (off = none ∨ s3.recordRoom (ssRange off n true) = true) →
    exec i s = .next (((s3.accessed (.amo n (resultToken s1 (sRef o.d))) (.amo op b) a off ps n (e.ord.getLsbD 0) (e.ord.getLsbD 1)
      e.obs 0).readAtOnce (s3.strictNow ps) s3.nextId).retired 2)) ∧
  (∀ (size : Bool) (o : SR) (e : Ext) (s : State) (off : Option Nat) (ps : List Part),
    let rs := [(sRef o.a, o.ka), (sRef o.b, o.kb), (sRef e.c, e.kc)]
    let a := (s.entered o.g).wordAt rs 0
    let n := if size then 8 else 4
    let s1 := (s.entered o.g).tookAll rs
    let s2 := s1.pushed (sRef o.d) none none
    let s3 := s2.walked off ps
    let kind := AccKind.cas ((s.entered o.g).wordAt rs 1) ((s.entered o.g).wordAt rs 2)
    s.curSt = .s → s.goes o.g rs (sRef o.d) = true → alignedIf true a n = true → s2.located .atomic a n = some (off, ps) →
    s3.poisonFree kind off ps n (e.ord.getLsbD 0) (e.ord.getLsbD 1) e.obs = true → s3.vmOk off = true →
    (off = none ∨ s3.recordRoom (ssRange off n true) = true) →
    exec (.cas size o e) s = .next (((s3.accessed (.amo n (resultToken s1 (sRef o.d))) kind a off ps n (e.ord.getLsbD 0)
      (e.ord.getLsbD 1) e.obs 0).readAtOnce (s3.strictNow ps) s3.nextId).retired 2))

/-- 07 R166, R174: a FENCE stands at its rank and the stream goes on; WDLD issues the load of its window descriptor, whose bytes come in
the same step under TRAP: the model's reading (log 13, DEDUCED). -/
def Obligations.FencesAndDescriptorLoad : Prop :=
  (∀ (i : Instr) (o : SF) (k : Nat) (s : State), FenceRow i o k →
    let t := ({ s with nextId := s.nextId + 1 }).changed fun c =>
      { c with fences := c.fences ++ [({ kind := k, obs := o.obs, rank := s.nextId } : Fence)] }
    exec i s = .next ((t.settleFences s.cur).retired 1)) ∧
  (∀ (o : SX) (s : State) (off : Option Nat) (ps : List Part),
    let a := s.frontWord (sRef o.a)
    let n := (o.b.extractLsb' 0 2).toNat
    let s1 := s.took (sRef o.a) o.ka
    let s2 := s1.walked off ps
    s.curSt = .s → (s.ctx s.cur).readable [(sRef o.a, o.ka)] = true → s.queuesOk [sRef o.a] = true →
    (s.ctx s.cur).ops.any (fun p => p.kind.usesWd n) = false → (s.ctx s.cur).wdPending n = false →
    alignedIf true a 64 = true → s1.located .read a 64 = some (off, ps) → s2.poisonFree .read off ps 64 false false 0 = true →
    (off = none ∨ s2.recordRoom (ssRange off 64 true) = true) →
    exec (.wdld o) s = .next (((s2.accessed (.wdld n) .read a off ps 64 false false 0 0).readAtOnce (s2.strictNow ps) s2.nextId).retired 1))

/-! ## Queues and tokens -/

/-- 06 R134 to R137: the queue words. -/
def Obligations.QueueWords : Prop :=
  (∀ (keep : Bool) (o : SR) (s : State),
    let s1 := (s.entered o.g).took (sRef o.a) o.ka
    let q := queueAt (s.frontWord (sRef o.a))
    s.guardOpen o.g = true → (s.ctx s.cur).readable [(sRef o.a, o.ka)] = true →
    (s1.ctx s.cur).readable [(q, keep)] = true → ((s1.took q keep).ctx s.cur).room (sRef o.d) = true →
    s1.queuesOk [sRef o.a, q, sRef o.d] = true →
    exec (if keep then .movxk o else .movxr o) s =
      .next (((s1.took q keep).pushed (sRef o.d) (some (s1.front q)) none).retired 1)) ∧
  (∀ (o : SR) (s : State),
    let s1 := (s.entered o.g).took (sRef o.a) o.ka
    let q := queueAt (s.frontWord (sRef o.a))
    s.guardOpen o.g = true → (s.ctx s.cur).readable [(sRef o.a, o.ka)] = true →
    (s1.ctx s.cur).readable [(sRef o.b, o.kb)] = true → ((s1.took (sRef o.b) o.kb).ctx s.cur).room q = true →
    s1.queuesOk [sRef o.a, sRef o.b, q] = true →
    exec (.movxw o) s = .next (((s1.took (sRef o.b) o.kb).pushed q (some (s1.front (sRef o.b))) none).retired 1)) ∧
  (∀ (o : SR) (s : State), s.goes o.g [] (sRef o.d) = true →
    exec (.qcnt o) s = .next (s.pushes o.g [] (sRef o.d)
      (wide (BitVec.ofNat 64 ((s.ctx s.cur).entries (sRef o.b) + (s.ctx s.cur).pendingQ (sRef o.b)))) none)) ∧
  (∀ (o : SR) (s : State), s.goes o.g [(sRef o.b, false)] .zero = true →
    exec (.qdrop o) s = .next (((s.entered o.g).took (sRef o.b) false).retired 1)) ∧
  (∀ (o : SR) (s : State), s.guardOpen o.g = true → (s.entered o.g).queuesOk [sRef o.b] = true →
    ((sRef o.b).isChan = true ∨ (s.ctx s.cur).pendingQ (sRef o.b) = 0) →
    exec (.qclr o) s = .next (((s.entered o.g).emptied (sRef o.b)).retired 1))

/-- 06 R138, R139: TSIG adds one to its token and traps at 15; TWAIT takes one and waits at 0; TPOLL pushes the count. The
same in S, V, M and X. -/
def Obligations.TokenWords : Prop :=
  (∀ (i : Instr) (st : Stream) (g : BitVec 4) (n : Nat) (s : State), SignalRow i st g n → s.opens st g = true →
    (s.tokenAt n ≠ 15#4 → (s.begun st g).outwardOk = true →
      exec i s = .next (((s.begun st g).withToken n (s.tokenAt n + 1)).retired 1)) ∧
    (s.tokenAt n = 15#4 → exec i s = .next (s.trapped .qovf (BitVec.ofNat 64 (128 + n))))) ∧
  (∀ (i : Instr) (st : Stream) (g : BitVec 4) (n : Nat) (s : State), AwaitRow i st g n → s.opens st g = true →
    (s.tokenAt n ≠ 0#4 → (s.begun st g).outwardOk = true →
      exec i s = .next (((s.begun st g).withToken n (s.tokenAt n - 1)).retired 1)) ∧
    (s.tokenAt n = 0#4 → exec i s = .next (s.waitsAt .outside))) ∧
  (∀ (o : SR) (s : State), s.goes o.g [] (sRef o.d) = true → (s.entered o.g).outwardOk = true →
    exec (.tpoll o) s = .next (s.pushes o.g [] (sRef o.d) (wide ((s.tokenAt (o.b.toNat % 16)).setWidth 64)) none)) ∧
  (∀ (o : VR) (s : State), s.opens .v o.gm = true → (s.ctx s.cur).room (aRef .v o.d) = true →
    (s.begun .v o.gm).outwardOk = true →
    exec (.vTpoll o) s = .next (((s.begun .v o.gm).pushed (aRef .v o.d)
      (some (wide ((s.tokenAt o.a.toNat).setWidth 64))) none).retired 1))

/-! ## Loops -/

/-- 08 R178, R180, R183: LOOP and LOOPI arm a level or skip the body, and LOOPM starts a modulo loop in all four streams. -/
def Obligations.LoopWordsArm : Prop :=
  (∀ (o : SLP) (s : State), (s.ctx s.cur).readable [(sRef o.a, o.ka)] = true → s.queuesOk [sRef o.a] = true →
    s.mayLoop o.lv o.last.toNat (o.last.signExtend 64) (s.frontWord (sRef o.a)) = true →
    exec (.loop o) s = .next ((s.took (sRef o.a) o.ka).looped o.lv (o.last.signExtend 64) (s.frontWord (sRef o.a)))) ∧
  (∀ (o : SLI) (s : State), s.mayLoop o.lv o.last.toNat (o.last.signExtend 64) (o.count.setWidth 64) = true →
    exec (.loopi o) s = .next (s.looped o.lv (o.last.signExtend 64) (o.count.setWidth 64))) ∧
  (∀ (o : SLM) (s : State), (s.ctx s.cur).readable [(sRef o.a, o.ka)] = true → s.queuesOk [sRef o.a] = true →
    s.mayLoopm o (s.frontWord (sRef o.a)) = true →
    exec (.loopm o) s = .next (((s.took (sRef o.a) o.ka).changed fun c =>
      c.startModulo o (s.frontWord (sRef o.a)).toNat).issuedOnly))

/-! ## Control registers and system words -/

/-- 07 R167: CSRR pushes a control register; CSRW, CSRS and CSRC push the old value and write, set or clear. -/
def Obligations.ControlRegisterWords : Prop :=
  (∀ (o : SC) (s : State), (s.ctx s.cur).room (sRef o.d) = true → s.queuesOk [sRef o.d] = true →
    exec (.csrr o) s = .next ((s.pushed (sRef o.d) (some (wide (s.readCsr s.cur o.csr.toNat))) none).retired 1)) ∧
  (∀ (i : Instr) (o : SC) (k : CsrOp) (f : Word → Word → Word) (s : State), CsrRow i o k f →
    let a := s.frontWord (sRef o.a)
    let n := o.csr.toNat
    let s1 := s.took (sRef o.a) o.ka
    let old := s1.readCsr s.cur n
    (s.ctx s.cur).readable [(sRef o.a, o.ka)] = true → (s1.ctx s.cur).room (sRef o.d) = true → s.outwardOk = true →
    exec i s = .next (((s1.pushed (sRef o.d) (some (wide old)) none).wroteCsr n k a (f old a)).retired 1))

/-- 07 R170, R175, 04 R96, 12 R250: NOP retires, HALT marks its stream once the engines are done, and the words whose effect is a
trap take it. -/
def Obligations.NopHaltAndTrapWords : Prop :=
  (∀ (j : Bool) (g : BitVec 4) (s : State), s.opens s.curSt g = true → exec (.nop j g) s = .next (s.retired 1)) ∧
  (∀ (i : Instr) (s : State), i ∈ [Instr.halt, .vHalt, .mHalt, .xHalt] → s.asyncBusy s.cur = false →
    exec i s = .next ((s.changed fun c => c.modStr s.curSt fun r => { r with halted := true }).retired 1)) ∧
  (∀ (w : BitVec 32) (s : State), exec (.illegalWord w) s = .next (s.trapped .illop (w.setWidth 64))) ∧
  (∀ (o : SX) (s : State), exec (.brk o) s = .next (s.trapped .brkpt (o.b.setWidth 64))) ∧
  (∀ (o : VR) (s : State), s.opens .v o.gm = true → exec (.vBrk o) s = .next (s.trapped .brkpt (o.b.setWidth 64))) ∧
  (∀ (o : MS) (s : State), exec (.mBrk o) s = .next (s.trapped .brkpt (o.a.setWidth 64)) ∧
    exec (.xBrk o) s = .next (s.trapped .brkpt (o.a.setWidth 64))) ∧
  (∀ (o : SX) (s : State),
    let t : Trap := { cause := .swtrap, addr := o.b.setWidth 64, st := .s, async := false, word := some (s.ctx s.cur).ss.pc }
    let u := s.changed fun c => c.retireSeq .s 1
    exec (.trap o) s = .next ((if s.inBundle then { u with after := some t } else u.raise s.cur t).noted .retired))

/-- 12 R250: TRET sends every stream to its `TPC` and clears HND; outside a handler it traps ILLOP. -/
def Obligations.TrapReturn : Prop :=
  ∀ (o : SX) (s : State),
    ((s.ctx s.cur).hnd = true → ∃ t, exec (.tret o) s = .next t ∧ t.lastIssue = .retired ∧
      (t.ctx s.cur).hnd = false ∧ (∀ st, ((t.ctx s.cur).str st).pc = ((s.ctx s.cur).str st).tpc) ∧
      (t.ctx s.cur).tvec = (s.ctx s.cur).tvec ∧ (t.ctx s.cur).taddr = (s.ctx s.cur).taddr ∧
      (t.ctx s.cur).dq = (s.ctx s.cur).dq ∧ (t.ctx s.cur).flights = (s.ctx s.cur).flights ∧
      (∀ c, c ≠ s.cur → t.ctx c = s.ctx c) ∧ t.hbm = s.hbm ∧ t.cells = s.cells ∧ t.hub = s.hub) ∧
    ((s.ctx s.cur).hnd = false →
      exec (.tret o) s = .next (s.trapped .illop (if o.j then 0x80000018#64 else 0x18#64)))

/-- 02 R36, R37, R47, 07 R171: a GFENCE raises its stream's count and waits until all four counts are equal; then all streams leave it,
and `GEN` holds the common count; a word in a bundle leaves with its bundle. BSYNC traps DOMERR where its register names no domain or the
hub does not record the nesting; otherwise it waits from its first try, arrives once it may, and goes on at the release. -/
def Obligations.SynchronisationWords : Prop :=
  (∀ (i : Instr) (st : Stream) (g : BitVec 4) (s : State), GfenceRow i st g → s.curSt = st → (st = .v → (s.lanes g).isSome = true) →
    let b := s.atFenceWord st g
    let u := b.changed fun c => c.modStr st raiseFence
    b.outwardOk = true →
    ((u.ctx s.cur).fencesEqual = true → s.inBundle = false → exec i s = .next ((u.changed Ctx.leaveFences).issuedOnly)) ∧
    ((u.ctx s.cur).fencesEqual = true → s.inBundle = true →
      exec i s = .next ((u.changed fun c =>
        { c.modStr st (fun r => { r with gfw := false }) with gen := c.ss.gf }).retired 1)) ∧
    ((u.ctx s.cur).fencesEqual = false → exec i s = .next u.waits)) ∧
  (∀ (o : SX) (s : State),
    let sc := scopeOf (o.b.extractLsb' 0 2).toNat
    let c := s.ctx s.cur
    (c.released = true → exec (.bsync o) s = .next ((s.changed fun c => { c with released := false }).retired 1)) ∧
    (c.released = false → c.barrier.isSome = true → exec (.bsync o) s = .next (s.barrierTried sc)) ∧
    (c.released = false → c.barrier = none →
      (s.domOk sc = true → s.outwardOk = true → exec (.bsync o) s = .next ((s.barrierBegun sc).barrierTried sc)) ∧
      (domCount (c.dom sc) = 0 → exec (.bsync o) s = .next (s.trapped .domerr (BitVec.ofNat 64 (scopeNo sc)))) ∧
      (domCount (c.dom sc) ≠ 0 → s.domOk sc = false →
        exec (.bsync o) s = .next (s.trapped .domerr (BitVec.ofNat 64 (4 + scopeNo sc))))))

/-- 07 R172, R173, 26 R451, R454: TSTAMP, CNTR and RNGD push the time stamp, an event counter, and a draw. -/
def Obligations.TimeCounterAndDraw : Prop :=
  ∀ (o : SX) (s : State), (s.ctx s.cur).room (sRef o.d) = true → s.queuesOk [sRef o.d] = true →
    exec (.tstamp o) s = .next ((s.pushed (sRef o.d) (some (wide s.hub.tstamp)) none).retired 1) ∧
    exec (.cntr o) s = .next ((s.pushed (sRef o.d)
      (some (wide (Table.get (s.cell s.cur.cell).evc 0 (o.b.toNat % 16)))) none).retired 1) ∧
    (s.outwardOk = true → bits (s.ctx s.cur).rngpos 0 24 < 0xFFFFFF →
      let c := s.ctx s.cur
      exec (.rngd o) s = .next (((s.changed fun c =>
        { c with rngpos := setBits c.rngpos 0 24 (bits c.rngpos 0 24 + 1) }).pushed (sRef o.d)
          (some (wide (rng c.rngkey c.rngstream c.rngpos))) none).retired 1))

/-- 20 R376 to R378, 21 R398, 23 R435 to R437: the words of S that act at the hub, in a context whose partition owns the join. -/
def Obligations.HubWords : Prop :=
  (∀ (nb : Bool) (o : SX) (s : State) (r : Word × Word),
    let q := sRef o.d
    (s.ctx s.cur).twoPlaces q = true → s.outwardOk = true →
    ((s.ctx s.cur).lqGot = some r →
      exec (if nb then .lqpopNb o else .lqpop o) s = .next ((s.popsRecord q r).retired 1)) ∧
    ((s.ctx s.cur).lqGot = none → s.ownsJoin (s.partOf s.cur) = true → s.hub.join.learner ≠ [] →
      s.lqBehind s.cur = false → s.hubTakes 5 = true →
      exec (if nb then .lqpopNb o else .lqpop o) s =
        .next (((s.atHub 5).takeRecord.1.popsRecord q (s.atHub 5).takeRecord.2).retired 1)) ∧
    ((s.ctx s.cur).lqGot = none → s.ownsJoin (s.partOf s.cur) = true → s.hub.join.learner = [] →
      exec (.lqpop o) s = .next (s.changed fun c => { c.noteWait .s .outside with lqWait := true }).waits)) ∧
  (∀ (o : SX) (s : State), (s.ctx s.cur).readable [(sRef o.a, o.ka)] = true → s.outwardOk = true →
    s.ownsJoin (s.partOf s.cur) = true → s.hubTakes 2 = true →
    exec (.lvset o) s = .next ((((s.took (sRef o.a) o.ka).atHub 2).modJoin fun j =>
      { j with lv := (s.frontWord (sRef o.a)).setWidth 32 }).retired 1)) ∧
  (∀ (o : SX) (s : State), (s.ctx s.cur).room (sRef o.d) = true → s.outwardOk = true →
    exec (.jstat o) s = .next ((s.pushed (sRef o.d) (some (wide (BitVec.ofNat 64
      (if s.ownsJoin (s.partOf s.cur) then s.jstat o.b.toNat else 0)))) none).retired 1)) ∧
  (∀ (o : SX) (s : State) (opening : Bool),
    let rs := [(sRef o.a, o.ka), (sRef o.b, o.kb)]
    let u := s.hubRanked.1.tookAll rs
    let v := u.atHub 2
    let r := (if opening then State.openEpisode else State.closeEpisode) v (s.partOf s.cur) (s.wordAt rs 0) (s.wordAt rs 1)
    (s.ctx s.cur).readable rs = true → s.earlierDone s.hubRanked.2 = true → (u.ctx s.cur).room (sRef o.d) = true →
    (r.1.ctx s.cur).room (sRef o.d) = true → s.outwardOk = true →
    (opening = true → (s.wordAt rs 0).extractLsb' 0 6 = 0 ∧ (s.wordAt rs 0).extractLsb' 55 9 = 0) →
    s.ownsJoin (s.partOf s.cur) = true → s.hubTakes 2 = true → r.1.cur = s.cur → r.1.curSt = s.curSt →
    exec (if opening then .epopen o else .epclose o) s = .next (((r.1.pushed (sRef o.d) (some (wide r.2)) none).changed fun c =>
      { c with hubRank := none }).retired 1)) ∧
  (∀ (o : SX) (s t : State) (off : Option Nat) (ps : List Part), (s.ctx s.cur).rwpost = none → s.curSt = .s →
    let a := s.frontWord (sRef o.a)
    let u := t.hubRanked.1
    (s.ctx s.cur).readable [(sRef o.a, o.ka)] = true → s.outwardOk = true → alignedIf true a 32 = true →
    s.dwordsAt a [0, 8, 16, 24] = some (off, ps, t) →
    (t.earlierDone t.hubRanked.2 = false → exec (.rwpost o) s = .next (u.noted .waiting)) ∧
    (t.earlierDone t.hubRanked.2 = true → (off = none ∨ u.recordRoom (ssRange off 32 true) = true) →
      exec (.rwpost o) s = .next ((u.asksMessage a off ps).noted .waiting))) ∧
  (∀ (o : SX) (s : State) (r : InitRead), (s.ctx s.cur).rwpost = some r → r.full = true →
    let a := s.frontWord (sRef o.a)
    let l := r.bytes 0 32
    let u := s.took (sRef o.a) o.ka
    let done := fun (t : State) => (t.changed fun c => { c with rwpost := none, hubRank := none }).retired 1
    (s.ctx s.cur).readable [(sRef o.a, o.ka)] = true → alignedIf true a 32 = true → (∀ b ∈ l, b.2 = false) →
    (s.ownsJoin (s.partOf s.cur) = false → exec (.rwpost o) s = .next (done (u.jcount 12 1))) ∧
    (s.ownsJoin (s.partOf s.cur) = true → s.rewardsFull = false →
      s.hub.join.lastPost.all (fun k => decide (k < ctxKey s.cur)) = true →
      exec (.rwpost o) s = .next (done (u.modJoin fun j =>
        { j with rewards := j.rewards ++ [(s.hub.time, postMessage l)], lastPost := some (ctxKey s.cur) })))) ∧
  (∀ (o : SX) (s : State) (n : NodeRef), s.outwardOk = true →
    let slot := o.b.toNat % 8
    let u := { s with nextId := s.nextId + 1 }
    u.launcher s.cur = some n → u.nlaunchIgnored n slot = false →
    exec (.nlaunch o) s = .next (((u.modNode n fun k =>
      { k with released := BitVec.ofNat 8 (putBits k.released.toNat slot 1 1) }).modHub fun h =>
        { h with early := h.early ++ [{ node := n, slot := slot, c := s.cur, rank := s.nextId }] }).retired 1))

/-! ## The vector stream: arithmetic -/

/-- 09 R194, R195, R197 to R199: an integer word reads its operands in field order, and its result, zero in masked-off elements, is
in flight for 2 cycles. The word of a shift by the width of its elements or more is illegal. -/
def Obligations.VectorInteger : Prop :=
  (∀ (i : Instr) (o : VR) (f : Nat → Nat → Nat → Nat) (s : State) (m : Mask), VIntRow i o f → s.runs o.gm o.ab (vRef o.d) m →
    let l := s.vValues o.gm o.ab
    exec i s = .next (((s.vRead o.gm o.ab).pushed (vRef o.d)
      (some (lanesVec m o.et fun k => f (etBits o.et) (elemAt o.et l 0 k) (elemAt o.et l 1 k))) (some 2)).retired 1)) ∧
  (∀ (i : Instr) (o : VR) (f : Nat → Nat → Nat) (s : State) (m : Mask), VInt1Row i o f → s.runs o.gm o.one (vRef o.d) m →
    let l := s.vValues o.gm o.one
    exec i s = .next (((s.vRead o.gm o.one).pushed (vRef o.d)
      (some (lanesVec m o.et fun k => f (etBits o.et) (elemAt o.et l 0 k))) (some 2)).retired 1)) ∧
  (∀ (i : Instr) (o : VR) (f : Nat → Nat → Nat → Nat → Nat) (s : State) (m : Mask), VInt3Row i o f →
    s.runs o.gm o.abd (vRef o.d) m →
    let l := s.vValues o.gm o.abd
    exec i s = .next (((s.vRead o.gm o.abd).pushed (vRef o.d)
      (some (lanesVec m o.et fun k => f (etBits o.et) (elemAt o.et l 0 k) (elemAt o.et l 1 k) (elemAt o.et l 2 k)))
      (some 2)).retired 1)) ∧
  (∀ (i : Instr) (o : VI) (f : Nat → Nat → Nat) (s : State) (m : Mask), VImmRow i o f →
    let rs := [(vRef o.a, o.ka)]
    s.runs o.gm rs (vRef o.d) m →
    exec i s = .next (((s.vRead o.gm rs).pushed (vRef o.d)
      (some (lanesVec m o.et fun k => f (etBits o.et) (elemAt o.et (s.vValues o.gm rs) 0 k))) (some 2)).retired 1)) ∧
  (∀ (i : Instr) (o : VI) (w : BitVec 32), VShiftRow i o → etBits o.et ≤ o.count → encode .v i = some [w] →
    decodeWords .v w 0 = .illegalWord w)

/-- 09 R197: a saturating word clamps each exact result, and sets SAT where a clamp changes an unmasked element. -/
def Obligations.VectorSaturates : Prop :=
  ∀ (i : Instr) (o : VR) (f : Nat → Nat → Nat → Int) (lo hi : Nat → Int) (s : State) (m : Mask), VSatRow i o f lo hi →
    s.runs o.gm o.ab (vRef o.d) m →
    let l := s.vValues o.gm o.ab
    let w := etBits o.et
    let x := fun k => f w (elemAt o.et l 0 k) (elemAt o.et l 1 k)
    exec i s = .next ((((s.vRead o.gm o.ab).pushed (vRef o.d)
      (some (lanesVec m o.et fun k => natOf w (clampBetween (lo w) (hi w) (x k)))) (some 2)).flagged
      { FpFlags.none with sat := anyLane m o.et fun k => decide (x k < lo w) || decide (hi w < x k) }).retired 1)

/-- 09 R200: a compare writes the mask that D names after 2 cycles; FLT and FLE set NV at a NaN, FEQ at a signalling one. -/
def Obligations.VectorCompares : Prop :=
  (∀ (i : Instr) (o : VR) (f : Nat → Nat → Nat → Bool) (s : State) (m : Mask), VCmpRow i o f → s.runs o.gm o.ab .zero m →
    let l := s.vValues o.gm o.ab
    exec i s = .next (((s.vRead o.gm o.ab).setsMask (maskNo o.d)
      (relMask m o.et fun k => f (etBits o.et) (elemAt o.et l 0 k) (elemAt o.et l 1 k))).retired 1)) ∧
  (∀ (i : Instr) (o : VR) (f nv : FpNum → FpNum → Bool) (s : State) (m : Mask), VFcmpRow i o f nv → s.runs o.gm o.ab .zero m →
    let l := s.vValues o.gm o.ab
    let x := fun n k => (fmtOfEt o.et).value (elemAt o.et l n k)
    exec i s = .next ((((s.vRead o.gm o.ab).setsMask (maskNo o.d) (relMask m o.et fun k => f (x 0 k) (x 1 k))).flagged
      { FpFlags.none with nv := anyLane m o.et fun k => nv (x 0 k) (x 1 k) }).retired 1))

/-- 09 R201 to R203: a float word pushes its rounded results after 4 cycles, a special function after 8, and sets the flags of the
unmasked elements. -/
def Obligations.VectorFloat : Prop :=
  (∀ (i : Instr) (o : VR) (f : Fmt → Nat → Nat → Nat → Coded) (s : State) (m : Mask), VFpRow i o f →
    s.runs o.gm o.ab (vRef o.d) m →
    let l := s.vValues o.gm o.ab
    exec i s = .next (((s.vRead o.gm o.ab).fpResult m o.et (vRef o.d) 4
      fun k => f (fmtOfEt o.et) (arithRm (s.ctx s.cur).rm) (elemAt o.et l 0 k) (elemAt o.et l 1 k)).retired 1)) ∧
  (∀ (i : Instr) (o : VR) (lat : Nat) (f : Fmt → Nat → Nat → Coded) (s : State) (m : Mask), VFp1Row i o lat f →
    s.runs o.gm o.one (vRef o.d) m →
    let l := s.vValues o.gm o.one
    exec i s = .next (((s.vRead o.gm o.one).fpResult m o.et (vRef o.d) lat
      fun k => f (fmtOfEt o.et) (arithRm (s.ctx s.cur).rm) (elemAt o.et l 0 k)).retired 1)) ∧
  (∀ (o : VR) (s : State) (m : Mask), s.runs o.gm o.abd (vRef o.d) m →
    let l := s.vValues o.gm o.abd
    exec (.fma o) s = .next (((s.vRead o.gm o.abd).fpResult m o.et (vRef o.d) 4 fun k =>
      (fmtOfEt o.et).fma (arithRm (s.ctx s.cur).rm) (elemAt o.et l 0 k) (elemAt o.et l 1 k) (elemAt o.et l 2 k)).retired 1))

/-- 05 R113, R115, R116: CVT converts 64 elements; a stochastic one takes 16 draws, but one to a block format takes none. -/
def Obligations.VectorConverts : Prop :=
  ∀ (o : VR) (code : BitVec 5) (s : State) (m : Mask), s.runs o.gm o.one (vRef o.d) m →
    let c := s.ctx s.cur
    let a := (s.vValues o.gm o.one).getD 0 0
    let t := s.vRead o.gm o.one
    ((c.rm ≠ 2 ∨ code = 8#5 ∨ code = 10#5) →
      let r := cvtVec code.toNat c.rm (fun _ => 0) m a
      exec (.cvt o code) s = .next ((((t.pushed (vRef o.d) (some r.1) (some 3)).flagged r.2).countedEvent 8).retired 1)) ∧
    (c.rm = 2 → code ≠ 8#5 → code ≠ 10#5 → bits c.rngpos 0 24 + 16 ≤ 0xFFFFFF → (s.begun .v o.gm).outwardOk = true →
      let r := cvtVec code.toNat 2 (drawOf c c.rngpos) m a
      exec (.cvt o code) s = .next (((((t.changed fun c =>
        { c with rngpos := setBits c.rngpos 0 24 (bits c.rngpos 0 24 + 16) }).pushed (vRef o.d) (some r.1) (some 3)).flagged
          r.2).countedEvent 8).retired 1))

/-- 09 R204 to R206: a reduction pushes one value in lane 0 after 8 cycles, and a scan its running sums. -/
def Obligations.VectorReductions : Prop :=
  (∀ (i : Instr) (o : VR) (f : Mask → Vec → Nat) (s : State) (m : Mask), VRedRow i o f → s.runs o.gm o.one (vRef o.d) m →
    exec i s = .next ((((s.vRead o.gm o.one).pushed (vRef o.d)
      (some (lane0 (f m ((s.vValues o.gm o.one).getD 0 0)))) (some 8)).countedEvent 8).retired 1)) ∧
  (∀ (o : VR) (s : State) (m : Mask), s.runs o.gm o.one (vRef o.d) m →
    let a := (s.vValues o.gm o.one).getD 0 0
    let n := etBytes o.et
    let rm := arithRm (s.ctx s.cur).rm
    let t := s.vRead o.gm o.one
    exec (.vscan o) s = .next (((t.pushed (vRef o.d) (some (lanesVec m o.et fun k =>
      ((maskedElems m o.et a 0).take (k + 1)).foldl (· + ·) 0)) (some 8)).countedEvent 8).retired 1) ∧
    (let l := floatsOr (fmtOfEt o.et) m n a
     let bad := l.any FpNum.isNan || l.any (fun x => x.isInf && x.isNeg) && l.any fun x => x.isInf && !x.isNeg
     let r := treeSum rm (laneValues rm n l)
     exec (.rfadd o) s = .next ((((t.pushed (vRef o.d) (some (lane0 (if bad then fp32.nan else r.1))) (some 8)).flagged
       (if bad then r.2.or fpNv else r.2)).countedEvent 8).retired 1)) ∧
    (let y := scanRounds rm 8 1 ((floatsOr (fmtOfEt o.et) m n a).map fun x => fp32.encode 0 0 .ieee false x)
     exec (.vfscan o) s = .next (((s.vRead o.gm o.one).fpResult m o.et (vRef o.d) 8 fun k =>
       let z := y.getD k (0, FpFlags.none)
       if n = 4 then z else
         (((fmtOfEt o.et).encode rm 0 .ieee false (fp32.value z.1)).1,
           z.2.or ((fmtOfEt o.et).encode rm 0 .ieee false (fp32.value z.1)).2)).retired 1)))

/-! ## The vector stream: permutes, lanes, masks, a queues -/

/-- 09 R207 to R209: the permutes and the lane moves push their result after 3 cycles. -/
def Obligations.VectorPermutes : Prop :=
  (∀ (o : VR) (s : State) (m : Mask), s.runs o.gm o.ab (vRef o.d) m →
    let l := s.vValues o.gm o.ab
    let n := 256 / etBytes o.et
    exec (.vperm o) s = .next (((s.vRead o.gm o.ab).pushed (vRef o.d)
      (some (lanesVec m o.et fun k => elemAt o.et l 0 (elemAt o.et l 1 k % n))) (some 3)).retired 1) ∧
    (s.curFwd = none → exec (.vsel o) s = .next (((s.vRead o.gm o.ab).pushed (vRef o.d)
      (some (vecOf (etBytes o.et) fun k =>
        if m.getLsbD (etBytes o.et * k) then elemAt o.et l 0 k else elemAt o.et l 1 k)) (some 3)).retired 1))) ∧
  (∀ (i : Instr) (o : VR) (f : Vec → Nat → Nat → Nat) (s : State) (m : Mask), VPermRow i o f →
    let rs := [(vRef o.a, o.ka), (aRef .v o.b, o.kb)]
    s.runs o.gm rs (vRef o.d) m →
    let l := s.vValues o.gm rs
    exec i s = .next (((s.vRead o.gm rs).pushed (vRef o.d)
      (some (lanesVec m o.et fun k => f (l.getD 0 0) ((l.getD 1 0).setWidth 64).toNat k)) (some 3)).retired 1)) ∧
  (∀ (i : Instr) (o : VR) (f : Mask → Vec → Nat → Nat) (s : State) (m : Mask), VPackRow i o f →
    s.runs o.gm o.one (vRef o.d) m → s.maskKnown (maskNo o.b) = true →
    exec i s = .next (((s.vRead o.gm o.one).pushed (vRef o.d)
      (some (lanesVec m o.et fun k => f (s.maskAt o.b) ((s.vValues o.gm o.one).getD 0 0) k)) (some 3)).retired 1)) ∧
  (∀ (o : VR) (s : State) (m : Mask), (s.begun .v o.gm).outwardOk = true →
    let rs := [(vRef o.a, o.ka), (.chan (maskNo o.b), o.kb)]
    s.runs o.gm rs (vRef o.d) m →
    let l := s.vValues o.gm rs
    exec (.vins o) s = .next (((s.vRead o.gm rs).pushed (vRef o.d)
      (some (lanesVec m o.et fun k => if k = 0 then elemAt o.et l 1 0 else elemAt o.et l 0 (k - 1))) (some 3)).retired 1)) ∧
  (∀ (o : VR) (s : State) (m : Mask), (s.begun .v o.gm).outwardOk = true →
    let rs := [(vRef o.a, o.ka), (aRef .v o.b, o.kb)]
    s.runs o.gm rs (.chan (maskNo o.d)) m →
    let l := s.vValues o.gm rs
    exec (.vext o) s = .next (((s.vRead o.gm rs).pushed (.chan (maskNo o.d)) (some (BitVec.ofNat 2048
      (elemAt o.et l 0 (((l.getD 1 0).setWidth 64).toNat % (256 / etBytes o.et))))) (some 3)).retired 1)) ∧
  (∀ (o : VR) (s : State) (m : Mask),
    let rs := [(aRef .v o.a, o.ka)]
    s.runs o.gm rs (vRef o.d) m →
    exec (.vbcst o) s = .next (((s.vRead o.gm rs).pushed (vRef o.d)
      (some (lanesVec m o.et fun _ => (((s.vValues o.gm rs).getD 0 0).setWidth 64).toNat)) (some 3)).retired 1))

/-- 09 R210, R216: the mask words take masks and give masks under GM; MPOP counts into a V a queue, and MFROMV and MTOV cross over.
The AOP words of V, M and X compute on the a queues of their own stream, and reach the channels. -/
def Obligations.MaskAndAddressWords : Prop :=
  (∀ (i : Instr) (o : VR) (f : Mask → Mask → Mask) (s : State) (m : Mask), MaskRow i o f → s.lanes o.gm = some m →
    s.maskKnown (maskNo o.a) = true → s.maskKnown (maskNo o.b) = true →
    exec i s = .next (((s.begun .v o.gm).setsMask (maskNo o.d) (f (s.maskAt o.a) (s.maskAt o.b) &&& m)).retired 1)) ∧
  (∀ (o : VR) (s : State) (m : Mask), s.runs o.gm [] (aRef .v o.d) m → s.maskKnown (maskNo o.a) = true →
    exec (.mpop o) s = .next (((s.begun .v o.gm).pushed (aRef .v o.d)
      (some (BitVec.ofNat 2048 ((List.range 256).countP fun k => (s.maskAt o.a &&& m).getLsbD k))) (some 2)).retired 1)) ∧
  (∀ (o : VR) (s : State) (m : Mask), s.runs o.gm o.one .zero m →
    exec (.mfromv o) s = .next (((s.vRead o.gm o.one).setsMask (maskNo o.d)
      (maskOfBits (fun k => elem ((s.vValues o.gm o.one).getD 0 0) 1 k != 0) &&& m)).retired 1)) ∧
  (∀ (o : VR) (s : State) (m : Mask), s.runs o.gm [] (vRef o.d) m → s.maskKnown (maskNo o.a) = true →
    exec (.mtov o) s = .next (((s.begun .v o.gm).pushed (vRef o.d)
      (some (vecOf 1 fun k => if (s.maskAt o.a &&& m).getLsbD k then 0xFF else 0)) (some 2)).retired 1)) ∧
  (∀ (i : Instr) (rs : List (QRef × Bool)) (q : QRef) (f : Word → Word → Word) (s : State), AopRow s.curSt i rs q f →
     (s.ctx s.cur).readable rs = true → ((s.tookAll rs).ctx s.cur).room q = true →
     s.queuesOk (rs.map (·.1) ++ [q]) = true →
     exec i s = .next (((s.tookAll rs).pushed q (some (wide (f (s.wordAt rs 0) (s.wordAt rs 1)))) (some 1)).retired 1))


/-! ## The vector stream: memory, windows, the coder -/

/-- 09 R211 to R214: VLD reads 256 bytes, VGATH the elements that its index vector names; the operation is recorded, and its result
is on its way. That it reads in the step of its issue under TRAP is the model's reading (log 13, DEDUCED). -/
def Obligations.VectorLoads : Prop :=
  ∀ (o : VM) (s t : State) (m : Mask) (ps : List Part) (gather : Bool),
    let sp := vSpace o.sp
    let rs := if gather then [(aRef .v o.a, o.ka), (vRef o.d, o.kd)] else [(aRef .v o.a, o.ka)]
    let s1 := s.vRead o.gm rs
    let ad := vAt o ((s.vValues o.gm rs).getD 0 0)
    let runs := if gather then elemRuns m o.et ad ((s.vValues o.gm rs).getD 1 0) else [(0, ad, 256)]
    let u := s1.pushed (vRef o.d) none none
    s.runs o.gm rs (vRef o.d) m → u.mayName sp = true → u.fits sp (etBytes o.et) runs = true →
    u.reached sp .read runs = some (ps, t) → u.allTranslate sp .read runs = true → t.mayLoad sp runs ps = true →
    exec (if gather then .vgath o else .vld o) s =
      .next ((t.loads sp runs (byteMask m (etBytes o.et)) (resultToken s1 (vRef o.d)) ps).retired 1)

/-- 09 R211 to R213: VST, VSTB and VSCAT read their address, then D, and record a store of the unmasked bytes. -/
def Obligations.VectorStores : Prop :=
  (∀ (o : VM) (s t : State) (m : Mask) (ps : List Part) (bytes : Bool),
    let sp := vSpace o.sp
    let rs := [(aRef .v o.a, o.ka), (vRef o.d, o.kd)]
    let s1 := s.vRead o.gm rs
    let runs := [(0, vAt o ((s.vValues o.gm rs).getD 0 0), 256)]
    s.runs o.gm rs .zero m → s1.mayName sp = true → s1.fits sp (if bytes then 1 else etBytes o.et) runs = true →
    s1.reached sp .write runs = some (ps, t) → s1.allTranslate sp .write runs = true → t.maySave sp runs = true →
    exec (if bytes then .vstb o else .vst o) s =
      .next ((t.saves sp runs ((s.vValues o.gm rs).getD 1 0) (byteMask m (etBytes o.et)) ps).retired 1)) ∧
  (∀ (o : VM) (s t : State) (m : Mask) (ps : List Part),
    let sp := vSpace o.sp
    let rs := [(aRef .v o.a, o.ka), (vRef o.d, false), (vRef o.d, false)]
    let s1 := s.vRead o.gm rs
    let l := s.vValues o.gm rs
    let runs := elemRuns m o.et (vAt o (l.getD 0 0)) (l.getD 1 0)
    s.runs o.gm rs .zero m → s1.mayName sp = true → s1.fits sp (etBytes o.et) runs = true →
    s1.reached sp .write runs = some (ps, t) → s1.allTranslate sp .write runs = true → t.maySave sp runs = true →
    exec (.vscat o) s = .next ((t.saves sp runs (l.getD 2 0) (byteMask m (etBytes o.et)) ps).retired 1))

/-- 09 R217, R218, 15 R292: VWMAC and VWPOOL check their descriptor and record their operation; the addend of VWMAC comes from D, or
from the CB row that an a queue names. The output lanes and the start of VWPOOL (log 25), the read in the issuing step under TRAP (log 13)
and the EMPTY bit of the descriptor that is written back (log 76) are the model's readings (DEDUCED). -/
def Obligations.WindowWords : Prop :=
  (∀ (o : VW) (s : State) (m : Mask) (cb : Bool), cb = o.mode.getLsbD 6 →
    let n := o.wd.toNat
    let g := (o.mode.extractLsb' 0 6).toNat
    let q := if cb then aRef .v o.d else vRef o.d
    let rs := [(vRef o.a, o.ka), (q, false)]
    let l := s.vValues o.gm rs
    let s1 := s.vRead o.gm rs
    let row := ((l.getD 1 0).setWidth 64).toNat
    let u := if cb then s1 else s1.pushed (vRef o.d) none none
    let d : Wd := Table.get (s.ctx s.cur).wd 0 n
    let rows : List Seg := if cb then [{ space := .cb, addr := row, len := 256 }] else []
    s.runs o.gm rs (if cb then .zero else vRef o.d) m → s.windowFree n = true → s.mayName .ab = true →
    (cb = true → row % 256 = 0 ∧ s.inside .cb row 256 = true) →
    d.fails (s.limit s.cur .ab) [1] (winBytes o.et) (some g) = none →
    u.vClean .ab (fun _ => true) [] (if d.empty then [] else tapSegs o.et g [d.tapAt d.pix (d.tap / d.kw) (d.tap % d.kw)] ++ rows)
      (d.seg ++ rows) rows = true →
    let v := u.readied (u.strictNow []) (d.seg ++ rows)
    v.outwardOk = true → v.recordRoom (d.seg ++ rows ++ rows) = true →
    let w := l.getD 0 0
    let acc := l.getD 1 0
    let dst := if cb then some row else none
    let rm := arithRm (s.ctx s.cur).rm
    let tok := if cb then none else resultToken s1 (vRef o.d)
    exec (.vwmac o) s = .next (((v.starts (.vwmac o.et n d g w acc dst m rm tok) (d.seg ++ rows) rows).endsAtOnce (u.strictNow []) v.nextId
      fun t r p => t.vwmacDone r p o.et n d g w acc dst m rm tok).retired 1)) ∧
  (∀ (o : VW) (s : State) (m : Mask),
    let n := o.wd.toNat
    let g := (o.mode.extractLsb' 0 6).toNat
    let s1 := s.begun .v o.gm
    let u := s1.pushed (vRef o.d) none none
    let d : Wd := Table.get (s.ctx s.cur).wd 0 n
    s.runs o.gm [] (vRef o.d) m → s.windowFree n = true → s.mayName .ab = true →
    d.fails (s.limit s.cur .ab) [2, 3, 4] (winBytes o.et) (some g) = none →
    u.vClean .ab (fun _ => true) [] (if d.empty then [] else tapSegs o.et g d.taps) d.seg [] = true →
    let v := u.readied (u.strictNow []) d.seg
    v.recordRoom d.seg = true →
    let rm := arithRm (s.ctx s.cur).rm
    let tok := resultToken s1 (vRef o.d)
    exec (.vwpool o) s = .next (((v.starts (.vwpool o.et n d g m rm tok) d.seg []).endsAtOnce (u.strictNow []) v.nextId
      fun t r p => t.vwpoolDone r p o.et n d g m rm tok).retired 1))

/-- 10 R228, R230, R233 to R235: the coding words take one step in the slot of each of their lanes. -/
def Obligations.CodingWords : Prop :=
  (∀ (o : VC) (s : State) (m : Mask),
    let rs := [(aRef .v o.x, o.kx)]
    let u := s.vRead o.gm rs
    let k := (((s.vValues o.gm rs).getD 0 0).setWidth 64).toNat
    let l := [tableLane (s.ctx s.cur) (min k 63) o.e.toNat o.fr.toNat (some k)]
    s.runs o.gm rs .zero m → u.tablesFree [o.fr.toNat] = true → u.mayCode l = true →
    exec (.rcenc o) s = .next ((u.coded l).retired 1)) ∧
  (∀ (o : VC) (s : State) (m : Mask),
    let u := s.begun .v o.gm
    let l := [tableLane (s.ctx s.cur) 0 o.e.toNat o.fr.toNat none]
    s.runs o.gm [] (aRef .v o.x) m → u.tablesFree [o.fr.toNat] = true → u.mayCode l = true →
    exec (.rcdec o) s = .next ((((u.coded l).launched (.slot o.e.toNat) (some 0) (some 8)).pushed (aRef .v o.x)
      (some (BitVec.ofNat 2048 ((u.symbols l).headD 0))) (some 8)).retired 1)) ∧
  (∀ (o : VC) (s : State) (m : Mask),
    let rs := [(vRef o.x, o.kx)]
    let u := s.vRead o.gm rs
    let tb := fun j => if o.mode.getLsbD 0 then o.fr.toNat else j
    let l := (lanesBelow m 16).map fun j => tableLane (s.ctx s.cur) j (o.e.toNat + j) (tb j)
      (some (elem ((s.vValues o.gm rs).getD 0 0) 4 j))
    s.runs o.gm rs .zero m → u.tablesFree ((lanesBelow m 16).map tb) = true → u.mayCode l = true →
    exec (.rcencv o) s = .next ((u.coded l).retired 1)) ∧
  (∀ (o : VC) (s : State) (m : Mask),
    let u := s.begun .v o.gm
    let tb := fun j => if o.mode.getLsbD 0 then o.fr.toNat else j
    let l := (lanesBelow m 16).map fun j => tableLane (s.ctx s.cur) j (o.e.toNat + j) (tb j) none
    s.runs o.gm [] (vRef o.x) m → u.tablesFree ((lanesBelow m 16).map tb) = true → u.mayCode l = true →
    exec (.rcdecv o) s = .next (((u.coded l).pushed (vRef o.x) (some (scattered (lanesBelow m 16) (u.symbols l))) none).retired 1)) ∧
  (∀ (o : VC) (s : State) (m : Mask),
    let rs := [(vRef o.x, o.kx)]
    let u := s.vRead o.gm rs
    let js := lanesBelow m (laneCount o)
    let l := js.map (binLane o ((s.vValues o.gm rs).getD 0 0) none)
    s.runs o.gm rs (vRef o.x) m → u.mayCode l = true →
    exec (.rcbinv o) s = .next (((u.coded l).pushed (vRef o.x) (some (scattered js (u.symbols l))) none).retired 1)) ∧
  (∀ (o : VC) (s : State) (m : Mask),
    let rs := [(vRef o.x, o.kx), (vRef o.x, false)]
    let u := s.vRead o.gm rs
    let v := s.vValues o.gm rs
    let l := (lanesBelow m (laneCount o)).map fun j => binLane o (v.getD 0 0) (some (elem (v.getD 1 0) 4 j % 2)) j
    s.runs o.gm rs .zero m → u.mayCode l = true → exec (.rcbinvEnc o) s = .next ((u.coded l).retired 1))

/-- 10 R220, R224 to R226, R229, R231, R232, R236 to R238: PQUANT makes a table, PLDF records the load of one, PSTF stores one; RCINIT
binds a slot once its descriptor has come; RCFLUSH ends an encoder's stream, RCMARK and RCBACK save and restore a slot, RCSTAT pushes
its state. PQUANT of -0 (log 74) and the read of PLDF in the issuing step under TRAP (log 13) are the model's readings (DEDUCED). -/
def Obligations.CoderTableAndSlotWords : Prop :=
  (∀ (o : VC) (s : State) (m : Mask),
    let rs := [(vRef o.x, o.kx)]
    let u := s.vRead o.gm rs
    let v := (s.vValues o.gm rs).getD 0 0
    let act := lanesBelow m (laneCount o)
    let p := fun k => (quantValue (elem v 4 k)).getD 0
    let bad := act.isEmpty || act.any (fun k => (quantValue (elem v 4 k)).isNone) || act.all fun k => p k == 0
    s.runs o.gm rs .zero m → u.tablesFree [o.fr.toNat] = true → u.outwardOk = true →
    exec (.pquant o) s = .next (((if bad then u.changed fun c => { c with rcsr := c.rcsr ||| 1#64 } else u).changed fun c =>
      { c with tables := Table.set c.tables o.fr.toNat (if act.isEmpty then { c.table o.fr.toNat with tv := false }
          else { f := (quantize (o.mode.getLsbD 6) act p).map (BitVec.ofNat 13), tv := true }) }).retired 1)) ∧
  (∀ (o : VC) (s t : State) (m : Mask) (ps : List Part),
    let rs := [(aRef .v o.x, o.kx)]
    let u := s.vRead o.gm rs
    let sp := vSpace (o.mode.extractLsb' 0 2)
    let runs := [(0, ((s.vValues o.gm rs).getD 0 0).setWidth 64, 64)]
    s.runs o.gm rs .zero m → u.tablesFree [o.fr.toNat] = true → u.mayName sp = true → u.fits sp 64 runs = true →
    (u.reached sp .read runs = some (ps, t) → u.allTranslate sp .read runs = true → t.mayLoad sp runs ps = true →
      let v := t.readied (t.strictNow ps) (spanSeg sp runs)
      let a := (((s.vValues o.gm rs).getD 0 0).setWidth 64).toNat
      v.outwardOk = true →
      exec (.pldf o) s = .next ((((v.recorded (.tableLoad o.fr.toNat sp a) (spanSeg sp runs) [] ps).fetches v.nextId runs ps).endsAtOnce
        (t.strictNow ps) v.nextId fun y c p => y.tableDone c p o.fr.toNat sp a).retired 1)) ∧
    (u.reached sp .write runs = some (ps, t) → u.allTranslate sp .write runs = true →
      t.recordRoom (spanSeg sp runs) = true → u.outwardOk = true →
      exec (.pstf o) s = .next ((t.saves sp runs (vecOfList 2 ((s.ctx s.cur).table o.fr.toNat).freqs) (BitVec.allOnes 256)
        ps).retired 1))) ∧
  (∀ (o : VC) (s : State) (r : InitRead), (s.lanes o.gm).isSome = true →
    let q := aRef .v o.x
    let u := (s.begun .v o.gm).took q o.kx
    let a := (s.front q).setWidth 64
    let d := r.desc
    let x := d.slot a
    let offs := x.offsets 4
    let binds := fun (y : SlotState) => fun (c : Ctx) =>
      { c with initRead := none, slots := Table.set c.slots o.e.toNat { c.slot o.e.toNat with now := y, marked := false } }
    (s.ctx s.cur).readable [(q, o.kx)] = true → alignedIf true a 32 = true → (s.ctx s.cur).slotBusy o.e.toNat = false →
    s.emissionOut s.cur o.e.toNat = false → ((s.ctx s.cur).slot o.e.toNat).emits = false → (s.ctx s.cur).initRead = some r →
    r.full = true → badUnits a.toNat (r.bytes 0 32) = [] → d.v / 2 ^ 130 = 0 → bitsN d.v 55 9 = 0 →
    (d.decodes = false → bitsN d.v 96 32 ≤ bitsN d.v 64 32 →
      exec (.rcinit o) s = .next ((u.changed (binds x.encodeInit)).retired 1)) ∧
    (d.decodes = true → (r.code = true ∨ offs = []) → (x.endtrap && x.overruns 4) = false →
      badUnits (x.va x.pos.toNat).toNat (r.bytes 32 offs.length) = [] →
      let y := { ({ x with range := 0 }).take (fun k => (zeroed (r.bytes 32 offs.length)).getD (k - x.pos.toNat) 0) 4 with
        range := 0xFFFFFFFF#32 }
      let v := if x.overruns 4 then u.changed fun c => { c with rcsr := c.rcsr ||| 4#64 } else u
      exec (.rcinit o) s = .next ((v.changed (binds y)).retired 1))) ∧
  (∀ (o : VC) (s : State), (s.lanes o.gm).isSome = true → (s.ctx s.cur).slotBusy o.e.toNat = false →
    (s.begun .v o.gm).outwardOk = true →
    let n := o.e.toNat
    let u := s.begun .v o.gm
    let z := (s.ctx s.cur).slot n
    exec (.rcmark o) s = .next ((u.changed fun c =>
      { c with slots := Table.set c.slots n { z with saved := z.now, marked := true } }).retired 1) ∧
    (z.marked = true → exec (.rcback o) s = .next ((u.changed fun c => c.setSlot n z.saved).retired 1)) ∧
    ((s.ctx s.cur).room (.chan (maskNo o.x)) = true →
      exec (.rcstat o) s = .next ((u.pushed (.chan (maskNo o.x)) (some (wide z.stat)) none).retired 1))) ∧
  (∀ (o : VC) (s : State) (ps qs : List Part), (s.lanes o.gm).isSome = true → (s.ctx s.cur).slotBusy o.e.toNat = false →
    (s.begun .v o.gm).outwardOk = true →
    let n := o.e.toNat
    let u := s.begun .v o.gm
    let x := ((s.ctx s.cur).slot n).now
    let f : EncStep := if x.decodes then { s := x, out := [], past := false } else x.flush
    let da : Word := x.daddr.setWidth 64
    let w := { (u.fillFor s.cur s.curSt ps) with nextId := s.nextId + 1 }
    x.bound = true → f.past = false → (x.decodes = false → x.pos.toNat + f.out.length ≤ x.capacity.toNat) →
    u.vmParts s.cur .v .write 0 (piecesOf (x.va x.pos.toNat).toNat f.out.length) = .ok qs →
    u.vmParts s.cur s.curSt .write 0 (piecesOf (da + 12).toNat 4) = .ok ps →
    let y := if x.decodes then x else (f.s.emit f.out s.nextId (s.ctx s.cur).sv.pc).encodeInit
    (u.fillFor s.cur s.curSt ps).recordRoom [] = true →
    exec (.rcflush o) s = .next (((w.changed fun c => c.setSlot n y).recorded (.flush n da y.pos) [] [] ps).retired 1))


/-! ## The matrix stream -/

/-- 15 R281, R282, R285 to R288: the words that set formats and fill planes. -/
def Obligations.MatrixFormatsAndPlanes : Prop :=
  (∀ (o : MA) (s : State), s.guardOpen o.g = true → s.mayName .ab = true →
    let f := o.mode.extractLsb' 0 4
    exec (.mfmt o) s = .next (((s.entered o.g).changed fun c => { c with cf := f, issCf := f }).retired 1) ∧
    (let t := (s.ctx s.cur).issAct.toNat
     (t ∉ [0, 5, 6] → f.toNat ∉ [5, 6] → fmtWidth t = fmtWidth f.toNat →
       exec (.mfmtT o) s = .next (((s.entered o.g).changed fun c =>
         { c.retag f with cf := f, issCf := f, issAct := f }).retired 1)) ∧
     ((t ∈ [0, 5, 6] ∨ f.toNat ∈ [5, 6] ∨ fmtWidth t ≠ fmtWidth f.toNat) →
       exec (.mfmtT o) s = .next (s.trapped .fmtmix (BitVec.ofNat 64 (16 * (s.ctx s.cur).issCf.toNat + t))))) ∧
    ((s.entered o.g).outwardOk = true → (s.entered o.g).recordRoom [] = true →
      let c := s.ctx s.cur
      let sh := if (s.cell s.cur.cell).pair then c.issSh else c.issAct
      exec (.mswap o) s = .next ((((s.entered o.g).starts (.mswap c.issSh sh) [] []).changed fun x =>
        { x with issAct := c.issSh, issSh := sh, ldSince := false }).retired 1))) ∧
  (∀ (o : MA) (s : State),
    let rs := [(aRef .m o.a, o.k1), (aRef .m o.b, o.k2)]
    let u := s.maRead o.g rs
    let a := s.maArg o.g rs 0
    let b := s.maArg o.g rs 1
    let f := (s.ctx s.cur).issCf.toNat
    let n := b.toNat % 2048
    let side := sidePlane f
    s.maReady o.g rs = true → s.mayName .ab = true → u.outwardOk = true →
    (f ≠ 0 → a.toNat % 256 = 0 → a.toNat + 49152 ≤ s.limit s.cur .wb →
      (side ≠ 0 → b.toNat + side ≤ s.limit s.cur .wb) → (f = 6 → b.toNat % 4 = 0) →
      u.recordRoom (seg .wb a.toNat 49152 ++ seg .wb b.toNat side) = true →
      exec (.mldw o) s = .next (((u.starts (.mldw f a.toNat b.toNat) (seg .wb a.toNat 49152 ++ seg .wb b.toNat side) []).changed
        fun c => { c with issSh := c.issCf, issAct := if (s.cell s.cur.cell).pair then 0 else c.issAct, ldSince := true }).retired 1)) ∧
    (a.toNat % 1024 = 0 → a.toNat + 1024 * n ≤ s.limit s.cur .cb → u.recordRoom (seg .cb a.toNat (1024 * n)) = true →
      exec (.mzero o) s = .next ((u.starts .mzero [] (seg .cb a.toNat (1024 * n))).retired 1)))

/-- 15 R284, R289, R290, R292, R296: MSTR and MWIN record one operation over their rows, MSTR with N = 0 none; MWIN takes its cursor at issue and moves it
on. -/
def Obligations.MatrixStreams : Prop :=
  (∀ (o : MA) (s : State),
    let rs := maReads .m o
    let u := s.maRead o.g rs
    let a := (s.maArg o.g rs 0).toNat
    let c := (s.maArg o.g rs 1).toNat
    let p := s.maArg o.g rs 2
    let x := s.ctx s.cur
    let f := x.issCf.toNat
    let n := (p.extractLsb' 0 11).toNat
    let pitch := (p.extractLsb' 12 20).toNat
    let side := (p.extractLsb' 32 21).toNat
    let acc := o.mode.getLsbD 0
    let rows := seg .cb c (1024 * n)
    let ab := if n = 0 then [] else seg .ab a ((n - 1) * pitch + 192) ++ seg .ab side (n * sidePer f)
    let reads := ab ++ if acc then rows else []
    s.maReady o.g rs = true → s.mayName .ab = true → x.issCf = x.issAct → f ≠ 0 → a % 64 = 0 → pitch % 64 = 0 →
    c % 1024 = 0 → (f = 6 → side % 4 = 0) →
    (0 < n → a + ((n - 1) * pitch + 192) ≤ s.limit s.cur .ab ∧ c + 1024 * n ≤ s.limit s.cur .cb ∧
      (sidePer f ≠ 0 → side + n * sidePer f ≤ s.limit s.cur .ab)) →
    u.outwardOk = true → u.recordRoom (reads ++ rows) = true →
    exec (.mstr o) s = .next ((if n = 0 then u else u.starts (.mstr acc x.accOvf f a c n pitch side (klenOf (p.extractLsb' 53 8).toNat))
      reads rows).retired 1)) ∧
  (∀ (o : MA) (s : State),
    let rs := maReads .m o
    let u := s.maRead o.g rs
    let c := (s.maArg o.g rs 0).toNat
    let sl := s.maArg o.g rs 1
    let n := ((s.maArg o.g rs 2).extractLsb' 0 11).toNat
    let x := s.ctx s.cur
    let f := x.issCf.toNat
    let k := (o.mode.extractLsb' 1 2).toNat
    let d : Wd := Table.get x.wd 0 k
    let acc := o.mode.getLsbD 0
    let rows := seg .cb c (1024 * n)
    let reads := d.seg ++ if acc then rows else []
    s.maReady o.g rs = true → s.windowFree k = true → s.mayName .ab = true → x.issCf = x.issAct → f ∉ [0, 5, 6] →
    d.fails (s.limit s.cur .ab) [0] (fmtWidth f) none = none → c % 1024 = 0 → c + 1024 * n ≤ s.limit s.cur .cb →
    u.outwardOk = true →
    (d.empty = true → exec (.mwin o) s = .next ((u.changed fun y =>
      { y with wd := Table.put y.wd 0 k (d.setEmpty true) }).retired 1)) ∧
    (d.empty = false → u.recordRoom (reads ++ rows) = true →
      exec (.mwin o) s = .next (((u.starts (.mwin acc x.accOvf f k d d.pix n c (sl.extractLsb' 0 16).toNat) reads rows).changed
        fun y => { y with wd := Table.put y.wd 0 k ((d.setEmpty false).setPix ((d.pix + n) % (d.ho * d.wo))) }).retired 1)))

/-- 15 R299 to R301: MOUT records its conversion of CB rows; MKAT runs on the shadow plane, or is skipped and counted where a load
is still to be used or the cell is paired. -/
def Obligations.MatrixOutputAndTest : Prop :=
  (∀ (o : MA) (s : State),
    let rs := maReads .m o
    let u := s.maRead o.g rs
    let c := (s.maArg o.g rs 0).toNat
    let d := s.maArg o.g rs 1
    let p := s.maArg o.g rs 2
    let f := (o.mode.extractLsb' 0 4).toNat
    let n := (p.extractLsb' 0 11).toNat
    let ab := (d.extractLsb' 0 21).toNat
    let side := (d.extractLsb' 21 21).toNat
    let pitch := (p.extractLsb' 13 19).toNat
    let pb := (p.extractLsb' 32 21).toNat
    let reads := if n = 0 then [] else seg .cb c (1024 * n) ++ seg .cb pb 3072
    let writes := if n = 0 then [] else seg .ab ab (pitch * (n - 1) + outRow f) ++ seg .ab side (n * outSide f)
    s.maReady o.g rs = true → s.mayName .ab = true → c % 1024 = 0 → ab % 64 = 0 → pitch % 64 = 0 → pb % 1024 = 0 →
    (f = 6 → side % 4 = 0) →
    (0 < n → c + 1024 * n ≤ s.limit s.cur .cb ∧ pb + 3072 ≤ s.limit s.cur .cb ∧
      ab + (pitch * (n - 1) + outRow f) ≤ s.limit s.cur .ab ∧ (outSide f ≠ 0 → side + n * outSide f ≤ s.limit s.cur .ab)) →
    u.outwardOk = true → u.recordRoom (reads ++ writes) = true →
    exec (.mout o) s = .next ((u.starts (.mout f (o.mode.extractLsb' 4 2).toNat c d.toNat p) reads writes).retired 1)) ∧
  (∀ (o : MA) (sig : BitVec 32) (s : State),
    let rs := [(aRef .m o.a, o.k1)]
    let u := s.maRead o.g rs
    s.maReady o.g rs = true → s.mayName .ab = true → u.outwardOk = true →
    (((s.cell s.cur.cell).pair || (s.ctx s.cur).ldSince) = true →
      exec (.mkat o sig) s = .next ((u.modCell s.cur.cell fun l =>
        { l with katskip := if l.katskip = BitVec.allOnes 32 then l.katskip else l.katskip + 1 }).retired 2)) ∧
    (((s.cell s.cur.cell).pair || (s.ctx s.cur).ldSince) = false → u.recordRoom [] = true →
      exec (.mkat o sig) s = .next (((u.starts (.mkat ((s.maArg o.g rs 0).setWidth 32) sig) [] []).changed fun c =>
        { c with issSh := 0 }).retired 2)))

/-! ## The copy stream -/

/-- 16 R303, R308 to R310: XCPY and XCPY2 check every row of their copy and record it; a stochastic conversion takes its draws; XCPY2
waits for its descriptor. -/
def Obligations.CopyWords : Prop :=
  (∀ (o : MA) (s : State),
    let rs := maReads .x o
    let u := s.maRead o.g rs
    let p := s.maArg o.g rs 2
    let ssp := xSpace (o.mode.extractLsb' 2 2).toNat
    let dsp := xSpace (o.mode.extractLsb' 0 2).toNat
    let r : CopyReq := { word := maWord 1 o, ssp := ssp, sa := s.maArg o.g rs 1, dsp := dsp, da := s.maArg o.g rs 0,
                         len := (p.extractLsb' 0 32).toNat, ce := p.getLsbD 32, cv := (p.extractLsb' 33 5).toNat,
                         rm := (p.extractLsb' 38 2).toNat, soff := 64 * (p.extractLsb' 40 24).toNat, sp := 0, dp := 0, rows := 1 }
    s.maReady o.g rs = true → s.mayName ssp = true → s.mayName dsp = true → u.mayCopy r = true →
    exec (.xcpy o) s = .next ((u.copies r).retired 1)) ∧
  (∀ (o : MA) (s : State) (d : InitRead),
    let q := aRef .x o.a
    let u := s.entered o.g
    let v := ofBytes ((d.bytes 0 64).map (·.1))
    let r := copyOfDesc (maWord 2 o) v
    s.maReady o.g [(q, o.k1)] = true → alignedIf true (s.frontWord q) 64 = true → (s.ctx s.cur).xcpy2 = some d → d.full = true →
    badUnits d.addr.toNat (d.bytes 0 64) = [] → copyDescBad v = none → u.mayCopy r = true →
    exec (.xcpy2 o) s = .next ((((u.copies r).took q o.k1).changed fun c => { c with xcpy2 := none }).retired 1))

/-- 16 R311, R312: XGATH, XSCAT and XFILL record their operation; the recorded range of what an unread index list may name is its
whole space. -/
def Obligations.GatherScatterAndFill : Prop :=
  ∀ (o : MA) (s : State),
    let rs := maReads .x o
    let u := s.maRead o.g rs
    let d := s.maArg o.g rs 0
    let a := s.maArg o.g rs 1
    let p := s.maArg o.g rs 2
    let ssp := xSpace (o.mode.extractLsb' 2 2).toNat
    let dsp := xSpace (o.mode.extractLsb' 0 2).toNat
    let lsp : Space := if p.getLsbD 27 then .ab else .ss
    let rb := (p.extractLsb' 48 16).toNat
    let n := (p.extractLsb' 32 11).toNat
    let list : Seg := { space := lsp, addr := (p.extractLsb' 0 27).toNat, len := 4 * n }
    let src : Seg := { space := ssp, addr := a.toNat, len := n * rb }
    let dst : Seg := { space := dsp, addr := d.toNat, len := n * rb }
    s.maReady o.g rs = true → s.mayName dsp = true → (dsp = .vm → u.outwardOk = true) →
    (s.mayName ssp = true → list.addr % 4 = 0 →
      (s.rangesOk [(false, list), (false, { src with len := 0 }), (true, dst)] = true →
        u.recordRoom (recordSegs [list] ++ u.wholeSpace ssp ++ recordSegs [dst]) = true →
        exec (.xgath o) s = .next ((u.starts (.gather n rb list dst src) (recordSegs [list] ++ u.wholeSpace ssp)
          (recordSegs [dst])).retired 1)) ∧
      (s.rangesOk [(false, list), (false, src), (true, { dst with len := 0 })] = true →
        u.recordRoom (recordSegs [list] ++ recordSegs [src] ++ u.wholeSpace dsp) = true →
        exec (.xscat o) s = .next ((u.starts (.scatter n rb list dst src) (recordSegs [list] ++ recordSegs [src])
          (u.wholeSpace dsp)).retired 1))) ∧
    (let fill : Seg := { space := dsp, addr := d.toNat, len := (p.extractLsb' 0 32).toNat }
     s.rangesOk [(true, fill)] = true → u.recordRoom (recordSegs [fill]) = true →
     exec (.xfill o) s = .next ((u.starts (.fill a fill) [] (recordSegs [fill])).retired 1))

/-- 16 R313 to R316: XSEND and XREDS name a member of a domain and post at the barrier, XPEER names a cell of any package, XRED
reduces in place; each is recorded once its ranges are checked. -/
def Obligations.TransfersAndReductions : Prop :=
  ∀ (o : MA) (s : State),
    let rs := maReads .x o
    let u := s.maRead o.g rs
    let m := s.maArg o.g rs 0
    let a := s.maArg o.g rs 1
    let l := s.maArg o.g rs 2
    let sc := scopeOf (o.mode.extractLsb' 0 2).toNat
    let ssp := xSpace (o.mode.extractLsb' 2 2).toNat
    let src : Seg := { space := ssp, addr := a.toNat, len := l.toNat }
    s.maReady o.g rs = true → u.outwardOk = true →
    (s.mayName ssp = true → s.rangesOk [(false, src)] = true → u.recordRoom (recordSegs [src]) = true →
      (s.memberOk (some sc) m l.toNat = true →
        exec (.xsend o) s = .next ((u.starts (.send sc m src) (recordSegs [src]) []).retired 1)) ∧
      (s.memberOk none m l.toNat = true →
        exec (.xpeer o) s = .next ((u.starts (.peer m src) (recordSegs [src]) []).retired 1))) ∧
    (let ty := (o.mode.extractLsb' 2 2).toNat
     let e := if ty = 1 then 2 else 4
     let n := (l.extractLsb' 0 32).toNat
     let from_ : Seg := { space := if o.mode.getLsbD 5 then .ss else .ab, addr := a.toNat, len := n }
     let dest : Seg := { space := xSpace (o.mode.extractLsb' 0 2).toNat, addr := m.toNat, len := n }
     s.mayName from_.space = true → n % e = 0 → a.toNat % e = 0 →
     (s.mayName dest.space = true → m.toNat % e = 0 → s.rangesOk [(false, from_), (false, dest)] = true →
       u.recordRoom (recordSegs [from_, dest] ++ recordSegs [dest]) = true →
       exec (.xred o) s = .next ((u.starts (.reduce ty dest from_) (recordSegs [from_, dest]) (recordSegs [dest])).retired 1)) ∧
     (memberOff m % e = 0 → s.memberOk (some sc) m n = true → s.rangesOk [(false, from_)] = true →
       u.recordRoom (recordSegs [from_]) = true →
       exec (.xreds o) s = .next ((u.starts (.sendReduce sc ty m from_) (recordSegs [from_]) []).retired 1)))

/-- 16 R319 to R323: XLBW takes its number from a letterbox or waits, XLBC reads and clears one, XPREF records a prefetch, and
XSTAT pushes the state of the X engine to a channel. -/
def Obligations.LetterboxPrefetchAndStatus : Prop :=
  (∀ (o : MA) (s : State),
    let rs := [(aRef .x o.a, o.k1), (aRef .x o.b, o.k2)]
    let u := s.maRead o.g rs
    let a := s.maArg o.g rs 0
    let n := ((s.maArg o.g rs 1).extractLsb' 0 32).toNat
    let k := (a.extractLsb' 0 6).toNat
    let have_ := (Table.get (s.cell s.cur.cell).letters 0 k).toNat
    s.maReady o.g rs = true →
    (n ≤ have_ → exec (.xlbw o) s = .next ((u.modCell s.cur.cell fun l =>
      { l with letters := Table.put l.letters 0 k (BitVec.ofNat 32 (have_ - n)) }).retired 1)) ∧
    (have_ < n → exec (.xlbw o) s = .next (s.waitsAt .outside)) ∧
    (u.recordRoom [] = true → exec (.xpref o) s = .next ((u.starts (.prefetch a n) [] []).retired 1))) ∧
  (∀ (o : MA) (s : State),
    let q := aRef .x o.b
    let u := (s.entered o.g).took q o.k2
    let k := ((s.frontWord q).extractLsb' 0 6).toNat
    s.maReady o.g [(q, o.k2)] = true → (u.ctx s.cur).room (aRef .x o.a) = true →
    exec (.xlbc o) s = .next (((u.pushed (aRef .x o.a)
      (some (wide ((Table.get (s.cell s.cur.cell).letters 0 k).setWidth 64))) none).modCell s.cur.cell fun l =>
        { l with letters := Table.erase l.letters k }).retired 1)) ∧
  (∀ (o : MS) (s : State), s.outwardOk = true → (s.ctx s.cur).room (.chan (maskNo o.a)) = true →
    exec (.xstat o) s = .next ((s.pushed (.chan (maskNo o.a)) (some (wide (s.ctx s.cur).xstat)) none).retired 1))

/-! ## Steps of results, loops and traps -/

/-- 02 R25, R45, 06 R131, 08 R184, R191: RESULT_DUE puts a result in its place, in the order of R100, and not before its cycle;
MODULO_PASS_END moves the four streams together; HALT_BUNDLE_RETIRE finishes the context. That `LC0` of S
decides the pass for all four streams is the model's choice (log 79, DESIGN CHOICE), as is the order of results with no stated latency
(log 10, DEDUCED). -/
def Obligations.ResultsPassesAndHalts : Prop :=
  (∀ (c : CtxRef) (f : Flight) (v : Vec) (s : State), ((s.ctx c).flights.find? fun g => g.tok == f.tok) = some f →
    (f.val = some v → f.lands (s.ctx c) (s.cell c.cell).cycle →
      exec (.resultDue c f.tok) s = .next (s.modCtx c fun y => y.takesResult (s.cell c.cell).cycle f v)) ∧
    (∀ d, f.due = some d → (s.cell c.cell).cycle < d → exec (.resultDue c f.tok) s = .next s)) ∧
  (∀ (c : CtxRef) (s : State),
    let x := s.ctx c
    x.passOver → x.rbNow = none → x.unheld →
    (1 < bits x.ss.lc0 0 32 → ∃ t, exec (.moduloPassEnd c) s = .next t ∧ (t.ctx c).liiPass = (x.liiPass + 1) % 2 ^ 24 ∧
      bits (t.ctx c).lpw 0 8 =
        (2 * bits x.lpw 0 8 + (!x.liiRestart && decide (x.liiPass + 1 < x.liiN)).toNat) % 2 ^ 8 ∧
      ∀ st, ((t.ctx c).str st).pc = (x.str st).ls0 ∧ ((t.ctx c).str st).lc0 = decLc (x.str st).lc0 ∧
        ((t.ctx c).str st).passEnd = false) ∧
    (bits x.ss.lc0 0 32 ≤ 1 → x.liiRestart = true → ∃ t, exec (.moduloPassEnd c) s = .next t ∧
      (t.ctx c).liiRestart = false ∧ (t.ctx c).liiPass = 0 ∧ (t.ctx c).lpw = 1 ∧
      ∀ st, ((t.ctx c).str st).pc = (x.str st).ls0 ∧
        ((t.ctx c).str st).lc0 = BitVec.ofNat 64 (x.liiN + x.liiStg) ∧ ((t.ctx c).str st).passEnd = false) ∧
    (bits x.ss.lc0 0 32 ≤ 1 → x.liiRestart = false → ∃ t, exec (.moduloPassEnd c) s = .next t ∧
      (t.ctx c).liiAct = false ∧ ∀ st, ((t.ctx c).str st).lc0 = 0 ∧ ((t.ctx c).str st).passEnd = false ∧
        ((x.str st).lc1 = 0 → ((t.ctx c).str st).pc = (x.str st).le0 + 4))) ∧
  (∀ (c : CtxRef) (s : State),
    let x := s.ctx c
    x.halting = true → x.unheld → s.asyncBusy c = false → x.liiAct = false → ∃ t, exec (.haltBundleRetire c) s = .next t ∧
      (t.ctx c).hold = .finished ∧ (t.ctx c).haltIn = 15 ∧ (t.ctx c).halting = false ∧
      ∀ st, ((t.ctx c).str st).seq = (x.str st).seq + 1 ∧
        ((x.str st).lc0 = 0 → (x.str st).lc1 = 0 → ((t.ctx c).str st).pc = (x.str st).pc + 4))

/-- 12 R244 to R251: ASYNC_FAULT raises the kept cause, or the fault that has stopped an operation or a coder slot; TRAP_ENTRY saves the
record once nothing that can run on is left, with the rollback that was due applied, and sends S to `TVEC`, or leaves a system cause to
firmware; firmware's three answers. The model's readings: `TPC` of a stream at its pass end (log 16), what the cut waits for (logs 19 and
85), and the late faults that are kept over a handler (log 89). -/
def Obligations.TrapsAreTakenAndAnswered : Prop :=
  (∀ (c : CtxRef) (op : Nat) (t : Trap) (s : State),
    let x := s.ctx c
    x.unheld →
    (∀ r, x.late = t :: r → exec (.asyncFault c op) s = .next ((s.setCtx c { x with late := r }).raise c t)) ∧
    (x.late = [] → x.stops.head? = some t → exec (.asyncFault c op) s = .next (s.raise c t))) ∧
  (∀ (c : CtxRef) (t : Trap) (s : State),
    let x := (s.rollbackNow c).ctx c
    (s.ctx c).cut = some t → s.mayEnter c = true → x.hnd = false → (t.cause = .brkpt → s.invasive c = false) →
    (t.cause.system = false → codeAddr x.tvec ≠ 0 → ∃ u, exec (.trapEntry c) s = .next u ∧
      TrapSaved x (u.ctx c) t true ∧ (u.ctx c).ss.pc = codeAddr x.tvec ∧
      (u.ctx c).sv.pc = x.sv.pc ∧ (u.ctx c).sm.pc = x.sm.pc ∧ (u.ctx c).sx.pc = x.sx.pc) ∧
    (t.cause.system = true → ∃ u, exec (.trapEntry c) s = .next u ∧ TrapSaved x (u.ctx c) t false ∧
      (u.ctx c).hold = .firmware ∧ ∃ r, u.hub.faults = s.hub.faults ++ [r] ∧ r.c = c ∧ r.cause = t.cause ∧ r.addr = t.addr)) ∧
  (∀ (c : CtxRef) (t : Trap) (s : State),
    let x := (s.rollbackNow c).ctx c
    (s.ctx c).cut = some t → s.mayEnter c = true → x.hnd = true → ∃ u, exec (.trapEntry c) s = .next u ∧
      u.ctx c = { x with hold := .firmware, cut := none, atFence := false } ∧
      ∃ r, u.hub.faults = s.hub.faults ++ [r] ∧ r.c = c ∧ r.cause = t.cause ∧ r.addr = t.addr) ∧
  (∀ (c : CtxRef) (t : Trap) (s : State), (s.ctx c).cut = some t → s.mayEnter c = false → exec (.trapEntry c) s = .next s) ∧
  (∀ (c : CtxRef) (s : State),
    let x := s.ctx c
    (s.firmwareRuns = true → x.hold = .firmware →
      (∃ t, exec (.firmwareResume c) s = .next t ∧ (t.ctx c).hold = (if ∀ st ∈ Stream.all, (x.str st).halted = true then .finished else .free) ∧
        ∀ st, ((t.ctx c).str st).pc = if x.hnd then (x.str st).pc else (x.str st).tpc) ∧
      (∀ r, x.running = some r → ∃ t f, exec (.firmwareFail c) s = .next t ∧ (t.ctx c).hold = .failed ∧
        t.hub.fails = s.hub.fails ++ [(r.node, f)] ∧ f.status = 2 ∧
        (x.hnd = false → f.cause = bits x.tcause 0 8 ∧ f.detail = x.taddr)) ∧
      (∀ r, x.running = some r → exec (.firmwareRerun c) s = .next (s.runAgain r.node))) ∧
    (x.hold ≠ .firmware ∨ s.firmwareRuns = false → exec (.firmwareResume c) s = .next s ∧ exec (.firmwareFail c) s = .next s ∧
      exec (.firmwareRerun c) s = .next s))

/-! ## Steps of the memory machine -/

/-- 18 R344 to R356, 17 R332 to R334, 14 R271, 27 R465: POST, PERFORM, ACK and READ of an access, and the steps of the read cache and
the TLBs. A store changes the bytes of its own range under its mask and no other byte of any home; a read finds the errors of its units.
The model's choices: the oldest TLB entry makes room (log 12), an access beyond a peer's HBM is noted as lost (log 20), a lost access is
POSTed again after its resume (log 32), and what unwritten bytes read as (log 4). -/
def Obligations.MemoryMachineSteps : Prop :=
  (∀ (a : Access) (s : State), s.findAcc a.id = some a →
    (s.postable a → exec (.post a.id) s = .next (s.setAcc { a with posted := true })) ∧
    (∀ b ∈ s.accs, b.agent = a.agent → b.before a = true → a.page ≠ .uo → b.acq = true → b.got = false →
      visible a.home b.obs = true → exec (.post a.id) s = .next s) ∧
    (∀ b ∈ s.accs, b.agent = a.agent → b.before a = true → a.rel = true → b.page ≠ .uo → visible b.home a.obs = true →
      b.finished = false → exec (.post a.id) s = .next s)) ∧
  (∀ (a : Access) (s : State), s.findAcc a.id = some a → s.performable a →
    let n := a.mask.length
    let z := if a.kind = .write then s else a.takesPart.foldl (fun t r => t.eccHome a.home r.1 r.2 a.cell?) s
    let u := { z.countBank a with performs := s.performs + 1 }
    let old := (u.homeMem a.home).readP a.addr n
    let b := { a with performed := true, stamp := s.performs + 1 }
    (a.beyondPeer = true → exec (.perform a.id) s = .next (s.modHub fun h => { h with lost := Table.set h.lost a.id h.time })) ∧
    (a.beyondPeer = false →
      (a.kind = .write → ∃ t, exec (.perform a.id) s = .next t ∧
        t.accs = (if a.agent = .host then s.accs.filter (fun x => x.id != a.id) else (s.setAcc b).accs) ∧
        (∀ k < n, (t.homeMem a.home).read (a.addr + k) =
          if a.mask.getD k false then (a.data.getD k (0, false)).1 else (s.homeMem a.home).read (a.addr + k)) ∧
        (∀ x, x < a.addr ∨ a.addr + n ≤ x → (t.homeMem a.home).read x = (s.homeMem a.home).read x) ∧
        ∀ h, h ≠ a.home → t.homeMem h = s.homeMem h) ∧
      (a.kind = .read → a.agent ≠ .host → ∃ t, exec (.perform a.id) s = .next t ∧
        t.accs = (s.setAcc { b with data := old }).accs ∧ ∀ h, t.homeMem h = u.homeMem h) ∧
      (a.kind = .read → a.agent = .host → ∃ t, exec (.perform a.id) s = .next t ∧
        t.accs = s.accs.filter (fun x => x.id != a.id) ∧ t.hub.replies.reads = s.hub.replies.reads ++ [old] ∧
        ∀ h, t.homeMem h = u.homeMem h) ∧
      (a.agent ≠ .host →
        (∀ op v, a.kind = .amo op v → old.any (·.2) = false →
          exec (.perform a.id) s = .next ((u.modHome a.home fun m => m.store a.addr (cleanBytes (toBytes
            (amoValue op n (ofBytes (old.map (·.1))) v.toNat) n))).setAcc { b with data := old })) ∧
        (∀ e v, a.kind = .cas e v → old.any (·.2) = false →
          exec (.perform a.id) s = .next ((if ofBytes (old.map (·.1)) = e.toNat % 2 ^ (8 * n) then
            u.modHome a.home fun m => m.store a.addr (cleanBytes (toBytes (v.toNat % 2 ^ (8 * n)) n))
            else u).setAcc { b with data := old })) ∧
        (a.kind ≠ .read → a.kind ≠ .write → old.any (·.2) = true →
          exec (.perform a.id) s = .next (u.setAcc { b with data := old }))))) ∧
  (∀ (a : Access) (s : State), s.findAcc a.id = some a → s.isLost a = false → a.performed = true →
    (a.kind = .write → ∃ t, exec (.ack a.id) s = .next t ∧ t.accs = s.accs.filter (fun b => b.id != a.id) ∧
      ∀ h, t.homeMem h = s.homeMem h) ∧
    (a.kind ≠ .write → a.got = false →
      (∀ b ∈ s.accs, b.agent = a.agent → b.before a = true → b.kind ≠ .write → b.got = false → b.meets a = false) →
      exec (.read a.id) s = .next { (((s.dropAcc a.id).readDrops a).sinkTakes a a.data).settle a with curPc := none })) ∧
  (∀ (cell line : Nat) (s : State), exec (.readCacheEvict cell line) s =
    .next (s.modCell cell fun l => { l with cache := l.cache.eraseIdx line })) ∧
  (∀ (c : CtxRef) (st : Stream) (va : Word) (s : State),
    (∀ e, (s.walk (s.partOf c) va).hit = some e → e ∉ ((s.ctx c).str st).tlb →
      exec (.pageWalk c st va) s = .next ((s.walkReads (s.walk (s.partOf c) va)).modCtx c fun x => x.tlbTakes st e)) ∧
    ((s.walk (s.partOf c) va).hit = none → exec (.pageWalk c st va) s = .next (s.noteWalk (s.partOf c) va)) ∧
    (∀ p, ((s.ctx c).prefetch.find? fun q => q.1 == slotNo st) = some p →
      let w := s.walk (s.partOf c) (BitVec.ofNat 64 p.2)
      let t := (s.modCtx c fun x => { x with prefetch := x.prefetch.erase p }).walkReads w
      (∀ e, w.hit = some e → e ∉ ((s.ctx c).str st).tlb →
        exec (.tlbPrefetchWalk c st) s = .next (t.modCtx c fun x => x.tlbTakes st e)) ∧
      (w.hit = none → exec (.tlbPrefetchWalk c st) s = .next t))) ∧
  (∀ (a : Access) (c : CtxRef) (st : Stream) (d : Nat) (s : State),
    (s.hub.lost.find? fun p => p.1 == a.id) = some (a.id, d) →
    (s.hub.time < d → exec (.lsaLossTimeout a.id) s = .next s) ∧
    (d ≤ s.hub.time → s.findAcc a.id = some a → a.agent = .stream c st →
      let x := s.ctx c
      let t := (s.modHub fun h => { h with lost := Table.erase h.lost a.id }).setAcc
        { a with posted := false, performed := false, failed := true }
      let k : Trap := { cause := .prot, addr := a.va, st := st, async := true, word := x.wordOf a.rank, syn := some (t.synOf c a.use a.va) }
      let reports := fun (v : State) (k : Trap) =>
        if x.hnd = true ∧ x.cut = none ∧ x.hold = .free ∧ x.hndRank ≤ a.rank then v.raise c k else v.raiseLate c (some k)
      (a.left = true ∨ x.hold = .failed ∨ x.running = none → exec (.lsaLossTimeout a.id) s = .next (t.dropAcc a.id)) ∧
      (a.left = false → x.hold ≠ .failed → x.running ≠ none →
        (∀ id p, a.sink = .init id p → exec (.lsaLossTimeout a.id) s =
          .next (reports ((t.dropAcc a.id).modCtx c fun y => y.dropReader id) { k with async := false })) ∧
        (∀ n p, a.sink = .coder n p →
          (a.kind = .read → exec (.lsaLossTimeout a.id) s = .next (reports (t.dropAcc a.id) { k with async := false })) ∧
          (a.kind ≠ .read → exec (.lsaLossTimeout a.id) s = .next (t.modCtx c fun y => { y with
            slots := Table.set y.slots n { x.slot n with stopped := some ((x.slot n).stopped.getD k) } }))) ∧
        ((∀ id p, a.sink ≠ .init id p) → (∀ n p, a.sink ≠ .coder n p) →
          (∀ o, x.op a.rank = some o → o.kind ≠ .scalar → exec (.lsaLossTimeout a.id) s =
            .next (t.modCtx c fun y => y.setOp { o with pending := some (o.pending.getD k) })) ∧
          ((∀ o, x.op a.rank = some o → o.kind = .scalar) → exec (.lsaLossTimeout a.id) s = .next (reports t k))))))

/-! ## Steps of engines and of transfers between packages -/

/-- 14 R278, 15 R286 to R301, 09 R212 to R218, 10 R221, R231, R236, 16 R304, 12 R247: of the operations that nothing holds the oldest
starts. Each kind of V and M operation has its effect at its end, stated for sources without a poison mark: MZERO, MSWAP, MLDW, MSTR, MWIN,
MOUT, MKAT, V loads and stores, VWMAC, VWPOOL, the load of a table, and RCFLUSH. X operations go row by row; a coder slot writes and reads
ahead in 64-byte units. The model's choices: effects at the end (log 8), which errors an operation finds (log 90), which operations hold
others (log 85), the empty output and the EMPTY bit of VWMAC and VWPOOL (logs 25 and 76), flags that a later CSR write overtakes (log 15). -/
def Obligations.EngineSteps : Prop :=
  (∀ (c : CtxRef) (o : EngineOp) (s : State), (s.ctx c).op o.id = some o → o.phase = .held →
    ((s.ctx c).recordFreeFor (s.cell c.cell).pair o → o.kind = .scalar ∨ (s.ctx c).holdsOps = false →
      (∀ p ∈ (s.ctx c).ops, p.id < o.id → s.startable c p = false) →
      (o.st ≠ .x → exec (.engineOpStart c o.id) s = .next (s.modCtx c fun x => x.setOp { o with phase := .reading })) ∧
      (o.st = .x → exec (.engineOpStart c o.id) s = .next (s.xGo c { o with phase := .reading }))) ∧
    (¬ (s.ctx c).recordFreeFor (s.cell c.cell).pair o → exec (.engineOpStart c o.id) s = .next s) ∧
    (∀ p ∈ (s.ctx c).ops, p.id < o.id → s.startable c p = true → exec (.engineOpStart c o.id) s = .next s) ∧
    exec (.engineOpComplete c o.id) s = .next s) ∧
  (∀ (c : CtxRef) (o : EngineOp) (s : State), (s.ctx c).op o.id = some o → o.phase ≠ .held → o.pending = none →
    let u := s.leavesRecord c o
    (o.st = .x → exec (.engineOpComplete c o.id) s = .next { { s with curPc := some o.pc }.xStep c o with curPc := none }) ∧
    (o.st ≠ .x → s.opBusy o = false →
      (o.kind = .mzero → exec (.engineOpComplete c o.id) s = .next
        { o.writes.foldl (fun t g => t.bufWrite c .cb g.addr (cleanBytes (List.replicate g.len 0))) u with curPc := none }) ∧
      (∀ act sh, o.kind = .mswap act sh → exec (.engineOpComplete c o.id) s = .next
        { (u.modCell c.cell fun l => if l.pair then l else { l with active1 := !l.active1 }).modCtx c fun x =>
          { x with tagAct := act, tagSh := sh } with curPc := none }) ∧
      (∀ sp runs data mask, o.kind = .vwrite sp runs data mask → sp ∉ [.ss, .vm] →
        exec (.engineOpComplete c o.id) s = .next
          { runs.foldl (fun t r => t.bufWrite c sp r.2.1 ((List.range r.2.2).map fun k =>
              if mask.getLsbD (r.1 + k) then some (data.extractLsb' (8 * (r.1 + k)) 8, false) else none)) u with curPc := none }) ∧
      (∀ sp runs mask tok, o.kind = .vread sp runs mask tok →
        (∀ r ∈ u.runBytes c o sp runs, badUnits r.2.1 r.2.2 = []) → exec (.engineOpComplete c o.id) s =
          .next { u.modCtx c fun x => x.fillTok tok (vecOfRuns mask (u.runBytes c o sp runs)) with curPc := none }) ∧
      (∀ sp runs data mask, o.kind = .vwrite sp runs data mask → sp = .ss ∨ sp = .vm →
        exec (.engineOpComplete c o.id) s = .next { u with curPc := none }) ∧
      (∀ f w side, o.kind = .mldw f w side → u.cleanBuffers c →
        (f = 6 → ∀ k < 3072, ofBytes (u.bufBytes c .wb (side + 4 * k) 4) < 65536) →
        ∃ m : Memory, m.marks = [] ∧ (∀ k < 49152, some (m.read k) = (u.bufBytes c .wb (w + k) 1)[0]?) ∧
          (∀ k < sidePlane f, some (m.read (49152 + k)) = (u.bufBytes c .wb (side + k) 1)[0]?) ∧
          exec (.engineOpComplete c o.id) s = .next
            { (u.modCell c.cell fun l => l.setPlane ((u.cell c.cell).loadStore c.bank) m).modCtx c fun x =>
              { x with tagSh := BitVec.ofNat 4 f } with curPc := none }) ∧
      (∀ acc ovf f aA aC n pitch side klen, o.kind = .mstr acc ovf f aA aC n pitch side klen → u.cleanBuffers c → klen ≤ 192 →
        let row := fun r => (u.bufBytes c .ab (aA + r * pitch) klen ++ List.replicate (192 - klen) 0,
          words (sideEntry f) (blocksBelow f klen) (u.bufBytes c .ab (side + r * sidePer f) (blocksBelow f klen * sideEntry f)))
        (f = 6 → ∀ r < n, ∀ w ∈ (row r).2, w < 65536) → exec (.engineOpComplete c o.id) s =
          .next { u.streamsRows c o acc ovf f klen aC n row with curPc := none }) ∧
      (∀ acc ovf f wd d pix n aC sl, o.kind = .mwin acc ovf f wd d pix n aC sl → u.cleanBuffers c →
        exec (.engineOpComplete c o.id) s = .next { u.streamsRows c o acc ovf f 192 aC n (fun r =>
          ((Wd.sliceRow d (fun a => ((u.bufBytes c .ab a 1).headD 0, false)) ((pix + r) % (Wd.ho d * Wd.wo d)) sl).map (·.1), []))
          with curPc := none }) ∧
      (∀ f act aC d p, o.kind = .mout f act aC d p → u.cleanBuffers c →
        exec (.engineOpComplete c o.id) s = .next { if moutN p = 0 then u else
          ((List.range (moutN p)).foldl (fun t r => t.readsOutRow c f act aC (BitVec.ofNat 64 d) p r) u).modCell c.cell fun l =>
            l.count 7 (moutN p) with curPc := none }) ∧
      (∀ seed sig, o.kind = .mkat seed sig → ∃ m : Memory, m.marks = [] ∧ (∀ k < 49152, m.read k = katByte seed (k + 1)) ∧
        (let store := (u.cell c.cell).loadStore c.bank
         let t := (u.modCell c.cell fun l => l.setPlane store m).modCtx c fun x => { x with tagSh := 0 }
         let v := t.modCell c.cell fun l =>
           { l with katfail := BitVec.ofNat 32 (satAdd32 l.katfail.toNat 1), score := min (l.score + 32) 0xFFFF }
         (∀ k < 12288, m.read (49152 + k) = ((u.cell c.cell).plane store).read (49152 + k)) ∧
         (katSignature seed = sig → exec (.engineOpComplete c o.id) s = .next { t with curPc := none }) ∧
         (katSignature seed ≠ sig → bitOf (s.ctx c).status 9 = false → exec (.engineOpComplete c o.id) s = .next { v with curPc := none }) ∧
         (katSignature seed ≠ sig → bitOf (s.ctx c).status 9 = true → exec (.engineOpComplete c o.id) s = .next
           { v.raiseLate c (some { cause := .katfail, addr := (katSignature seed).setWidth 64, st := .m, async := false,
                                   word := some o.pc }) with curPc := none }))) ∧
      (∀ et wd d g w acc cb mask rm tok, o.kind = .vwmac et wd d g w acc cb mask rm tok →
        (Wd.empty d = true → exec (.engineOpComplete c o.id) s = .next
          { u.modCtx c fun x => { x.fillTok tok acc with wd := Table.put x.wd 0 wd (Wd.setEmpty d true) } with curPc := none }) ∧
        (Wd.empty d = false → u.cleanBuffers c →
          let tap := (Wd.tapAt d (Wd.pix d) (Wd.tap d / Wd.kw d) (Wd.tap d % Wd.kw d)).map (u.tapAt c et g)
          let a := (cb.map fun x => vecOfList 1 ((u.bufBytes c .cb x 256).map (·.toNat))).getD acc
          let rs := (List.range 64).map (macLane et d w a mask rm tap)
          let r := vecOfList 4 (rs.map (·.1))
          let t := u.modCtx c fun x => { x.fillTok tok r with
            wd := Table.put x.wd 0 wd (Wd.nextTap (Wd.setEmpty d false)), vcsr := x.vcsr ||| o.kept 0x078 (FpFlags.all (rs.map (·.2))).toWord }
          (cb = none → exec (.engineOpComplete c o.id) s = .next { t with curPc := none }) ∧
          (∀ x, cb = some x → exec (.engineOpComplete c o.id) s = .next { t.bufWrite c .cb x ((List.range 256).map fun k =>
            if lane mask 4 (k / 4) then some (BitVec.ofNat 8 (elem r 1 k), false) else none) with curPc := none }))) ∧
      (∀ et wd d g mask rm tok, o.kind = .vwpool et wd d g mask rm tok →
        (Wd.empty d = true → exec (.engineOpComplete c o.id) s = .next
          { u.modCtx c fun x => { x.fillTok tok 0 with wd := Table.put x.wd 0 wd (Wd.setEmpty d true) } with curPc := none }) ∧
        (Wd.empty d = false → u.cleanBuffers c →
          let nums := fun k => (Wd.taps d).filterMap fun t => match t with
            | some a => some (tapNum et (u.tapAt c et g a) k)
            | none => if Wd.mode d = 3 then some (Wd.padNum d et) else none
          let rs := (List.range 64).map fun k =>
            if lane mask 4 k then (if Wd.mode d = 2 then poolMax (nums k) else poolAvg rm (nums k)) else (0, FpFlags.none)
          exec (.engineOpComplete c o.id) s = .next { u.modCtx c fun x => { x.fillTok tok (vecOfList 4 (rs.map (·.1))) with
            wd := Table.put x.wd 0 wd (Wd.nextPix (Wd.setEmpty d false)),
            vcsr := x.vcsr ||| o.kept 0x078 (FpFlags.all (rs.map (·.2))).toWord } with curPc := none })) ∧
      (∀ f sp a, o.kind = .tableLoad f sp a →
        let bs := ((u.runBytes c o sp [(0, a, 64)]).map fun r => r.2.2).flatten
        let h := fun i => ((bs.getD (2 * i) (0, false)).1).toNat + 256 * ((bs.getD (2 * i + 1) (0, false)).1).toNat
        let ok := ((List.range 32).all fun i => decide (h i < 2 ^ 13)) && ((List.range 32).map fun i => h i % 2 ^ 13).sum == 4096
        (∀ b ∈ bs, b.2 = false) → exec (.engineOpComplete c o.id) s = .next { u.modCtx c fun x => { x with
          tables := Table.set x.tables f { f := (List.range 32).map fun i => BitVec.ofNat 13 (h i), tv := ok }
          rcsr := if ok then x.rcsr else x.rcsr ||| o.kept 0x07A 8#64 } with curPc := none })) ∧
    (∀ n daddr pos, o.st ≠ .x → o.kind = .flush n daddr pos →
      (o.phase = .writing → s.opBusy o = false → exec (.engineOpComplete c o.id) s =
        .next { { s with curPc := some o.pc }.endOp c o.id with curPc := none }) ∧
      (((s.ctx c).slot n).emits = true ∨ s.emissionOut c n = true → o.phase ≠ .writing →
        exec (.engineOpComplete c o.id) s = .next { s with curPc := none }) ∧
      (∀ ps, o.phase ≠ .writing → ((s.ctx c).slot n).emits = false → s.emissionOut c n = false →
        s.vmParts c .v .write 0 (piecesOf (daddr + 12).toNat 4) = .ok ps → exec (.engineOpComplete c o.id) s = .next
          { (({ s with curPc := some o.pc }.modCtx c fun x => x.setOp { o with phase := .writing }).fillFor c .v ps).issueParts o.id
              (.stream c .v) .write false false 0 (fun _ => .none)
              (fun k => (BitVec.ofNat 8 (pos.toNat / 2 ^ (8 * k)), false)) (fun _ => true) ps with curPc := none })) ∧
    (o.st ≠ .x → s.opBusy o = true → (∀ n a p, o.kind ≠ .flush n a p) →
      exec (.engineOpComplete c o.id) s = .next { s with curPc := none })) ∧
  (∀ (c : CtxRef) (n : Nat) (w : WinByte) (r : List WinByte) (ps : List Part) (s : State),
    let x := ((s.ctx c).slot n).now
    ((s.ctx c).slot n).emits = true → ((s.ctx c).slot n).stopped = none → s.emissionOut c n = false →
    ((s.ctx c).holdsOps = false ∨ (s.ctx c).flushPending n = true) →
    frontRun x = w :: r → s.vmParts c .v .write 0 (piecesOf (x.va w.off).toNat (r.length + 1)) = .ok ps →
    exec (.coderEmissionWrite c n) s = .next (((s.modCtx c fun y => y.setSlot n { x with win := x.win.drop (r.length + 1) }).fillFor
      c .v ps).issueParts
      w.rank (.stream c .v) .write false false 0 (fun _ => .coder n w.off) (fun k => (((w :: r).getD k w).byte, false))
      (fun _ => true) ps)) ∧
  (∀ (c : CtxRef) (n off hi : Nat) (ps : List Part) (s : State),
    let x := ((s.ctx c).slot n).now
    let va := x.va off
    x.bound = true → x.decodes = true → (s.ctx c).holdsOps = false → s.aheadFrom c n = some (off, hi) →
    s.vmParts c .v .read 0 (piecesOf va.toNat (min (hi - off) (64 - va.toNat % 64))) = .ok ps →
    exec (.coderReadAhead c n) s = .next ((s.fillFor c .v ps).issueParts s.nextId (.stream c .v) .read false false 0
      (fun p => .coder n (off + p)) (fun _ => (0, false)) (fun _ => true) ps))

/-- 16 R316 to R319, 20 R366, 02 R37 to R41, 27 R461, R465: a transfer that arrives stands in the inbound peer queue while there is room;
at its turn it is written, and its letterbox rings, only where an entry of the grant table matches it; the sender learns the answer. Barrier
tokens are taken while fewer than 512 stand in their queue. A full queue holds all MSG flits of its port. Bad flits are retried, then dropped
and counted. That a transfer waits for its turn while an X word of the cell has issued, and that nothing comes of one that no sender can
make, or that comes out of its sender's order, is the model's choice (log 86), as is what a barrier token carries (log 33). -/
def Obligations.TransferAndLinkSteps : Prop :=
  (∀ (t : PeerTransfer) (s : State),
    (t.lands → t.inTurn s → s.flitFree t.port .peer →
      (s.hub.peerQ.length < 64 → exec (.xpeerArrival t) s = .next ((s.modHub fun h => { h with
        peerQ := h.peerQ ++ [t]
        peerLast := (h.peerLast.filter fun p => p.1 != peerKey t) ++ [(peerKey t, t.rank)] }).portWaits t.port none)) ∧
      (64 ≤ s.hub.peerQ.length → exec (.xpeerArrival t) s = .next (s.portWaits t.port (some .peer)))) ∧
    (¬ t.lands ∨ ¬ t.inTurn s ∨ ¬ s.flitFree t.port .peer → exec (.xpeerArrival t) s = .next s)) ∧
  (∀ (t : PeerTransfer) (r : List PeerTransfer) (s : State), s.hub.peerQ = t :: r → s.boxOpen t.cell = true →
    let u := s.modHub fun h => { h with peerQ := r }
    let told := fun (v : State) (ok : Bool) => v.modReplies fun q => { q with grants := q.grants ++ [(t.srcPkg, ok)] }
    (∀ e, s.grantOf t.srcPkg t.cell t.space.toNat t.off t.data.length = some e → s.servePeers 1 =
      told ((u.peerWrite t.cell t.space.toNat t.off t.bytes).ringBox t.cell (bits e 72 6)) true) ∧
    (s.grantOf t.srcPkg t.cell t.space.toNat t.off t.data.length = none → s.servePeers 1 =
      told (u.modCounts fun n => { n with grantDrops := satAdd32 n.grantDrops 1 }) false)) ∧
  (∀ (c : CtxRef) (o : EngineOp) (m : Word) (src : Seg) (s : State), (s.ctx c).op o.id = some o → o.kind = .peer m src →
    o.awaitsPeer = true → o.pending = none → (s.ctx c).peerWaits o m = false → memberPkg m ≠ s.cfg.package →
    exec (.xpeerAcknowledge c o.id true) s = .next (s.xDone c o) ∧
    exec (.xpeerAcknowledge c o.id false) s = .next ((s.modCtx c fun x => x.dropped 0 o.id).xDone c o)) ∧
  (∀ (c : CtxRef) (o : EngineOp) (m : Word) (src : Seg) (ok : Bool) (s : State), (s.ctx c).op o.id = some o → o.kind = .peer m src →
    o.awaitsPeer = true → o.pending = none → (s.ctx c).peerWaits o m = false → memberPkg m = s.cfg.package →
    s.boxOpen (memberCell m) = true →
    let l := (List.range src.len).map fun k => Table.get o.buf (0, false) k
    (∀ e, s.grantOf (memberPkg m) (memberCell m) (memberSpace m) (memberOff m) src.len = some e → exec (.xpeerAcknowledge c o.id ok) s =
      .next (((s.peerWrite (memberCell m) (memberSpace m) (memberOff m) l).ringBox (memberCell m) (bits e 72 6)).xDone c o)) ∧
    (s.grantOf (memberPkg m) (memberCell m) (memberSpace m) (memberOff m) src.len = none → exec (.xpeerAcknowledge c o.id ok) s =
      .next (((s.modCounts fun n => { n with grantDrops := satAdd32 n.grantDrops 1 }).modCtx c fun x => x.dropped 0 o.id).xDone c o))) ∧
  (∀ (tok : BarrierToken) (s : State),
    (8 ≤ tok.port ∨ ¬ s.flitFree tok.port .token → exec (.barrierTokenArrival tok) s = .next s) ∧
    (tok.port < 8 → s.flitFree tok.port .token → 512 ≤ s.hub.tokens.length →
      exec (.barrierTokenArrival tok) s = .next (s.portWaits tok.port (some .token))) ∧
    (tok.port < 8 → s.flitFree tok.port .token → s.hub.tokens.length < 512 →
      let comes := fun (t : State) => exec (.barrierTokenArrival tok) s = .next (t.portWaits tok.port none)
      (∀ n, tok.cargo = .arrived n → comes (s.modHub fun h => { h with tokens := h.tokens ++ [tok] })) ∧
      (∀ c rank halted, tok.cargo = .dropped c rank halted → comes (s.modAt c fun x => x.dropped (if halted then 2 else 1) rank)) ∧
      (∀ x d, tok.cargo = .transfer x → s.domRec tok.part tok.dom.toNat = some d →
        comes (s.modHub fun h => { h with posted := h.posted ++ [postedOf tok x] })) ∧
      (∀ x, tok.cargo = .transfer x → s.domRec tok.part tok.dom.toNat = none →
        comes (s.dropTransfer tok.part tok.dom.toNat (postedOf tok x) false)) ∧
      (∀ c on, tok.cargo = .halted c on → comes (s.modHub fun h => { h with
        domains := h.domains.map fun d => if d.part == tok.part && d.id == tok.dom.toNat then d.noteHalt (tok.pkg, c) on else d })))) ∧
  (∀ (f : FlitEvent) (s : State), f.port < 8 →
    (f.tries ≤ 8 → exec (.flitRetry f) s = .next (s.flitCounted f)) ∧
    (8 < f.tries →
      ((f.cargo = .reward ∨ f.cargo = .barrier) → exec (.flitRetry f) s = .next (s.flitCounted f)) ∧
      (∀ a : Access, f.cargo = .lsa a.id → s.findAcc a.id = some a → a.home = .peer → exec (.flitRetry f) s =
        .next ((s.flitCounted f).modHub fun h => { h with lost := Table.set h.lost a.id (h.time + 12000) })) ∧
      (∀ (c : CtxRef) (o : EngineOp), f.cargo = .xpeer c o.id → (s.ctx c).op o.id = some o → o.awaitsPeer = true →
        exec (.flitRetry f) s = .next (((s.flitCounted f).modCtx c fun x => x.dropped 3 o.id).xDone c o)))) ∧
  (∀ (port : Nat) (up : Bool) (s : State), port < 8 → exec (.giuthPortTraining port up) s =
    .next (s.modHub fun h => { h with ports := Table.modify h.ports Port.init port fun p => { p with up := up } })) ∧
  (∀ (es : List (BitVec 128)) (s : State), s.firmwareRuns = true → es.length ≤ 4096 → (∀ e ∈ es, e.extractLsb' 54 17 = 0) →
    ∃ t, exec (.grantTableLoad es) s = .next t ∧ t.hub.grants = (List.range es.length).zip es ∧
      (∀ e ∈ es, e.getLsbD 71 = true → (t.cell (e.extractLsb' 80 8).toNat).letters = []))

/-! ## Steps of the hub -/

/-- 02 R34 to R41, 17 R337 to R340, 18 R344, R345, R359, R361: a barrier releases its members once all have arrived, takes the transfers
and tokens of its superstep, and the domain goes on to the next; domain registers, and the hub's record of a domain; accesses of peers, of
the host and of firmware to device HBM; a page that migrates, 64 bytes at a time; invalidation. The model's choices: the record that
DOMAIN_REGISTER_WRITE carries (log 22), what a token says (log 33), a firmware store within its step (log 7), which packages an index
names and what a peer refuses (log 20), which host accesses are refused (log 68), and the communication phase in the step of the release
(log 97). -/
def Obligations.HubSteps : Prop :=
  (∀ (part : Nat) (dom : BitVec 32) (s : State),
    let d := dom.toNat
    (s.barrierFull part d = true → ∃ t, exec (.barrierRelease part dom) s = .next t ∧
      (t.hub.tokens = s.hub.tokens.filter fun k => !tokenOf part d (s.domStep part d) k) ∧
      (t.hub.posted = s.hub.posted.filter fun p => !(s.dueTransfers part d).contains p) ∧
      (t.hub.domains = s.hub.domains.map fun x => if x.part == part && x.id == d then { x with step := x.step + 1 } else x) ∧
      (∀ c ∈ s.membersOf part d, (s.ctxAt c).arrivedAt d = true →
        (t.ctxAt c).barrier = none ∧ (t.ctxAt c).arrived = false ∧ (t.ctxAt c).released = true) ∧
      ∀ c, c ∉ s.membersOf part d → (t.ctxAt c).barrier = (s.ctxAt c).barrier ∧ (t.ctxAt c).released = (s.ctxAt c).released) ∧
    (s.barrierFull part d = false → exec (.barrierRelease part dom) s = .next s)) ∧
  (∀ (c : CtxRef) (reg : DomScope) (v : Word) (e : Option DomainEntry) (s : State),
    let x := s.ctxAt c
    (reg = .t → exec (.domainRegisterWrite c reg ⟨v, e⟩) s = .next s) ∧
    (reg ≠ .t → s.firmwareRuns = true → ∃ t, exec (.domainRegisterWrite c reg ⟨v, e⟩) s = .next t ∧
      (t.ctxAt c).dom reg = v &&& 0x3FFF_FFFF_FFFF_FFFF#64 ∧ (∀ r, r ≠ reg → (t.ctxAt c).dom r = x.dom r) ∧
      (t.ctxAt c).sstep reg = (if v.extractLsb' 0 32 = (x.dom reg).extractLsb' 0 32 then x.sstep reg else 0) ∧
      (∀ r, e = some r → domCount v ≠ 0 → r.members ≠ [] → domId v ≠ domId x.domt → s.hub.domains.length < 4096 →
        ∃ d, t.domRec (s.partOf c) (domId v) = some d ∧ d.members = r.members ∧ d.parent = r.parent.map (·.toNat)))) ∧
  (∀ (a : PeerAccess) (s : State), (∀ b ∈ s.accs, b.id < s.nextId) →
    (s.namesPackage a.pkg = false → exec (.peerAccess a) s = .next s) ∧
    (s.namesPackage a.pkg = true →
      (hbmSize < a.addr + peerLen a.op → exec (.peerAccess a) s =
        .next (s.modReplies fun r => { r with errors := r.errors ++ [.peerAccess a.pkg a.addr] })) ∧
      (a.addr + peerLen a.op ≤ hbmSize → ∃ t, exec (.peerAccess a) s = .next t ∧
        s.gains t (.peerPkg a.pkg a.agent) a.page (peerKind a.op) (piecesOf a.addr (peerLen a.op))
          fun k => (peerData a.op).getD k (0, false)))) ∧
  (∀ (addr len : Nat) (data : List Byte) (v : Word) (s : State), (∀ b ∈ s.accs, b.id < s.nextId) →
    (addr + len ≤ hbmSize → s.cfg.recordOk = true →
      let u : State := { s with freeCount := s.freeCount + 1 }
      let refused := (s.hub.parts.any fun p => p.2.defined && p.2.tenant) && Config.hostRefuses s.freeCount addr len
      (refused = true → exec (.hostMemRead addr len) s = .next u) ∧
      (refused = false → ∃ t, exec (.hostMemRead addr len) s = .next t ∧
        u.gains t .host .uo .read (piecesOf addr len) fun _ => (0, false))) ∧
    (addr + data.length ≤ hbmSize → s.cfg.recordOk = true →
      let u : State := { s with freeCount := s.freeCount + 1 }
      ∃ t, exec (.hostMemWrite addr data) s = .next (if Config.hostRefuses s.freeCount addr data.length then
          u.modCounts fun n => { n with hostDrops := satAdd32 n.hostDrops 1 } else t) ∧
        u.gains t .host .uo .write (piecesOf addr data.length) fun k => (data.getD k 0, false)) ∧
    (addr % 8 = 0 → addr + 8 ≤ hbmSize → s.firmwareRuns = true → ∃ t, exec (.firmwareStore addr v) s = .next t ∧
      (∀ k < 8, t.hbm.read (addr + k) = v.extractLsb' (8 * k) 8) ∧
      (∀ x, x < addr ∨ addr + 8 ≤ x → t.hbm.read x = s.hbm.read x) ∧ { t with hbm := s.hbm } = s)) ∧
  (∀ (src dst len : Nat) (s : State), s.firmwareRuns = true → src + len ≤ hbmSize → dst + len ≤ hbmSize →
    (∀ b ∈ s.accs, b.id < s.nextId) →
    (s.hub.copy = none → exec (.pageMigrationCopy src dst len) s =
      .next (s.migrates (some { job := .page src dst len, row := 0, busy := false, writing := false, buf := [], draw := 0 }))) ∧
    (∀ r, s.hub.copy = some r → r.job = .page src dst len →
      let n := min 64 (len - 64 * r.row)
      (s.unitQuiet unitCopy = false → exec (.pageMigrationCopy src dst len) s = .next s) ∧
      (s.unitQuiet unitCopy = true →
        (n = 0 → exec (.pageMigrationCopy src dst len) s = .next (s.migrates none)) ∧
        (n ≠ 0 → r.writing = true → exec (.pageMigrationCopy src dst len) s =
          .next (s.migrates (some { r with row := r.row + 1, busy := false, writing := false, buf := [] }))) ∧
        (n ≠ 0 → r.writing = false → r.busy = true → ∃ t, exec (.pageMigrationCopy src dst len) s = .next t ∧
          (s.migrates (some { r with writing := true })).gains t (.hub unitCopy noPart) .uo .write
            (piecesOf (dst + 64 * r.row) n) fun k => Table.get r.buf (0, false) k) ∧
        (n ≠ 0 → r.writing = false → r.busy = false → ∃ t, exec (.pageMigrationCopy src dst len) s = .next t ∧
          (s.migrates (some { r with busy := true })).gains t (.hub unitCopy noPart) .uo .read
            (piecesOf (src + 64 * r.row) n) fun _ => (0, false))))) ∧
  (∀ (part : Nat) (v : Word) (s : State), s.firmwareRuns = true → bits v 0 3 = part → v.getLsbD 8 = true →
    (s.hub.tlbinv.busy.isSome = true → exec (.tlbinvGo part v) s =
      .next (s.modHub fun h => { h with tlbinv := { h.tlbinv with rej := true } })) ∧
    (s.hub.tlbinv.busy = none → exec (.tlbinvGo part v) s = .next (s.modHub fun h => { h with tlbinv :=
      { h.tlbinv with rej := h.tlbinv.rej && !v.getLsbD 62, part := part,
                      busy := some (part, (h.tlbinv.va.extractLsb' 16 39).toNat, h.tlbinv.pages) } }))) ∧
  (∀ (part : Nat) (s : State), s.firmwareRuns = true → exec (.tlbinvRejClear part) s =
    .next (s.modHub fun h => { h with tlbinv := { h.tlbinv with rej := false } })) ∧
  (∀ (part first pages : Nat) (s : State), s.hub.tlbinv.busy = some (part, first, pages) →
    (s.rangeQuiet part first pages = true → ∃ t, exec (.tlbinvComplete part) s = .next t ∧ t.hub.tlbinv.busy = none ∧
      (∀ e ∈ t.hubTlb part, e.inRange first pages = false) ∧
      ∀ p ∈ t.ctxs, s.partOf (ctxOfKey p.1) = part → ∀ st, ∀ e ∈ (p.2.str st).tlb, e.inRange first pages = false) ∧
    (s.rangeQuiet part first pages = false → exec (.tlbinvComplete part) s = .next s))

/-! ## Steps of the join unit -/

/-- 20 R366, R375 to R380, 23 R423 to R433: arrivals by port and the intake of messages, the deadlines, the scan unit with its jobs, and the
registers of the join, whose writes take effect with the end of the hub cycle. -/
def Obligations.JoinSteps : Prop :=
  (∀ (port : Nat) (m : BitVec 256) (s : State),
    let turn := port < 8 ∧ s.hub.join.lastPost = none ∧ (∀ p, s.hub.join.lastPort = some p → p ≤ port) ∧ s.flitFree port .reward
    (turn → s.hub.join.rewards.length < 1024 → exec (.rewardMessageArrival ⟨port, m⟩) s =
      .next ((s.modJoin fun j => { j with rewards := j.rewards ++ [(s.hub.time, m)], lastPort := some port }).portWaits port none)) ∧
    (turn → 1024 ≤ s.hub.join.rewards.length → exec (.rewardMessageArrival ⟨port, m⟩) s = .next (s.portWaits port (some .reward))) ∧
    (¬ turn → exec (.rewardMessageArrival ⟨port, m⟩) s = .next s)) ∧
  (∀ (part : Nat) (m : Nat × BitVec 256) (r : List (Nat × BitVec 256)) (s : State), s.intakeDue = true → s.hub.join.rewards = m :: r →
    let u := s.tookMessage r
    (s.heldMessage m.2 = true → exec (.joinMessageIntake part) s =
      .next ((s.atPhase 1).modJoin fun j => { j with held := true, intake := some s.hub.time })) ∧
    (s.heldMessage m.2 = false →
      (m.2.extractLsb' 192 64 ≠ 0 → exec (.joinMessageIntake part) s = .next (u.jcount 12 1)) ∧
      (m.2.extractLsb' 192 64 = 0 → u.findLive (msgId m.2) = none → exec (.joinMessageIntake part) s = .next (u.orphan m
        (if (window (msgId m.2)).any fun e => (u.entry e).state == .released && (u.entry e).id == msgId m.2 then 3 else 1))) ∧
      (∀ e, m.2.extractLsb' 192 64 = 0 → u.findLive (msgId m.2) = some e →
        ((u.entry e).state = .opened → exec (.joinMessageIntake part) s = .next
          (if msgStep m.2 < 4096 ∨ msgStep m.2 = 0xFFFFFFFF then u.modJoin fun j => { j with pool := j.pool ++ [m] }
            else u.orphan m 2)) ∧
        ((u.entry e).state ≠ .opened → exec (.joinMessageIntake part) s = .next (u.applyReward e m))))) ∧
  (∀ (e : Nat) (s : State), s.testsNow e →
    ((s.entry e).state = .opened → ∃ t, exec (.openDeadline e) s = .next t ∧ (t.entry e).state = .released ∧
      (t.entry e).gone = true ∧ t.jcounter 9 = satAdd32 (s.jcounter 9) 1 ∧
      t.hub.join.pool = (s.hub.join.pool.filter fun m => msgId m.2 != (s.entry e).id) ∧
      t.hub.join.dlwr = s.hub.join.dlwr +
        BitVec.ofNat 32 (s.hub.join.pool.filter fun m => msgId m.2 == (s.entry e).id).length) ∧
    ((s.entry e).state = .closed →
      (s.hub.join.mode.getLsbD 1 = false →
        exec (.closeDeadlineDrop e) s = .next (((s.atPhase 3).releaseEntry e true).jcount 7 1)) ∧
      (s.hub.join.mode.getLsbD 1 = true → ∃ t, exec (.closeDeadlineFill e) s = .next t ∧ (t.entry e).state = .complete ∧
        (t.entry e).filled = true ∧ (t.entry e).part_ = true ∧ (t.entry e).ctime = s.hub.time ∧
        (t.entry e).deadline = none ∧ t.jcounter 8 = satAdd32 (s.jcounter 8) 1))) ∧
  (∀ (e : Nat) (s : State), (s.entry e).state = .released → s.hub.join.hold ≠ 0 →
    ((s.entry e).since + s.hub.join.hold * 1200 ≤ s.hub.time →
      exec (.jholdExpiry e) s = .next (s.modEntry e fun _ => JoinEntry.init)) ∧
    (s.hub.time < (s.entry e).since + s.hub.join.hold * 1200 → exec (.jholdExpiry e) s = .next s)) ∧
  (∀ (part e : Nat) (s : State), s.episodeWaits = some e → s.nextJob = none → s.phaseOpen 4 = true →
    let u := s.atPhase 4
    let d := s.hub.join.lv - (s.entry e).version
    (s.hub.join.maxlag < d →
      exec (.scanTake part) s = .next (((u.releaseEntry e true).jcount 10 1).servedKind false)) ∧
    (d ≤ s.hub.join.maxlag →
      (∀ t, u.scan (s.episodeJob e) = (t, none) → exec (.scanTake part) s =
        .next ((t.modJoin fun j => { j with scan := some (e, d) }).servedKind false)) ∧
      (∀ t x, u.scan (s.episodeJob e) = (t, some x) →
        exec (.scanTake part) s = .next ((t.releaseEntry e true).servedKind false)))) ∧
  (∀ (part e : Nat) (d : BitVec 32) (s : State), s.hub.join.scan = some (e, d) → s.phaseOpen 4 = true →
    s.unitQuiet unitScan = true →
    ∃ t r, exec (.releaseRecordEntry part) s = .next t ∧ t.hub.join.learner = s.hub.join.learner ++ [r] ∧
      t.hub.join.scan = none ∧ (t.entry e).state = .released ∧ (t.entry e).gone = false ∧
      t.jcounter 11 = satAdd32 (s.jcounter 11) 1 ∧ r.extractLsb' 0 64 = (s.entry e).addr ∧
      (r.extractLsb' 64 16).toNat = (s.entry e).t % 2 ^ 16 ∧ r.getLsbD 80 = (s.entry e).part_ ∧
      r.getLsbD 81 = (s.entry e).filled ∧ r.extractLsb' 96 32 = d) ∧
  (∀ (n : NodeRef) (s : State), s.hub.shut = true → exec (.scanJob n) s = .next s) ∧
  (∀ (n : NodeRef) (x : NodeInfo) (s : State), s.phaseOpen 4 = true → s.hub.shut = false →
    (s.hub.join.job = none → s.hub.join.scan = none → s.nextJob = some (n, x) → s.episodeWaits = none →
      exec (.scanJob n) s = .next (((s.atPhase 4).runScanJob n).servedKind true)) ∧
    (s.hub.join.job = some n → s.unitQuiet unitScan = true → exec (.scanJob n) s = .next ((s.atPhase 4).endJob n)) ∧
    (s.hub.join.job = some n → s.unitQuiet unitScan = false → exec (.scanJob n) s = .next s)) ∧
  (∀ (v : Word) (s : State),
    (s.cfg.recordOk = true → exec (.deadLetterAck v) s = .next (s.writeLater offDlrd v)) ∧
    (s.cfg.recordOk = false → exec (.deadLetterAck v) s = .next s) ∧
    (s.firmwareRuns = true → exec .deadLetterClear s = .next ((s.writeLater offDlwr 0).writeLater offDlrd 0) ∧
      exec (.jownerWrite v) s = .next (s.writeLater offJowner v))) ∧
  (∀ (v : Word) (s : State), s.hub.later = [] →
    (s.writeLater offDlrd v).applyLater = (s.modJoin fun j => { j with dlrd := v.extractLsb' 0 32 }) ∧
    ((s.writeLater offDlwr 0).writeLater offDlrd 0).applyLater = (s.modJoin fun j => { j with dlwr := 0, dlrd := 0 }) ∧
    let t := (s.writeLater offJowner v).applyLater
    (v.extractLsb' 0 4 = s.hub.join.owner → t = s.modJoin fun j => { j with stnow := j.stbase }) ∧
    (v.extractLsb' 0 4 ≠ s.hub.join.owner → t.hub.join.owner = v.extractLsb' 0 4 ∧ t.hub.join.stnow = s.hub.join.stbase ∧
      t.hub.join.entries = [] ∧ t.hub.join.pool = [] ∧ t.hub.join.learner = [] ∧ t.hub.join.scan = none))

/-! ## Steps of the sorting office -/

/-- 20 R369 to R374: the writes of the queue registers; a packet of a served queue is taken, or rejected with its reason; behind a
FENCE that is taken the queue waits for LIVE 0; once the submissions of the hub cycle are made, packets wait for the next. -/
def Obligations.LaunchQueueSteps : Prop :=
  (∀ (part q : Nat) (v : Word) (s : State), s.cfg.recordOk = true →
    let t := v.extractLsb' 0 32
    (t - (s.queue part q).head ≤ 4096 →
      exec (.lqtailWrite part q v) s = .next (s.modQueue part q fun x => { x with tail := t })) ∧
    (4096 < t - (s.queue part q).head →
      exec (.lqtailWrite part q v) s = .next (s.modQueue part q fun x => { x with ovr := true })) ∧
    exec (.lqstatOvrClear part q v) s = .next (s.modQueue part q fun x => { x with ovr := x.ovr && !v.getLsbD 1 }) ∧
    exec (.lqerrWrite part q) s = .next (s.modQueue part q fun x => { x with errWord := 0, reason := 0, halt := false })) ∧
  (∀ (i : Nat → Nat → Instr) (op part q : Nat) (s : State), PacketRow i op →
    let x := s.queue part q
    let r := s.readPacket part q x
    (s.hub.shut = true → exec (i part q) s = .next s) ∧
    (x.fence = true → x.live ≠ 0 → exec (i part q) s = .next s) ∧
    (hdrOp x.header ≠ op → 1 ≤ hdrOp x.header → hdrOp x.header ≤ 4 → exec (i part q) s = .next s) ∧
    (∀ why, q < 64 → s.hub.shut = false → s.served part q = true → r.packetReason part x = why → why ≠ 0 →
      (hdrOp x.header = op ∨ hdrOp x.header = 0 ∨ 4 < hdrOp x.header) →
      exec (i part q) s = .next (r.packetRejected part q x why))) ∧
  (∀ (part q : Nat) (s : State), q < 64 → s.hub.shut = false → s.served part q = true →
    let x := s.queue part q
    let r := s.readPacket part q x
    let u := r.packetTaken part q x
    r.packetReason part x = 0 →
    (hdrOp x.header = 1 → exec (.launch part q) s = .next (u.startLaunch part q x.advanced (x.header.getLsbD 32))) ∧
    (hdrOp x.header = 2 → exec (.setonly part q) s = .next u) ∧
    (hdrOp x.header = 3 → exec (.packetFence part q) s = .next u) ∧
    (hdrOp x.header = 4 →
      (∀ t, u.officeWrite part (Table.get x.after 0 5) (Table.get x.after 0 6) = (t, true) → exec (.signal part q) s = .next t) ∧
      (∀ t, u.officeWrite part (Table.get x.after 0 5) (Table.get x.after 0 6) = (t, false) →
        exec (.signal part q) s = .next (t.errorRec (.signalWrite part (Table.get x.after 0 5))))))

/-- 21 R383, R390 to R402, 22 R416, R417, 02 R46 to R50: placement, the end of kernels and of control nodes, COPY nodes, nodes that run
again, promotion, reservation, and pre-emption with its exchange. The model's choices: retained regions move in the step of the exchange
(log 31), the status of a bad COPY (log 38), its die and draws (log 39), how a failing node stops its members (log 49), what an exchange
leaves and whom the next launch holds back (log 52), poison in a converting COPY (log 82), and what a refused access of a hub unit does
(log 91). -/
def Obligations.NodeSteps : Prop :=
  (∀ (n : NodeRef) (p : Placement) (s : State),
    let t := s.findProgram n
    let named := [p.members, p.second].filter fun t => !t.isEmpty
    (¬ s.placesNext n → exec (.nodePlacement n p) s = .next s) ∧
    (s.placesNext n →
      (∀ st c d, t.program n = .bad st c d → exec (.nodePlacement n p) s = .next (t.nodeFails n st c d)) ∧
      ((∀ st c d, t.program n ≠ .bad st c d) →
        (t.teamsFor n = some named → t.domainFresh n.part p.domain.toNat = true → t.domainFresh n.part (p.domain + 1).toNat = true →
          exec (.nodePlacement n p) s = .next (t.startNode n named p.domain)) ∧
        (t.teamsFor n ≠ some named → exec (.nodePlacement n p) s = .next s)))) ∧
  (∀ (n : NodeRef) (s : State),
    let x := s.nodeInfo n
    let all := [0, 1, 2, 3, 4, 5, 6, 7]
    (s.stands n .running kKernel → s.kernelDone n = false → exec (.nodeCompletion n) s = .next s) ∧
    (s.stands n .running kKernel → s.hub.shut = true → exec (.nodeCompletion n) s = .next s) ∧
    (s.stands n .running kKernel → s.kernelDone n = true → s.hub.shut = false →
      (recDual x.record = false → x.partner = none → exec (.nodeCompletion n) s = .next (s.endsNode n 0 0 all)) ∧
      (∀ c, recDual x.record = false → x.partner = some c → exec (.nodeCompletion n) s =
        .next (s.endNodes [(n, .ok 0 0 []), ({ n with node := c }, .ok 0 0 all)])) ∧
      (∀ a b, recDual x.record = true → x.sigs = [] →
        let t := s.findSigned n
        t.signature n none = .ok a → t.signature n x.scratches[0]? = .ok b →
        exec (.nodeCompletion n) s = .next (if a = b then (t.freeScratch n).endsNode n 0 a all else t.thirdRun n a b)) ∧
      (∀ a b c, recDual x.record = true → x.sigs = [a, b] → s.signature n x.scratches[1]? = .ok c →
        exec (.nodeCompletion n) s = .next (
          if c = a then ((s.suspectTeam (x.teams.getD 1 []) 64).freeScratch n).endsNode n 3 a all
          else if c = b then (((s.repair n (x.scratches.getD 0 0)).suspectTeam (x.teams.getD 0 []) 64).freeScratch n).endsNode n 3 b all
          else ((s.suspectTeam x.contexts 16).freeScratch n).failsNode n 4 0 0))) ∧
    (∀ f, s.failureOf n = some f → x.live = true → x.consumer = false → s.atUnit n = false → s.hub.shut = false →
      (s.running n = [] → x.partner = none →
        (s.leftQuiet n = true → exec (.nodeCompletion n) s = .next ((s.freeScratch n).endNode n (.fail f))) ∧
        (s.leftQuiet n = false → exec (.nodeCompletion n) s = .next s)) ∧
      (s.running n ≠ [] → (x.splice = none ∨ f.reruns = false) →
        ((∃ c ∈ s.running n, (s.member n c).atWork = true) →
          exec (.nodeCompletion n) s = .next ((s.running n).foldl (fun t c => t.stopMember n c) s)) ∧
        exec (.nodeCompletion n) s = .next (s.endFailed n f))) ∧
    (∀ f, s.failureOf n = some f → x.status = .running → x.consumer = false → x.splice.isSome = true → f.status = 1 →
      f.cause ∈ [0x0B, 0x0D] → exec (.unsplicedRerun n) s = .next (s.runAgain n))) ∧
  (∀ (n : NodeRef) (s : State),
    let r := (s.nodeInfo n).record
    let u := s.hubFind n.part (recCaddr r) 8
    (s.stands n .ready kEnd → exec (.nodeCompletion n) s = .next (s.endNode n
      { status := 0, cause := 0, detail := 0, spl := false, slots := [], failed := false, isEnd := true })) ∧
    (∀ c a, u.officeRead n.part (recCaddr r) 8 = .error (c, a) → s.stands n .ready kCond ∨ s.stands n .ready kSwitch ∨
      s.stands n .ready kLoop ∨ (s.stands n .running kLoop ∧ s.iterationOver n r = true) → exec (.nodeCompletion n) s = .next (u.failsNode n 2 c a)) ∧
    (∀ v, u.officeRead n.part (recCaddr r) 8 = .ok v →
      (s.stands n .ready kCond →
        exec (.nodeCompletion n) s = .next (u.endsNode n 0 (BitVec.ofNat 64 v) [if v = 0 then 1 else 0])) ∧
      (s.stands n .ready kSwitch → exec (.nodeCompletion n) s = .next
        (if v < 8 ∧ recSucc r v ≠ noSucc then u.endsNode n 0 (BitVec.ofNat 64 v) [v] else u.endsNode n 6 (BitVec.ofNat 64 v) [])) ∧
      (s.stands n .ready kLoop ∨ (s.stands n .running kLoop ∧ s.iterationOver n r = true) → v < 2 ^ 64 →
        let k := (u.nodeInfo n).iter
        let w := u.findBody n r
        (k = 0 → w.badNest n r = true → exec (.nodeCompletion n) s = .next (w.failsNode n 5 0 0)) ∧
        (k ≠ 0 ∨ w.badNest n r = false → exec (.nodeCompletion n) s = .next
          (if v = 0 then w.endsNode n 0 0 [2] else if k < recLmax r then w.iterate n r
            else w.endsNode n 7 (BitVec.ofNat 64 v) [2]))))) ∧
  (∀ (n : NodeRef) (s : State), s.hub.shut = true ∨ (s.hub.copy = none ∧ s.barred n = true) → exec (.copyNode n) s = .next s) ∧
  (∀ (n : NodeRef) (s : State), s.hub.copy = none → (s.nodeInfo n).status = .ready → recKind (s.nodeInfo n).record = kCopy →
    s.failureOf n = none → s.hub.shut = false → s.barred n = false →
    let a := recImage (s.nodeInfo n).record
    let u := s.hubFind n.part a 64
    (∀ c d, u.officeRead n.part a 64 = .error (c, d) → exec (.copyNode n) s = .next ((u.setCopy none).failsNode n 2 c d)) ∧
    (∀ v, u.officeRead n.part a 64 = .ok v →
      let q := copyOfDesc 0 v
      ((copyDescBad v).isSome = true ∨ copyReach q.ssp = false ∨ copyReach q.dsp = false →
        exec (.copyNode n) s = .next ((u.setCopy none).failsNode n 5 0 0)) ∧
      (copyDescBad v = none → copyReach q.ssp = true → copyReach q.dsp = true →
        (∀ c d, (List.range q.count).findSome? (u.copyFaultHub q) = some (c, d) →
          exec (.copyNode n) s = .next ((u.setCopy none).failsNode n 1 c.code d)) ∧
        ((List.range q.count).findSome? (u.copyFaultHub q) = none → ∃ t, exec (.copyNode n) s = .next t ∧
          (t.nodeInfo n).status = .running ∧ (t.nodeInfo n).startAt = u.hub.time ∧ t.hbm = u.hbm ∧ t.accs = u.accs ∧
          t.hub.copy = some { job := .node n v, row := 0, busy := false, writing := false, buf := [], draw := u.freeCount })))) ∧
  (∀ (n : NodeRef) (v : Nat) (r : CopyRun) (s : State), s.hub.copy = some r → r.job = .node n v → s.hub.shut = false →
    let q := copyOfDesc 0 v
    (s.unitQuiet unitCopy = false → exec (.copyNode n) s = .next s) ∧
    (∀ f, s.unitQuiet unitCopy = true → s.failureOf n = some f →
      exec (.copyNode n) s = .next ((s.setCopy none).failsNode n f.status f.cause f.detail)) ∧
    (s.unitQuiet unitCopy = true → s.failureOf n = none →
      (q.count ≤ r.row → exec (.copyNode n) s = .next ((s.setCopy none).endsNode n 0 0 [0, 1, 2, 3, 4, 5, 6, 7])) ∧
      (r.row < q.count → r.writing = true → exec (.copyNode n) s =
        .next (s.setCopy (some { r with row := r.row + 1, busy := false, writing := false, buf := [] }))) ∧
      (∀ c d, r.row < q.count → r.writing = false → s.copyParts n.part (if r.busy then .write else .read) 0 (q.side r.row r.busy) = .error (c, d) →
        exec (.copyNode n) s = .next (((s.noteHubMiss n.part d).setCopy none).failsNode n 2 c.code d)) ∧
      (∀ ps, r.row < q.count → r.writing = false →
        (r.busy = true → s.copyParts n.part .write 0 (q.side r.row true) = .ok ps → exec (.copyNode n) s =
          .next (((s.copyTouch n.part (q.side r.row true)).setCopy (some { r with writing := true })).postParts (.hub unitCopy n.part) .write (fun _ => .none)
            (fun k => (copyRowOut q r).getD k (0, false)) ps)) ∧
        (r.busy = false → s.copyParts n.part .read 0 (q.side r.row false) = .ok ps → exec (.copyNode n) s =
          .next (((s.copyTouch n.part (q.side r.row false)).setCopy (some { r with busy := true })).postParts (.hub unitCopy n.part) .read (fun k => .copy k)
            (fun _ => (0, false)) ps))))) ∧
  (∀ (n : NodeRef) (l : Launch) (s : State), s.launch n.part n.launch = some l →
    let x := s.nodeInfo n
    x.status = .ready → x.consumer = false → l.level x ≠ 0 →
    (x.readyAt + (x.raised + 1) * (s.part n.part).ageLimit * 1200 ≤ s.hub.time →
      exec (.agePromotion n) s = .next (s.modNode n fun y => { y with raised := y.raised + 1 })) ∧
    (s.hub.time < x.readyAt + (x.raised + 1) * (s.part n.part).ageLimit * 1200 → exec (.agePromotion n) s = .next s)) ∧
  (∀ (n : NodeRef) (s : State),
    let x := s.nodeInfo n
    s.reservation n.part = none → s.wantsTeam n x = true → x.readyAt + (s.part n.part).resLimit * 1200 < s.hub.time →
    (∀ p ∈ s.nodesOf n.part, s.wantsTeam p.1 p.2 = true → [x.readyAt, x.order] ≤ [p.2.readyAt, p.2.order]) →
    exec (.reservation n) s = .next (s.modPart n.part fun p => { p with reserved := some n, keptFor := [] })) ∧
  (∀ (part : Nat) (s : State), s.firmwareRuns = true →
    exec (.nodeBoundaryPreemption part) s = .next (s.heldBack part) ∧
    ((s.part part).urgent = none → (s.runsClass0 part = true ∨ ∃ c ∈ s.cellsOf part, (s.cell c).holdsImage = true) →
      exec (.urgentPreemption part) s = .next (s.heldBack part)) ∧
    ((s.part part).urgent = none → s.runsClass0 part = false → (∀ c ∈ s.cellsOf part, (s.cell c).holdsImage = false) →
      exec (.urgentPreemption part) s = .next (s.modPart part fun p => { p with urgent := some s.hub.time }))) ∧
  (∀ (part : Nat) (s : State),
    (∀ u, (s.part part).urgent = some u →
      (u + (s.part part).urgLimit * 1200 ≤ s.hub.time → (∃ c ∈ s.cellsOf part, s.cellHeld c = false) →
        exec (.urgentLimitExpiry part) s = .next (s.heldBack part)) ∧
      (s.hub.time < u + (s.part part).urgLimit * 1200 → exec (.urgentLimitExpiry part) s = .next s))) ∧
  (∀ (part : Nat) (s : State), (s.part part).urgent.isSome = true →
    ((∃ n ∈ s.cellsOf part, s.cellHeld n = false) → exec (.shadowExchange part) s = .next s) ∧
    ((∀ n ∈ s.cellsOf part, s.cellHeld n = true) → (∀ n ∈ s.cellsOf part, (s.cell n).shadow = none) →
      ∃ t, exec (.shadowExchange part) s = .next t ∧
        (t.part part).urgent = none ∧ (t.part part).parked = true ∧ (t.part part).preempted = some (s.part part).nextLaunch ∧
        ∀ n ∈ s.cellsOf part, ∃ i, (t.cell n).shadow = some i ∧ i.power = false ∧ i.cb = (s.cell n).cb ∧
          i.a = (s.ctx { cell := n, bank := .a }).parked ∧ i.b = (s.ctx { cell := n, bank := .b }).parked ∧
          i.kept = s.retained { cell := n, bank := .a } ++ s.retained { cell := n, bank := .b } ∧
          (t.ctx { cell := n, bank := .a }).running = none ∧ (t.ctx { cell := n, bank := .b }).running = none)) ∧
  (∀ (part : Nat) (s : State), s.firmwareRuns = true → (s.part part).preempted.isSome = true →
    let cells := (s.cellsOf part).filter fun n => (s.cell n).holdsImage
    ((∃ n ∈ cells, s.cellFree n = false ∨ (s.cell n).testing = true) → exec (.preemptResume part) s = .next s) ∧
    ((∀ n ∈ cells, s.cellFree n = true ∧ (s.cell n).testing = false) → exec (.preemptResume part) s = .next
      (((cells.foldl (fun t n => (t.unpark n).modCell n fun l => if l.power = .c2 then { l with power := .p0 } else l) s).modPart part
        fun p => { p with preempted := none, parked := false }).wake))) ∧
  (∀ (cell : Nat) (i : Image) (s : State), (s.cell cell).shadow = some i → s.upsets = [] → i.kept = [] →
    let t := s.unpark cell
    t.ctx { cell := cell, bank := .a } = i.a ∧ t.ctx { cell := cell, bank := .b } = i.b ∧
    t.cell cell = { s.cell cell with shadow := none, cb := i.cb, ab := Memory.blank 0xFF, wb := Memory.blank 0xFF,
                                     plane0 := Memory.blank 0xFF, plane1 := Memory.blank 0xFF })

/-! ## Steps of the register window, partitions and the device -/

/-- 02 R22, R29, 14 R263, 26 R455, R457, 27 R459, R462, R463, R466, R468, R472, R474, R476: the registers of the window, cell modes
and records, partitions, and the resets. The model's choices: HBM after a reset (log 4), the record of the device (log 6), the offsets
of counters that no table gives (log 36), MBZ bits of CELLMODE (log 44), a disabled cell stays at STATE 3 (log 45), but at 2 after a
firmware failure (log 81), read-only places (log 57), and records and TLBs at a reset or a move (log 58). -/
def Obligations.RegisterAndPartitionSteps : Prop :=
  (∀ (i : Instr) (s : State), FirmwareStep i → s.firmwareRuns = false → exec i s = .next s) ∧
  (∀ (cell : Nat) (v : Word) (s : State), cell < 256 → s.firmwareRuns = true →
    let m := v.extractLsb' 0 2
    let u := if v.extractLsb' 2 62 = 0 then s else s.modCounts fun n => { n with fwErrors := satAdd32 n.fwErrors 1 }
    (2 ≤ m.toNat → exec (.cellmodeWrite cell v) s = .next u) ∧
    (m.toNat < 2 → s.cellIdle cell = true →
      exec (.cellmodeWrite cell v) s = .next (u.modCell cell fun l => { l with mode := m, modeHeld := none })) ∧
    (m.toNat < 2 → s.cellIdle cell = false →
      exec (.cellmodeWrite cell v) s = .next (u.modCell cell fun l => { l with modeHeld := some m }))) ∧
  (∀ (cell : Nat) (m : BitVec 2) (s : State), (s.cell cell).modeHeld = some m →
    (s.cellIdle cell = true → exec (.cellmodeHeldApply cell) s = .next (s.modCell cell fun l =>
      { l with mode := if m = 0 ∨ m = 1 then m else l.mode, modeHeld := none })) ∧
    (s.cellIdle cell = false → exec (.cellmodeHeldApply cell) s = .next s)) ∧
  (∀ (cell : Nat) (v : Word) (s : State), cell < 256 → s.firmwareRuns = true → ∃ t, exec (.reliabilityStateWrite cell v) s = .next t ∧
    let st := if v.extractLsb' 16 2 = 3 ∨ (s.cell cell).state = 3 then (s.cell cell).state else v.extractLsb' 16 2
    (t.cell cell).state = st ∧ (t.cell cell).tests = v.extractLsb' 32 32 ∧
      (t.cell cell).score = (if (s.cell cell).state = 2 ∧ st = 0 then 0 else (v.extractLsb' 0 16).toNat) ∧
      (2 ≤ st.toNat → (t.cell cell).security = .fenced)) ∧
  (∀ (w : HubWrite) (s : State),
    (w.host = true → ((placeOf w.off).hostMay = false ∨ s.cfg.recordOk = false) → exec (.registerWrite w) s = .next s) ∧
    (w.host = false → s.firmwareRuns = true → ∀ c, counterOf w.off = some c → exec (.registerWrite w) s =
      .next (if w.val = 0 then s.clearCounter c else s)) ∧
    (w.host = false → s.firmwareRuns = true → ∀ n < 8,
      (w.off = 0x100000 + 0x10000 * n → exec (.registerWrite w) s =
        .next (s.modHub fun h => { h with ptroot := Table.set h.ptroot n (w.val &&& 0xFFFF_FFFF_FFFF_0000#64) })) ∧
      (∀ k ∈ [0x08, 0x10, 0x18, 0x20, 0x40, 0x48], w.off = 0x100000 + 0x10000 * n + k →
        exec (.registerWrite w) s = .next (s.writeLater w.off w.val))) ∧
    (w.host = false → s.firmwareRuns = true → 0x10000 ≤ w.off → w.off < 0x20000 → w.off % 8 = 0 →
      exec (.registerWrite w) s = .next (s.writeLater w.off w.val)) ∧
    (s.firmwareRuns = true ∨ w.host = true ∧ s.cfg.recordOk = true → ∀ n < 8, w.off = 0x100058 + 0x10000 * n → exec (.registerWrite w) s =
      .next (s.modPart n fun p => { p with crrd := w.val.extractLsb' 0 32 })) ∧
    (s.firmwareRuns = true ∨ w.host = true ∧ s.cfg.recordOk = true → ∀ n < 8, ∀ q < 64, ∀ k < 4096, w.off = 0x2000000 + 0x400000 * n + 0x10000 * q + 0x8000 + 8 * k →
      exec (.registerWrite w) s = .next (s.modQueue n q fun x => { x with ring := Table.put x.ring 0 k w.val }))) ∧
  (∀ (n : Nat) (v : Word) (s : State), n < 8 → s.hub.later = [] →
    let low := (v.extractLsb' 0 32).toNat
    let at_ (k : Nat) : State := (s.writeLater (0x100000 + 0x10000 * n + k) v).applyLater
    at_ 0x08 = (s.modPart n fun p => { p with linkmode := v.extractLsb' 0 2 }) ∧
    at_ 0x10 = (s.modPart n fun p => { p with ageLimit := max 10 (min 1000000 low) }) ∧
    at_ 0x18 = (s.modPart n fun p => { p with resLimit := max 10 (min 1000000 low) }) ∧
    at_ 0x20 = (s.modPart n fun p => { p with urgLimit := max 1 (min 10000 low) }) ∧
    at_ 0x40 = (s.modPart n fun p => { p with crbase := v &&& 0x000F_FFFF_FFFF_FFF0#64 }) ∧
    (∀ k ≤ 8, v.extractLsb' 0 17 = BitVec.ofNat 17 (2 ^ (8 + k)) → at_ 0x48 = (s.modPart n fun p => { p with crsize := 2 ^ (8 + k) })) ∧
    (s.writeLater 0x10048 v).applyLater = (s.modJoin fun j => { j with hold := low })) ∧
  (∀ (part : Nat) (s : State), s.firmwareRuns = true →
    (∃ t, exec (.partitionReset part) s = .next t ∧ (t.part part).preempted = none ∧ (t.part part).urgent = none ∧
      (∀ n ∈ s.cellsOf part, ((s.cell n).shadow = none → (t.cell n).shadow = none ∧ (t.cell n).cb = (s.cell n).cb) ∧
        ∀ i, (s.cell n).shadow = some i →
          (i.power = true → ∃ j, (t.cell n).shadow = some j ∧ j.power = true ∧ j.cb = i.cb ∧ j.a.hold = .finished ∧ j.b.hold = .finished) ∧
          (i.power = false → (t.cell n).shadow = none ∧ (t.cell n).cb = if s.cellFree n then i.cb else (s.cell n).cb)) ∧
      (∀ n ∈ s.runningNodes part, s.failureOf n = none → ∃ f, t.failureOf n = some f ∧ f.status = 2 ∧ f.cause = 0) ∧
      ∀ c ∈ s.contextsOf part, (t.ctx c).hold = .finished ∧ (t.ctx c).dq = [] ∧ (t.ctx c).vq = [] ∧ (t.ctx c).chan = [] ∧
        (t.ctx c).flights = [] ∧ (t.ctx c).ops = [] ∧ (t.ctx c).tokens = List.replicate 16 0 ∧ (t.ctx c).cut = none) ∧
    (∃ t, exec (.capabilityFault part) s = .next t ∧ t.hub.replies.errors = s.hub.replies.errors ++ [.capability part] ∧
      t.hub.replies.vectors = s.hub.replies.vectors ++ [512])) ∧
  (∀ (part : Nat) (s : State), s.firmwareRuns = true → exec (.partitionReset part) s = .next (s.resetPart part) ∧
    exec (.capabilityFault part) s = .next ((s.errorRec (.capability part)).resetPart part)) ∧
  (∀ (cell part : Nat) (s : State), s.firmwareRuns = true → cell < 256 → (s.part part).defined = true → s.mayMove cell = true →
    ∃ t, exec (.cellRepartition cell part) s = .next t ∧ (t.cell cell).part = some part ∧ (t.cell cell).cache = [] ∧
      ∀ k, (t.ctx { cell := cell, bank := k }).part = BitVec.ofNat 4 part ∧ (t.ctx { cell := cell, bank := k }).slots = [] ∧
        (t.ctx { cell := cell, bank := k }).tables = [] ∧
        ∀ st, ((t.ctx { cell := cell, bank := k }).str st).tlb = []) ∧
  (∀ (p : PartitionSpec) (s : State), s.firmwareRuns = true → p.part < 8 → (s.part p.part).defined = false → (p.tenant = true → p.imageOk = true) →
    (∀ n ∈ p.cells, n < 256 ∧ s.mayMove n = true) → ∃ t, exec (.partitionCreation p) s = .next t ∧
      (t.part p.part).defined = true ∧ (t.part p.part).tenant = p.tenant ∧ Table.get t.hub.debug 0 p.part = 0 ∧
      ∀ n ∈ p.cells, (t.cell n).part = some p.part) ∧
  (∀ (cell : Nat) (s : State), s.firmwareRuns = true → s.tenantCell cell = true → s.cellFree cell = true →
    ∃ t, exec (.leaveTenant cell) s = .next t ∧ (t.cell cell).part = none ∧ (t.cell cell).shadow = none ∧
      (t.cell cell).security = (if (s.cell cell).security = .fenced then .fenced else .openState) ∧
      (t.cell cell).wb = Memory.blank 0 ∧ (t.cell cell).ab = Memory.blank 0 ∧ (t.cell cell).cb = Memory.blank 0 ∧
      (∀ k, (t.ctx { cell := cell, bank := k }).slots = [] ∧ (t.ctx { cell := cell, bank := k }).tables = []) ∧
      ∀ i r, (s.cell cell).shadow = some i → i.a.running = some r ∨ i.b.running = some r → (t.failureOf r.node).isSome = true) ∧
  (∀ (cfg : DeviceConfig) (s : State), ∃ t, exec (.deviceReset cfg) s = .next t ∧ t.ctxs = [] ∧ t.dies = [] ∧ t.accs = [] ∧
    t.cfg = cfg ∧ t.hostMem = s.hostMem ∧ (cfg.keepHbm = true → t.hbm = s.hbm) ∧ t.hub.parts = [] ∧ t.hub.time = 0 ∧
    ∀ n < 256, (t.cell n).state = (if (cfg.recordOk && cfg.firmwareOk) = false then 2 else if n ∈ cfg.disabled then 3 else 0) ∧
      (t.cell n).ab = Memory.blank 0) ∧
  (∀ (cell : Nat) (s : State), cell < 256 → exec (.hubLinkChecksumRetry cell) s =
    .next (s.modCell cell fun l => { l with score := min (l.score + 16) 0xFFFF }))

/-- 14 R270, R271, 26 R448, R455, 27 R467 to R471, R473: the SPDM answers, debug, power states, droop, time, the suspicion scores and the
patrol scrubber. What an answer holds is free; that it comes is not. The model's choices: the nonce (log 35), the values of answers
(log 43), the targeted test (log 59), which units go bad (log 60), resume and step (log 62), refused power requests (log 63), measurement
indexes (log 64), the decay tick (log 66), the phase of TSTAMP (log 70), and an image with a bad unit fails both nodes (log 83). -/
def Obligations.DeviceSteps : Prop :=
  (∀ (slot off len index : Nat) (nonce : BitVec 256) (code : BitVec 8) (s : State),
    exec .getVersion s = .next (s.answers .version) ∧
    exec .getCapabilities s = .next (s.answers .capabilities) ∧
    exec .negotiateAlgorithms s = .next (s.answers .algorithms) ∧
    (∃ d, exec .getDigests s = .next (s.answers (.digests d))) ∧
    (∃ bs, bs.length = len ∧ exec (.getCertificate slot off len) s = .next (s.answers (.certificate slot bs))) ∧
    (∃ g, exec (.challenge nonce) s = .next (s.answers (.challengeAuth nonce g))) ∧
    (∃ vs g, exec (.getMeasurements index nonce) s = .next (s.answers (.measurements nonce vs g)) ∧
      vs.map (·.1) = (List.range 12).filter fun i => i != 0 && (i == index || index == 255)) ∧
    exec (.spdmUnsupported code) s = .next (s.answers (.unsupported code))) ∧
  (∀ (t : DebugToken) (s : State),
    exec (.debugToken t) s = .next (if t.part < 8 ∧ t.nonce = Config.nonce s.hub.nonces ∧ Config.tokenVerifies t = true then
      s.modHub fun h => { h with debug := Table.set h.debug t.part 2, nonces := h.nonces + 1 }
      else s.modCounts fun n => { n with badTokens := n.badTokens + 1 })) ∧
  (∀ (part : Nat) (v : BitVec 2) (s : State), s.firmwareRuns = true → part < 8 →
    (v ≠ 3 → ((s.part part).tenant = true → v ≠ 2) → exec (.debugStateSet part v) s =
      .next (s.modHub fun h => { h with debug := Table.set h.debug part v })) ∧
    ((s.part part).tenant = true → exec (.debugStateSet part 2) s = .next s)) ∧
  (∀ (cell : Nat) (s : State),
    (s.debugGranted cell = false → exec (.debugHaltRequest cell) s = .next s) ∧
    (s.debugGranted cell = true → s.hub.sleep = false → (s.cell cell).power ≠ .c2 → exec (.debugHaltRequest cell) s =
      .next (s.modCell cell fun l =>
        { l with halted := true, stepping := false, power := if l.power = .c1 then .p0 else l.power })) ∧
    (s.debugHolds cell = false → ∀ one, exec (.debugResume cell one) s = .next s) ∧
    (s.debugHolds cell = true →
      (s.debugGranted cell = false → exec (.debugResume cell true) s = .next s) ∧
      (s.debugGranted cell = true →
        ∃ t, exec (.debugResume cell true) s = .next t ∧ (t.cell cell).halted = true ∧ (t.cell cell).stepping = true) ∧
      ((s.cell cell).powerReq = none → ∃ t, exec (.debugResume cell false) s = .next t ∧ (t.cell cell).halted = false ∧
        (t.cell cell).stepping = false ∧ ∀ k, (s.ctx { cell := cell, bank := k }).hold = .debug →
          (t.ctx { cell := cell, bank := k }).hold = .free ∧
          ∀ st, ((t.ctx { cell := cell, bank := k }).str st).pc = ((s.ctx { cell := cell, bank := k }).str st).tpc))) ∧
  (∀ (part cell k : Nat) (s : State),
    (s.hub.sleep = true → s.debugCounter part cell k = some (.inl 0xDEADC003)) ∧
    (s.hub.sleep = false → (s.cell cell).power = .c2 → s.debugCounter part cell k = some (.inl 0xDEADC002)) ∧
    (s.hub.sleep = false → (s.cell cell).power ≠ .c2 →
      (s.countersGranted part cell = true → s.debugCounter part cell k = some (.inr (Table.get (s.cell cell).evc 0 k))) ∧
      (s.countersGranted part cell = false → s.debugCounter part cell k = none)) ∧
    (Table.get s.hub.debug 0 part = 0 → s.countersGranted part cell = false) ∧
    ((s.part part).tenant = true → (s.cell cell).part ≠ some part → s.countersGranted part cell = false) ∧
    ((s.cell cell).security = .fenced → s.traceGranted part cell = false)) ∧
  (∀ (cell : Nat) (s : State), s.firmwareRuns = true → cell < 256 →
    (s.debugHolds cell = true → exec (.powerP1 cell) s = .next (s.modCell cell fun l => { l with powerReq := some .p1 }) ∧
      exec (.powerC1 cell) s = .next (s.modCell cell fun l => { l with powerReq := some .c1 }) ∧
      exec (.powerC2 cell) s = .next (s.modCell cell fun l => { l with powerReq := some .c2 })) ∧
    (s.debugHolds cell = false →
      ((s.cell cell).power ≠ .c2 → exec (.powerP1 cell) s = .next (s.powered cell .p1) ∧
        (s.cellFree cell = true → exec (.powerC1 cell) s = .next (s.powered cell .c1)) ∧
        (s.cellFree cell = false → exec (.powerC1 cell) s = .next s) ∧
        ((∀ c ∈ ctxsOf cell, s.atRest c = true) → (s.cell cell).shadow = none →
          exec (.powerC2 cell) s = .next ((s.park cell true).powered cell .c2)) ∧
        ((∃ c ∈ ctxsOf cell, s.atRest c = false) → exec (.powerC2 cell) s = .next s) ∧
        exec (.powerWake cell) s = .next ((s.modHub fun h => { h with sleep := false }).powered cell .p0)) ∧
      ((s.cell cell).power = .c2 → ∀ i, (s.cell cell).shadow = some i → i.power = true → ∃ t,
        exec (.powerWake cell) s = .next t ∧ (t.cell cell).power = .p0 ∧ (t.cell cell).shadow = none ∧ t.hub.sleep = false ∧
        (s.imageBad cell = false → (t.cell cell).cb = i.cb ∧
          t.ctx { cell := cell, bank := .a } = i.a ∧ t.ctx { cell := cell, bank := .b } = i.b) ∧
        (s.imageBad cell = true → ∀ r, i.a.running = some r ∨ i.b.running = some r → (t.failureOf r.node).isSome = true)))) ∧
  (∀ (s : State),
    (s.firmwareRuns = true → (∀ n < 256, (s.cell n).power = .c1 ∨ (s.cell n).power = .c2) → exec .powerC3 s = .next (s.modHub fun h => { h with sleep := true })) ∧
    ((∃ n < 256, (s.cell n).power = .p0 ∨ (s.cell n).power = .p1) → exec .powerC3 s = .next s) ∧
    (s.hub.tstamp ≠ BitVec.ofNat 64 (s.hub.time / 2) →
      exec .tstampTick s = .next (s.modHub fun h => { h with tstamp := h.tstamp + 1 })) ∧
    (s.hub.tstamp = BitVec.ofNat 64 (s.hub.time / 2) → exec .tstampTick s = .next s) ∧
    (s.hub.decay = false → s.hub.decays < s.hub.tstamp.toNat / 600000 →
      exec .suspicionDecay s = .next (s.modHub fun h => { h with decay := true })) ∧
    (s.hub.decay = true ∨ s.hub.tstamp.toNat / 600000 ≤ s.hub.decays → exec .suspicionDecay s = .next s) ∧
    (s.hub.decay = true → s.applyDecay.hub.decays = s.hub.decays + 1 ∧ s.applyDecay.hub.decay = false ∧
      ∀ n, (s.applyDecay.cell n).score = (s.cell n).score - 1) ∧
    (s.hub.decay = false → s.applyDecay = s)) ∧
  (∀ (cell : Nat) (s : State),
    (cell < 256 → (s.die (dieOf cell)).droopEn = true → exec (.droopAlarm [cell]) s =
      .next (s.modCell cell fun l => { l.count 14 1 with stretch := 6, halfRate := 65 })) ∧
    ((s.die (dieOf cell)).droopEn = false → exec (.droopAlarm [cell]) s = .next s) ∧
    ((s.cell cell).stretch = 0 → (s.cell cell).halfRate = 1 → exec (.droopHalfRateEnd cell) s =
      .next (s.modCell cell fun l => { l with halfRate := 0 })) ∧
    ((s.cell cell).state = 1 → (s.cell cell).testing = false → s.cellIdle cell = true → exec (.targetedTestStart cell) s =
      .next (s.modCell cell fun l => { l with testing := true }))) ∧
  (∀ (cell : Nat) (fails : List Bool) (s : State), (s.cell cell).testing = true → ∃ t,
    exec (.targetedTestEnd cell fails) s = .next t ∧ (t.cell cell).testing = false ∧
    (t.cell cell).tests = (s.cell cell).tests + 1 ∧
    (true ∈ fails → (t.cell cell).state = 2 ∧ (t.cell cell).security = .fenced ∧
      t.hub.counts.testFails = s.hub.counts.testFails + 1) ∧
    (true ∉ fails → (s.cell cell).score ≤ 0xFFFF → (t.cell cell).score = (s.cell cell).score / 2 ∧
      (t.cell cell).state = if (s.cell cell).state ≠ 1 then (s.cell cell).state else if 256 ≤ (s.cell cell).score / 2 then 1 else 0)) ∧
  (∀ (unit : Nat) (s : State), 8 * unit < hbmSize → s.hub.sleep = false →
    let here (u : Upset) : Bool := u.mem == .hbm && u.unit == unit
    let r : State := { s with upsets := s.upsets.filter fun u => !here u }
    (s.upsets.filter here = [] → exec (.scrubPatrol unit) s = .next s) ∧
    (∀ u, s.upsets.filter here = [u] → u.double = false →
      exec (.scrubPatrol unit) s = .next (r.modCounts fun n => { n with corrected := satAdd32 n.corrected 1 })) ∧
    (∀ u, s.upsets.filter here = [u] → u.double = true → exec (.scrubPatrol unit) s = .next
      ({ r with hbm := s.hbm.poison (8 * unit) }.modCounts fun n => { n with uncorrected := satAdd32 n.uncorrected 1 }))) ∧
  (∀ (unit : Nat) (s : State), s.hub.sleep = true → exec (.scrubPatrol unit) s = .next s)

/-! ## All words -/

/-- 04 R83, R85: a word whose guard is false pops nothing, pushes nothing, starts nothing and does not trap: it retires, and the stream goes
on to its next word; a NOP with a guard is one of them. The guard form of a V word is ps0 to ps7. Such a V word of FALU, FSPEC, CVT or VRED
has issued, so event counter 8 counts it (26 R450). -/
def Obligations.FalseGuardsRetire : Prop :=
  ∀ (i : Instr) (st : Stream) (g : BitVec 4) (n : Nat) (s : State), GuardRow i st g n → s.curSt = st →
    (st = .v → 8 ≤ g.toNat) → s.predKnown g.toNat = true → (s.ctx s.cur).cond g.toNat = false →
    (¬ CountedRow i → exec i s = .next (s.retired n)) ∧ (CountedRow i → exec i s = .next ((s.countedEvent 8).retired n))

/-- 06 R125 to R127: an operand that is missing makes a register-register word wait while pushes are pending, else it traps QUND; a
push beyond the depth traps QOVF. Neither has any other effect. -/
def Obligations.OperandChecks : Prop :=
  ∀ (i : Instr) (o : SR) (lat : Nat) (f : Word → Word → Word) (s : State), AluRow i o lat f → s.guardOpen o.g = true →
    let rs := [(sRef o.a, o.ka), (sRef o.b, o.kb)]
    let c := s.ctx s.cur
    let lacks (q : QRef) : Prop := q ≠ .zero ∧ q.isChan = false ∧ c.entries q + c.pendingQ q < needOf q 0 rs
    let locks (q : QRef) : Prop := q ≠ .zero ∧ q.isChan = false ∧ c.entries q < needOf q 0 rs ∧
      needOf q 0 rs ≤ c.entries q + c.pendingQ q
    (lacks (sRef o.a) → exec i s = .next (s.trapped .qund (sRef o.a).code)) ∧
    (locks (sRef o.a) → exec i s = .next (s.waitsAt .lock)) ∧
    (c.holds rs (sRef o.a) = true → lacks (sRef o.b) → exec i s = .next (s.trapped .qund (sRef o.b).code)) ∧
    (c.holds rs (sRef o.a) = true → locks (sRef o.b) → exec i s = .next (s.waitsAt .lock)) ∧
    (c.readable rs = true → (sRef o.d).isChan = false → (((s.entered o.g).tookAll rs).ctx s.cur).room (sRef o.d) = false →
      exec i s = .next (s.trapped .qovf (sRef o.d).code))

/-- 07 R146 to R152: what the register words of S leave unchanged when they retire. Only a divide may change `STATUS`; only the
queues that a word reads lose entries; results are still in flight. -/
def Obligations.RegisterWordsFrame : Prop :=
  ∀ (i : Instr) (qs : List QRef) (s t : State), RegisterRow i qs → s.curSt = .s → (s.ctx s.cur).hnd = false →
    exec i s = .next t → t.lastIssue = .retired →
    let x := s.ctx s.cur
    let y := t.ctx s.cur
    SameDevice s t s.cur ∧ SameRegisters x y ∧
    ((∀ o f, ¬ DivRow i o f) → y.status = x.status) ∧ (y.status = x.status ∨ y.status = x.status ||| 1) ∧
    (∀ k, QRef.loc k ∉ qs → Table.get y.dq [] k = Table.get x.dq [] k) ∧
    (∀ n, QRef.chan n ∉ qs → Table.get y.chan [] n = Table.get x.chan [] n)

/-! ## Decoding, stepping, reset -/

/-- 04 R81, R82, R83 to R96: words written out from the layouts decode to the instructions that they stand for. -/
def Obligations.WordsOfTheSpecDecode : Prop :=
  decodeWords .s 0x02308920 0 = .add { j := false, d := 3, a := 1, ka := false, b := 2, kb := true, g := 2 } ∧
  decodeWords .s 0x1C40FFFE 0 = .li { j := false, d := 4, g := 0, imm := 0xFFFE } ∧
  decodeWords .s 0x2E37FFFC 0 = .bnz { j := false, a := 3, ka := false, off := -4 } ∧
  decodeWords .s 0x3851_9000 0x0E10_0000 =
    .amoAdd { j := false, d := 5, a := 3, ka := false, b := 4, kb := false, g := 0 }
      { obs := 1, ord := 3, c := 1, kc := false } ∧
  decodeWords .v 0x06624040 0 = .fadd { j := false, d := 3, a := 1, ka := false, b := 2, kb := false, gm := 0, et := 2 } ∧
  decodeWords .m 0x02000003 0 = .mfmt { j := false, a := 0, b := 0, c := 0, k1 := false, k2 := false, k3 := false, g := 0, mode := 3 } ∧
  decodeWords .x 0x04800000 0 = .xcpy2 { j := false, a := 4, b := 0, c := 0, k1 := false, k2 := false, k3 := false, g := 0, mode := 0 } ∧
  decodeWords .s 0x00000001 0 = .illegalWord 0x00000001

/-- 04 R81 to R96: the decoder gives back every well-formed instruction from the words that the encoder writes for it, whatever its
operands. -/
def Obligations.DecodeGivesBackEncode : Prop :=
  ∀ (st : Stream) (i : Instr) (ws : List (BitVec 32)), i.wf = true → encode st i = some ws →
    ws.length = i.words ∧ decodeWords st (ws.getD 0 0) (ws.getD 1 0) = i

/-- 02 R23, R24, R27, 04 R81, R82, R98, 12 R248: a step in which a stream may try its word runs the instruction that the bytes at its pc
decode to, and the issue logic then closes the slot; in a handler it does so too, except that a word with J = 1, GFENCE, BSYNC and LOOPM
are double traps. A word with J = 1 outside a handler waits until all four streams stand at one, and then the four words run in slot order
in one step: all of them issue, or none (where one word traps and a later one waits, the first decides: the model's choice, log 93); a
LOOPM runs after the three NOPs beside it, and beside another word it runs as a word that traps. A fetch that fails traps. A step of rows
272 to 372 runs that row. -/
def Obligations.StepRunsTheDecodedWord : Prop :=
  (∀ (s : State) (c : CtxRef) (st : Stream) (r : List Pick) (w : BitVec 32) (i : Instr), s.agenda = .issue c st :: r →
    let u : State := { s with agenda := r }
    let v := u.touchCode c st
    u.triesWord c st → v.standsAt c st w i →
    ((if (u.ctx c).hnd then barredInHandler w i = false else bitOf w 31 = false) →
      step s = match exec i { v with cur := c, curSt := st, curFwd := v.forwardAt ((u.ctx c).str st).pc } with
        | .next t => .next (t.afterWord c st ((v.ctx c).slots0 == 0))
        | .fault e => .fault e
        | .refused e => .refused e) ∧
    ((u.ctx c).hnd = true → barredInHandler w i = true →
      step s = .next (v.fetchTraps c { cause := .illop, addr := zext64 w, st := st, async := false }))) ∧
  (∀ (s : State) (c : CtxRef) (st : Stream) (r : List Pick) (x : Trap), s.agenda = .issue c st :: r →
    let u : State := { s with agenda := r }
    let v := u.touchCode c st
    u.triesWord c st → v.fetch c st = .error x → step s = .next (v.fetchTraps c x)) ∧
  (∀ (s : State) (c : CtxRef) (st : Stream) (r : List Pick) (w : BitVec 32) (i : Instr), s.agenda = .issue c st :: r →
    let u : State := { s with agenda := r }
    let v := u.touchCode c st
    u.triesWord c st → (u.ctx c).hnd = false → v.standsAt c st w i → bitOf w 31 = true →
    (∀ ws is, ¬ v.allJoined c ws is) → step s = .next (v.noted .waiting)) ∧
  (∀ (s : State) (c : CtxRef) (st : Stream) (r : List Pick) (w : Stream → BitVec 32) (i : Stream → Instr),
    s.agenda = .issue c st :: r →
    let u : State := { s with agenda := r }
    let v := u.touchCode c st
    u.triesWord c st → (u.ctx c).hnd = false → v.allJoined c w i →
    let ws := v.joined c w i
    let b := (v.modCtx c Ctx.clearHalts).raiseFences c ws
    ((∀ q o, i q ≠ .loopm o) →
      (∀ t, b.ranWords c ws = some t → step s = .next (t.afterBundle c (ws.any b.atGfence))) ∧
      (∀ pre p post m t, ws = pre ++ p :: post → b.ranWords c pre = some m → m.inSlot c p = .next t →
        (∀ x e, t.lastIssue = .trapped x e → step s = .next (b.bundleTraps c x e)) ∧
        (t.lastIssue = .waiting → step s = .next (b.bundleWaits c p (ws.all fun q => q.2.isHalt))))) ∧
    (∀ o, i .s = .loopm o → (∀ q, q ≠ .s → ∃ j g, i q = .nop j g) →
      ∀ m t p, ws.head? = some p → b.ranWords c (ws.drop 1) = some m → { m with nops := true }.inSlot c p = .next t →
        (t.lastIssue = .retired → step s = .next (t.afterBundle c false)) ∧
        (∀ x e, t.lastIssue = .trapped x e → step s = .next (b.bundleTraps c x e))) ∧
    (∀ o, i .s = .loopm o → (∃ q, q ≠ .s ∧ (∀ j g, i q ≠ .nop j g) ∧ ∀ a, i q ≠ .loopm a) →
      ∀ t p x e, ws.head? = some p → b.inSlot c p = .next t → t.lastIssue = .trapped x e →
        step s = .next (b.bundleTraps c x e))) ∧
  (∀ (s : State) (i : Instr) (r : List Pick), s.agenda = .happen i :: r → i.isEvent = true →
    step s = exec i { s with agenda := r }) ∧
  (∀ (s : State) (r : List Pick), s.agenda = .clock :: r → step s = .next (State.clock { s with agenda := r })) ∧
  (∀ (s : State) (e : Upset) (r : List Pick), s.agenda = .upset e :: r →
    step s = .next { s with agenda := r, upsets := s.upsets ++ [e] })

/-- 06 R140, 14 R476, 22 R411, 23 R423, 27 R474: the values that the spec gives for reset. -/
def Obligations.ResetState : Prop :=
  (∀ c, RegistersAtReset (State.reset.ctx c)) ∧ (∀ n, CellAtReset (State.reset.cell n)) ∧
  (∀ n, (State.reset.die n).ss = Memory.blank 0) ∧
  (∀ n, (State.reset.part n).linkmode = 1 ∧ (State.reset.part n).ageLimit = 1000 ∧ (State.reset.part n).resLimit = 10000 ∧
    (State.reset.part n).urgLimit = 100) ∧
  (State.reset.hub.join.owner = 0 ∧ State.reset.hub.join.mode = 0 ∧ State.reset.hub.join.hold = 1000000 ∧
    State.reset.hub.join.maxlag = 0 ∧ State.reset.hub.join.lv = 0)

/-- Every memory is in its canonical form after reset. -/
def Obligations.ResetKeepsTheForm : Prop := State.reset.memWf = true

/-- The headline: every step keeps every memory in its canonical form, the parked images and the scratch memories included. -/
def Obligations.StepKeepsTheForm : Prop := ∀ (s t : State), s.memWf = true → step s = .next t → t.memWf = true
end

