-- ==== Sys2Proof/Laws/Arms.lean ====
section
/-!
SUPPORT. The arms of `exec`, one lemma each.
-/
namespace Sys2Proof.Machine

@[simp] theorem exec_nop (j : Bool) (g : BitVec 4) (s : State) : exec (.nop j g) s = execNop j g s := rfl
@[simp] theorem exec_illegalWord (w : BitVec 32) (s : State) : exec (.illegalWord w) s = execIllegalWord w s := rfl
@[simp] theorem exec_halt (s : State) : exec .halt s = execHalt s := rfl
@[simp] theorem exec_trap (o : SX) (s : State) : exec (.trap o) s = execTrap o s := rfl
@[simp] theorem exec_tret (o : SX) (s : State) : exec (.tret o) s = execTret o s := rfl
@[simp] theorem exec_gfence (o : SX) (s : State) : exec (.gfence o) s = execGfence o s := rfl
@[simp] theorem exec_bsync (o : SX) (s : State) : exec (.bsync o) s = execBsync o s := rfl
@[simp] theorem exec_tstamp (o : SX) (s : State) : exec (.tstamp o) s = execTstamp o s := rfl
@[simp] theorem exec_rngd (o : SX) (s : State) : exec (.rngd o) s = execRngd o s := rfl
@[simp] theorem exec_cntr (o : SX) (s : State) : exec (.cntr o) s = execCntr o s := rfl
@[simp] theorem exec_nlaunch (o : SX) (s : State) : exec (.nlaunch o) s = execNlaunch o s := rfl
@[simp] theorem exec_lqpop (o : SX) (s : State) : exec (.lqpop o) s = execLqpop o s := rfl
@[simp] theorem exec_lqpopNb (o : SX) (s : State) : exec (.lqpopNb o) s = execLqpopNb o s := rfl
@[simp] theorem exec_lvset (o : SX) (s : State) : exec (.lvset o) s = execLvset o s := rfl
@[simp] theorem exec_epopen (o : SX) (s : State) : exec (.epopen o) s = execEpopen o s := rfl
@[simp] theorem exec_epclose (o : SX) (s : State) : exec (.epclose o) s = execEpclose o s := rfl
@[simp] theorem exec_rwpost (o : SX) (s : State) : exec (.rwpost o) s = execRwpost o s := rfl
@[simp] theorem exec_jstat (o : SX) (s : State) : exec (.jstat o) s = execJstat o s := rfl
@[simp] theorem exec_wdld (o : SX) (s : State) : exec (.wdld o) s = execWdld o s := rfl
@[simp] theorem exec_brk (o : SX) (s : State) : exec (.brk o) s = execBrk o s := rfl
@[simp] theorem exec_add (o : SR) (s : State) : exec (.add o) s = execAdd o s := rfl
@[simp] theorem exec_sub (o : SR) (s : State) : exec (.sub o) s = execSub o s := rfl
@[simp] theorem exec_and (o : SR) (s : State) : exec (.and o) s = execAnd o s := rfl
@[simp] theorem exec_or (o : SR) (s : State) : exec (.or o) s = execOr o s := rfl
@[simp] theorem exec_xor (o : SR) (s : State) : exec (.xor o) s = execXor o s := rfl
@[simp] theorem exec_andn (o : SR) (s : State) : exec (.andn o) s = execAndn o s := rfl
@[simp] theorem exec_shl (o : SR) (s : State) : exec (.shl o) s = execShl o s := rfl
@[simp] theorem exec_shr (o : SR) (s : State) : exec (.shr o) s = execShr o s := rfl
@[simp] theorem exec_sra (o : SR) (s : State) : exec (.sra o) s = execSra o s := rfl
@[simp] theorem exec_min (o : SR) (s : State) : exec (.min o) s = execMin o s := rfl
@[simp] theorem exec_max (o : SR) (s : State) : exec (.max o) s = execMax o s := rfl
@[simp] theorem exec_minu (o : SR) (s : State) : exec (.minu o) s = execMinu o s := rfl
@[simp] theorem exec_maxu (o : SR) (s : State) : exec (.maxu o) s = execMaxu o s := rfl
@[simp] theorem exec_seq (o : SR) (s : State) : exec (.seq o) s = execSeq o s := rfl
@[simp] theorem exec_slt (o : SR) (s : State) : exec (.slt o) s = execSlt o s := rfl
@[simp] theorem exec_sltu (o : SR) (s : State) : exec (.sltu o) s = execSltu o s := rfl
@[simp] theorem exec_mul (o : SR) (s : State) : exec (.mul o) s = execMul o s := rfl
@[simp] theorem exec_mulh (o : SR) (s : State) : exec (.mulh o) s = execMulh o s := rfl
@[simp] theorem exec_mulhu (o : SR) (s : State) : exec (.mulhu o) s = execMulhu o s := rfl
@[simp] theorem exec_div (o : SR) (s : State) : exec (.div o) s = execDiv o s := rfl
@[simp] theorem exec_divu (o : SR) (s : State) : exec (.divu o) s = execDivu o s := rfl
@[simp] theorem exec_rem (o : SR) (s : State) : exec (.rem o) s = execRem o s := rfl
@[simp] theorem exec_remu (o : SR) (s : State) : exec (.remu o) s = execRemu o s := rfl
@[simp] theorem exec_clz (o : SR) (s : State) : exec (.clz o) s = execClz o s := rfl
@[simp] theorem exec_ctz (o : SR) (s : State) : exec (.ctz o) s = execCtz o s := rfl
@[simp] theorem exec_popc (o : SR) (s : State) : exec (.popc o) s = execPopc o s := rfl
@[simp] theorem exec_rol (o : SR) (s : State) : exec (.rol o) s = execRol o s := rfl
@[simp] theorem exec_ror (o : SR) (s : State) : exec (.ror o) s = execRor o s := rfl
@[simp] theorem exec_addw (o : SR) (s : State) : exec (.addw o) s = execAddw o s := rfl
@[simp] theorem exec_subw (o : SR) (s : State) : exec (.subw o) s = execSubw o s := rfl
@[simp] theorem exec_sel (o : SR) (s : State) : exec (.sel o) s = execSel o s := rfl
@[simp] theorem exec_cmpEq (o : SR) (s : State) : exec (.cmpEq o) s = execCmpEq o s := rfl
@[simp] theorem exec_cmpNe (o : SR) (s : State) : exec (.cmpNe o) s = execCmpNe o s := rfl
@[simp] theorem exec_cmpLt (o : SR) (s : State) : exec (.cmpLt o) s = execCmpLt o s := rfl
@[simp] theorem exec_cmpGe (o : SR) (s : State) : exec (.cmpGe o) s = execCmpGe o s := rfl
@[simp] theorem exec_cmpLtu (o : SR) (s : State) : exec (.cmpLtu o) s = execCmpLtu o s := rfl
@[simp] theorem exec_cmpGeu (o : SR) (s : State) : exec (.cmpGeu o) s = execCmpGeu o s := rfl
@[simp] theorem exec_pand (o : SR) (s : State) : exec (.pand o) s = execPand o s := rfl
@[simp] theorem exec_por (o : SR) (s : State) : exec (.por o) s = execPor o s := rfl
@[simp] theorem exec_pxor (o : SR) (s : State) : exec (.pxor o) s = execPxor o s := rfl
@[simp] theorem exec_pandn (o : SR) (s : State) : exec (.pandn o) s = execPandn o s := rfl
@[simp] theorem exec_pnot (o : SR) (s : State) : exec (.pnot o) s = execPnot o s := rfl
@[simp] theorem exec_pset (o : SR) (s : State) : exec (.pset o) s = execPset o s := rfl
@[simp] theorem exec_pclr (o : SR) (s : State) : exec (.pclr o) s = execPclr o s := rfl
@[simp] theorem exec_addi (o : SI) (s : State) : exec (.addi o) s = execAddi o s := rfl
@[simp] theorem exec_andi (o : SI) (s : State) : exec (.andi o) s = execAndi o s := rfl
@[simp] theorem exec_ori (o : SI) (s : State) : exec (.ori o) s = execOri o s := rfl
@[simp] theorem exec_xori (o : SI) (s : State) : exec (.xori o) s = execXori o s := rfl
@[simp] theorem exec_shli (o : SI) (s : State) : exec (.shli o) s = execShli o s := rfl
@[simp] theorem exec_shri (o : SI) (s : State) : exec (.shri o) s = execShri o s := rfl
@[simp] theorem exec_srai (o : SI) (s : State) : exec (.srai o) s = execSrai o s := rfl
@[simp] theorem exec_slti (o : SI) (s : State) : exec (.slti o) s = execSlti o s := rfl
@[simp] theorem exec_muli (o : SI) (s : State) : exec (.muli o) s = execMuli o s := rfl
@[simp] theorem exec_li (o : SL) (s : State) : exec (.li o) s = execLi o s := rfl
@[simp] theorem exec_lil (o : SL) (s : State) : exec (.lil o) s = execLil o s := rfl
@[simp] theorem exec_liw (o : SL) (s : State) : exec (.liw o) s = execLiw o s := rfl
@[simp] theorem exec_lix (o : SL) (s : State) : exec (.lix o) s = execLix o s := rfl
@[simp] theorem exec_br (o : SB) (s : State) : exec (.br o) s = execBr o s := rfl
@[simp] theorem exec_bp (o : SB) (s : State) : exec (.bp o) s = execBp o s := rfl
@[simp] theorem exec_bnp (o : SB) (s : State) : exec (.bnp o) s = execBnp o s := rfl
@[simp] theorem exec_call (o : SB) (s : State) : exec (.call o) s = execCall o s := rfl
@[simp] theorem exec_bz (o : SBZ) (s : State) : exec (.bz o) s = execBz o s := rfl
@[simp] theorem exec_bnz (o : SBZ) (s : State) : exec (.bnz o) s = execBnz o s := rfl
@[simp] theorem exec_jr (o : SR) (s : State) : exec (.jr o) s = execJr o s := rfl
@[simp] theorem exec_jrl (o : SR) (s : State) : exec (.jrl o) s = execJrl o s := rfl
@[simp] theorem exec_ld (o : SM) (s : State) : exec (.ld o) s = execLd o s := rfl
@[simp] theorem exec_lds (o : SM) (s : State) : exec (.lds o) s = execLds o s := rfl
@[simp] theorem exec_st (o : SM) (s : State) : exec (.st o) s = execSt o s := rfl
@[simp] theorem exec_amoAdd (o : SR) (x1 : Ext) (s : State) : exec (.amoAdd o x1) s = execAmoAdd o x1 s := rfl
@[simp] theorem exec_amoAnd (o : SR) (x1 : Ext) (s : State) : exec (.amoAnd o x1) s = execAmoAnd o x1 s := rfl
@[simp] theorem exec_amoOr (o : SR) (x1 : Ext) (s : State) : exec (.amoOr o x1) s = execAmoOr o x1 s := rfl
@[simp] theorem exec_amoXor (o : SR) (x1 : Ext) (s : State) : exec (.amoXor o x1) s = execAmoXor o x1 s := rfl
@[simp] theorem exec_amoMin (o : SR) (x1 : Ext) (s : State) : exec (.amoMin o x1) s = execAmoMin o x1 s := rfl
@[simp] theorem exec_amoMax (o : SR) (x1 : Ext) (s : State) : exec (.amoMax o x1) s = execAmoMax o x1 s := rfl
@[simp] theorem exec_amoMinu (o : SR) (x1 : Ext) (s : State) : exec (.amoMinu o x1) s = execAmoMinu o x1 s := rfl
@[simp] theorem exec_amoMaxu (o : SR) (x1 : Ext) (s : State) : exec (.amoMaxu o x1) s = execAmoMaxu o x1 s := rfl
@[simp] theorem exec_amoSwap (o : SR) (x1 : Ext) (s : State) : exec (.amoSwap o x1) s = execAmoSwap o x1 s := rfl
@[simp] theorem exec_amoFadd (o : SR) (x1 : Ext) (s : State) : exec (.amoFadd o x1) s = execAmoFadd o x1 s := rfl
@[simp] theorem exec_cas (size : Bool) (o : SR) (x1 : Ext) (s : State) : exec (.cas size o x1) s = execCas size o x1 s := rfl
@[simp] theorem exec_fenceFull (o : SF) (s : State) : exec (.fenceFull o) s = execFenceFull o s := rfl
@[simp] theorem exec_fenceLd (o : SF) (s : State) : exec (.fenceLd o) s = execFenceLd o s := rfl
@[simp] theorem exec_fenceSt (o : SF) (s : State) : exec (.fenceSt o) s = execFenceSt o s := rfl
@[simp] theorem exec_fenceEng (o : SF) (s : State) : exec (.fenceEng o) s = execFenceEng o s := rfl
@[simp] theorem exec_movxr (o : SR) (s : State) : exec (.movxr o) s = execMovxr o s := rfl
@[simp] theorem exec_movxk (o : SR) (s : State) : exec (.movxk o) s = execMovxk o s := rfl
@[simp] theorem exec_movxw (o : SR) (s : State) : exec (.movxw o) s = execMovxw o s := rfl
@[simp] theorem exec_qcnt (o : SR) (s : State) : exec (.qcnt o) s = execQcnt o s := rfl
@[simp] theorem exec_qdrop (o : SR) (s : State) : exec (.qdrop o) s = execQdrop o s := rfl
@[simp] theorem exec_qclr (o : SR) (s : State) : exec (.qclr o) s = execQclr o s := rfl
@[simp] theorem exec_tsig (o : SR) (s : State) : exec (.tsig o) s = execTsig o s := rfl
@[simp] theorem exec_twait (o : SR) (s : State) : exec (.twait o) s = execTwait o s := rfl
@[simp] theorem exec_tpoll (o : SR) (s : State) : exec (.tpoll o) s = execTpoll o s := rfl
@[simp] theorem exec_loop (o : SLP) (s : State) : exec (.loop o) s = execLoop o s := rfl
@[simp] theorem exec_loopi (o : SLI) (s : State) : exec (.loopi o) s = execLoopi o s := rfl
@[simp] theorem exec_loopm (o : SLM) (s : State) : exec (.loopm o) s = execLoopm o s := rfl
@[simp] theorem exec_csrr (o : SC) (s : State) : exec (.csrr o) s = execCsrr o s := rfl
@[simp] theorem exec_csrw (o : SC) (s : State) : exec (.csrw o) s = execCsrw o s := rfl
@[simp] theorem exec_csrs (o : SC) (s : State) : exec (.csrs o) s = execCsrs o s := rfl
@[simp] theorem exec_csrc (o : SC) (s : State) : exec (.csrc o) s = execCsrc o s := rfl
@[simp] theorem exec_vHalt (s : State) : exec .vHalt s = execVHalt s := rfl
@[simp] theorem exec_vGfence (o : VR) (s : State) : exec (.vGfence o) s = execVGfence o s := rfl
@[simp] theorem exec_vTsig (o : VR) (s : State) : exec (.vTsig o) s = execVTsig o s := rfl
@[simp] theorem exec_vTwait (o : VR) (s : State) : exec (.vTwait o) s = execVTwait o s := rfl
@[simp] theorem exec_vTpoll (o : VR) (s : State) : exec (.vTpoll o) s = execVTpoll o s := rfl
@[simp] theorem exec_vBrk (o : VR) (s : State) : exec (.vBrk o) s = execVBrk o s := rfl
@[simp] theorem exec_vadd (o : VR) (s : State) : exec (.vadd o) s = execVadd o s := rfl
@[simp] theorem exec_vsub (o : VR) (s : State) : exec (.vsub o) s = execVsub o s := rfl
@[simp] theorem exec_vmul (o : VR) (s : State) : exec (.vmul o) s = execVmul o s := rfl
@[simp] theorem exec_vmulh (o : VR) (s : State) : exec (.vmulh o) s = execVmulh o s := rfl
@[simp] theorem exec_vmulhu (o : VR) (s : State) : exec (.vmulhu o) s = execVmulhu o s := rfl
@[simp] theorem exec_vmad (o : VR) (s : State) : exec (.vmad o) s = execVmad o s := rfl
@[simp] theorem exec_vmin (o : VR) (s : State) : exec (.vmin o) s = execVmin o s := rfl
@[simp] theorem exec_vmax (o : VR) (s : State) : exec (.vmax o) s = execVmax o s := rfl
@[simp] theorem exec_vminu (o : VR) (s : State) : exec (.vminu o) s = execVminu o s := rfl
@[simp] theorem exec_vmaxu (o : VR) (s : State) : exec (.vmaxu o) s = execVmaxu o s := rfl
@[simp] theorem exec_vabs (o : VR) (s : State) : exec (.vabs o) s = execVabs o s := rfl
@[simp] theorem exec_vand (o : VR) (s : State) : exec (.vand o) s = execVand o s := rfl
@[simp] theorem exec_vor (o : VR) (s : State) : exec (.vor o) s = execVor o s := rfl
@[simp] theorem exec_vxor (o : VR) (s : State) : exec (.vxor o) s = execVxor o s := rfl
@[simp] theorem exec_vandn (o : VR) (s : State) : exec (.vandn o) s = execVandn o s := rfl
@[simp] theorem exec_vshl (o : VR) (s : State) : exec (.vshl o) s = execVshl o s := rfl
@[simp] theorem exec_vshr (o : VR) (s : State) : exec (.vshr o) s = execVshr o s := rfl
@[simp] theorem exec_vsra (o : VR) (s : State) : exec (.vsra o) s = execVsra o s := rfl
@[simp] theorem exec_vfsl (o : VR) (s : State) : exec (.vfsl o) s = execVfsl o s := rfl
@[simp] theorem exec_vfsr (o : VR) (s : State) : exec (.vfsr o) s = execVfsr o s := rfl
@[simp] theorem exec_vclz (o : VR) (s : State) : exec (.vclz o) s = execVclz o s := rfl
@[simp] theorem exec_vpopc (o : VR) (s : State) : exec (.vpopc o) s = execVpopc o s := rfl
@[simp] theorem exec_vadds (o : VR) (s : State) : exec (.vadds o) s = execVadds o s := rfl
@[simp] theorem exec_vsubs (o : VR) (s : State) : exec (.vsubs o) s = execVsubs o s := rfl
@[simp] theorem exec_vaddsu (o : VR) (s : State) : exec (.vaddsu o) s = execVaddsu o s := rfl
@[simp] theorem exec_vsubsu (o : VR) (s : State) : exec (.vsubsu o) s = execVsubsu o s := rfl
@[simp] theorem exec_vavgu (o : VR) (s : State) : exec (.vavgu o) s = execVavgu o s := rfl
@[simp] theorem exec_vcmpEq (o : VR) (s : State) : exec (.vcmpEq o) s = execVcmpEq o s := rfl
@[simp] theorem exec_vcmpNe (o : VR) (s : State) : exec (.vcmpNe o) s = execVcmpNe o s := rfl
@[simp] theorem exec_vcmpLt (o : VR) (s : State) : exec (.vcmpLt o) s = execVcmpLt o s := rfl
@[simp] theorem exec_vcmpGe (o : VR) (s : State) : exec (.vcmpGe o) s = execVcmpGe o s := rfl
@[simp] theorem exec_vcmpLtu (o : VR) (s : State) : exec (.vcmpLtu o) s = execVcmpLtu o s := rfl
@[simp] theorem exec_vcmpGeu (o : VR) (s : State) : exec (.vcmpGeu o) s = execVcmpGeu o s := rfl
@[simp] theorem exec_vcmpFeq (o : VR) (s : State) : exec (.vcmpFeq o) s = execVcmpFeq o s := rfl
@[simp] theorem exec_vcmpFlt (o : VR) (s : State) : exec (.vcmpFlt o) s = execVcmpFlt o s := rfl
@[simp] theorem exec_vcmpFle (o : VR) (s : State) : exec (.vcmpFle o) s = execVcmpFle o s := rfl
@[simp] theorem exec_vcmpFun (o : VR) (s : State) : exec (.vcmpFun o) s = execVcmpFun o s := rfl
@[simp] theorem exec_fadd (o : VR) (s : State) : exec (.fadd o) s = execFadd o s := rfl
@[simp] theorem exec_fsub (o : VR) (s : State) : exec (.fsub o) s = execFsub o s := rfl
@[simp] theorem exec_fmul (o : VR) (s : State) : exec (.fmul o) s = execFmul o s := rfl
@[simp] theorem exec_fma (o : VR) (s : State) : exec (.fma o) s = execFma o s := rfl
@[simp] theorem exec_fmin (o : VR) (s : State) : exec (.fmin o) s = execFmin o s := rfl
@[simp] theorem exec_fmax (o : VR) (s : State) : exec (.fmax o) s = execFmax o s := rfl
@[simp] theorem exec_fabs (o : VR) (s : State) : exec (.fabs o) s = execFabs o s := rfl
@[simp] theorem exec_fneg (o : VR) (s : State) : exec (.fneg o) s = execFneg o s := rfl
@[simp] theorem exec_frcp (o : VR) (s : State) : exec (.frcp o) s = execFrcp o s := rfl
@[simp] theorem exec_frsq (o : VR) (s : State) : exec (.frsq o) s = execFrsq o s := rfl
@[simp] theorem exec_fsqrt (o : VR) (s : State) : exec (.fsqrt o) s = execFsqrt o s := rfl
@[simp] theorem exec_fexp2 (o : VR) (s : State) : exec (.fexp2 o) s = execFexp2 o s := rfl
@[simp] theorem exec_flog2 (o : VR) (s : State) : exec (.flog2 o) s = execFlog2 o s := rfl
@[simp] theorem exec_cvt (o : VR) (code : BitVec 5) (s : State) : exec (.cvt o code) s = execCvt o code s := rfl
@[simp] theorem exec_radd (o : VR) (s : State) : exec (.radd o) s = execRadd o s := rfl
@[simp] theorem exec_rfadd (o : VR) (s : State) : exec (.rfadd o) s = execRfadd o s := rfl
@[simp] theorem exec_rmin (o : VR) (s : State) : exec (.rmin o) s = execRmin o s := rfl
@[simp] theorem exec_rmax (o : VR) (s : State) : exec (.rmax o) s = execRmax o s := rfl
@[simp] theorem exec_rminu (o : VR) (s : State) : exec (.rminu o) s = execRminu o s := rfl
@[simp] theorem exec_rmaxu (o : VR) (s : State) : exec (.rmaxu o) s = execRmaxu o s := rfl
@[simp] theorem exec_rand (o : VR) (s : State) : exec (.rand o) s = execRand o s := rfl
@[simp] theorem exec_vredRor (o : VR) (s : State) : exec (.vredRor o) s = execVredRor o s := rfl
@[simp] theorem exec_rxor (o : VR) (s : State) : exec (.rxor o) s = execRxor o s := rfl
@[simp] theorem exec_rimax (o : VR) (s : State) : exec (.rimax o) s = execRimax o s := rfl
@[simp] theorem exec_vscan (o : VR) (s : State) : exec (.vscan o) s = execVscan o s := rfl
@[simp] theorem exec_vfscan (o : VR) (s : State) : exec (.vfscan o) s = execVfscan o s := rfl
@[simp] theorem exec_vperm (o : VR) (s : State) : exec (.vperm o) s = execVperm o s := rfl
@[simp] theorem exec_vslup (o : VR) (s : State) : exec (.vslup o) s = execVslup o s := rfl
@[simp] theorem exec_vsldn (o : VR) (s : State) : exec (.vsldn o) s = execVsldn o s := rfl
@[simp] theorem exec_vcmpr (o : VR) (s : State) : exec (.vcmpr o) s = execVcmpr o s := rfl
@[simp] theorem exec_vexpd (o : VR) (s : State) : exec (.vexpd o) s = execVexpd o s := rfl
@[simp] theorem exec_vsplt (o : VR) (s : State) : exec (.vsplt o) s = execVsplt o s := rfl
@[simp] theorem exec_vsel (o : VR) (s : State) : exec (.vsel o) s = execVsel o s := rfl
@[simp] theorem exec_vins (o : VR) (s : State) : exec (.vins o) s = execVins o s := rfl
@[simp] theorem exec_vext (o : VR) (s : State) : exec (.vext o) s = execVext o s := rfl
@[simp] theorem exec_vbcst (o : VR) (s : State) : exec (.vbcst o) s = execVbcst o s := rfl
@[simp] theorem exec_mand (o : VR) (s : State) : exec (.mand o) s = execMand o s := rfl
@[simp] theorem exec_mor (o : VR) (s : State) : exec (.mor o) s = execMor o s := rfl
@[simp] theorem exec_mxor (o : VR) (s : State) : exec (.mxor o) s = execMxor o s := rfl
@[simp] theorem exec_mandn (o : VR) (s : State) : exec (.mandn o) s = execMandn o s := rfl
@[simp] theorem exec_mnot (o : VR) (s : State) : exec (.mnot o) s = execMnot o s := rfl
@[simp] theorem exec_mpop (o : VR) (s : State) : exec (.mpop o) s = execMpop o s := rfl
@[simp] theorem exec_mset (o : VR) (s : State) : exec (.mset o) s = execMset o s := rfl
@[simp] theorem exec_mclr (o : VR) (s : State) : exec (.mclr o) s = execMclr o s := rfl
@[simp] theorem exec_mfromv (o : VR) (s : State) : exec (.mfromv o) s = execMfromv o s := rfl
@[simp] theorem exec_mtov (o : VR) (s : State) : exec (.mtov o) s = execMtov o s := rfl
@[simp] theorem exec_vld (o : VM) (s : State) : exec (.vld o) s = execVld o s := rfl
@[simp] theorem exec_vst (o : VM) (s : State) : exec (.vst o) s = execVst o s := rfl
@[simp] theorem exec_vstb (o : VM) (s : State) : exec (.vstb o) s = execVstb o s := rfl
@[simp] theorem exec_vgath (o : VM) (s : State) : exec (.vgath o) s = execVgath o s := rfl
@[simp] theorem exec_vscat (o : VM) (s : State) : exec (.vscat o) s = execVscat o s := rfl
@[simp] theorem exec_vwmac (o : VW) (s : State) : exec (.vwmac o) s = execVwmac o s := rfl
@[simp] theorem exec_vwpool (o : VW) (s : State) : exec (.vwpool o) s = execVwpool o s := rfl
@[simp] theorem exec_aadd (o : VA) (s : State) : exec (.aadd o) s = execAadd o s := rfl
@[simp] theorem exec_aaddi (o : VA) (s : State) : exec (.aaddi o) s = execAaddi o s := rfl
@[simp] theorem exec_ali (o : VA) (s : State) : exec (.ali o) s = execAli o s := rfl
@[simp] theorem exec_alih (o : VA) (s : State) : exec (.alih o) s = execAlih o s := rfl
@[simp] theorem exec_afrom (o : VA) (s : State) : exec (.afrom o) s = execAfrom o s := rfl
@[simp] theorem exec_ato (o : VA) (s : State) : exec (.ato o) s = execAto o s := rfl
@[simp] theorem exec_vaddi (o : VI) (s : State) : exec (.vaddi o) s = execVaddi o s := rfl
@[simp] theorem exec_vandi (o : VI) (s : State) : exec (.vandi o) s = execVandi o s := rfl
@[simp] theorem exec_vshli (o : VI) (s : State) : exec (.vshli o) s = execVshli o s := rfl
@[simp] theorem exec_vshri (o : VI) (s : State) : exec (.vshri o) s = execVshri o s := rfl
@[simp] theorem exec_vsrai (o : VI) (s : State) : exec (.vsrai o) s = execVsrai o s := rfl
@[simp] theorem exec_pquant (o : VC) (s : State) : exec (.pquant o) s = execPquant o s := rfl
@[simp] theorem exec_pldf (o : VC) (s : State) : exec (.pldf o) s = execPldf o s := rfl
@[simp] theorem exec_pstf (o : VC) (s : State) : exec (.pstf o) s = execPstf o s := rfl
@[simp] theorem exec_rcinit (o : VC) (s : State) : exec (.rcinit o) s = execRcinit o s := rfl
@[simp] theorem exec_rcenc (o : VC) (s : State) : exec (.rcenc o) s = execRcenc o s := rfl
@[simp] theorem exec_rcdec (o : VC) (s : State) : exec (.rcdec o) s = execRcdec o s := rfl
@[simp] theorem exec_rcencv (o : VC) (s : State) : exec (.rcencv o) s = execRcencv o s := rfl
@[simp] theorem exec_rcdecv (o : VC) (s : State) : exec (.rcdecv o) s = execRcdecv o s := rfl
@[simp] theorem exec_rcbinv (o : VC) (s : State) : exec (.rcbinv o) s = execRcbinv o s := rfl
@[simp] theorem exec_rcbinvEnc (o : VC) (s : State) : exec (.rcbinvEnc o) s = execRcbinvEnc o s := rfl
@[simp] theorem exec_rcflush (o : VC) (s : State) : exec (.rcflush o) s = execRcflush o s := rfl
@[simp] theorem exec_rcmark (o : VC) (s : State) : exec (.rcmark o) s = execRcmark o s := rfl
@[simp] theorem exec_rcback (o : VC) (s : State) : exec (.rcback o) s = execRcback o s := rfl
@[simp] theorem exec_rcstat (o : VC) (s : State) : exec (.rcstat o) s = execRcstat o s := rfl
@[simp] theorem exec_mHalt (s : State) : exec .mHalt s = execMHalt s := rfl
@[simp] theorem exec_mGfence (o : MS) (s : State) : exec (.mGfence o) s = execMGfence o s := rfl
@[simp] theorem exec_mTsig (o : MS) (s : State) : exec (.mTsig o) s = execMTsig o s := rfl
@[simp] theorem exec_mTwait (o : MS) (s : State) : exec (.mTwait o) s = execMTwait o s := rfl
@[simp] theorem exec_mBrk (o : MS) (s : State) : exec (.mBrk o) s = execMBrk o s := rfl
@[simp] theorem exec_mfmt (o : MA) (s : State) : exec (.mfmt o) s = execMfmt o s := rfl
@[simp] theorem exec_mfmtT (o : MA) (s : State) : exec (.mfmtT o) s = execMfmtT o s := rfl
@[simp] theorem exec_mldw (o : MA) (s : State) : exec (.mldw o) s = execMldw o s := rfl
@[simp] theorem exec_mswap (o : MA) (s : State) : exec (.mswap o) s = execMswap o s := rfl
@[simp] theorem exec_mstr (o : MA) (s : State) : exec (.mstr o) s = execMstr o s := rfl
@[simp] theorem exec_mwin (o : MA) (s : State) : exec (.mwin o) s = execMwin o s := rfl
@[simp] theorem exec_mzero (o : MA) (s : State) : exec (.mzero o) s = execMzero o s := rfl
@[simp] theorem exec_mout (o : MA) (s : State) : exec (.mout o) s = execMout o s := rfl
@[simp] theorem exec_mkat (o : MA) (sig : BitVec 32) (s : State) : exec (.mkat o sig) s = execMkat o sig s := rfl
@[simp] theorem exec_xHalt (s : State) : exec .xHalt s = execXHalt s := rfl
@[simp] theorem exec_xGfence (o : MS) (s : State) : exec (.xGfence o) s = execXGfence o s := rfl
@[simp] theorem exec_xTsig (o : MS) (s : State) : exec (.xTsig o) s = execXTsig o s := rfl
@[simp] theorem exec_xTwait (o : MS) (s : State) : exec (.xTwait o) s = execXTwait o s := rfl
@[simp] theorem exec_xBrk (o : MS) (s : State) : exec (.xBrk o) s = execXBrk o s := rfl
@[simp] theorem exec_xstat (o : MS) (s : State) : exec (.xstat o) s = execXstat o s := rfl
@[simp] theorem exec_xcpy (o : MA) (s : State) : exec (.xcpy o) s = execXcpy o s := rfl
@[simp] theorem exec_xcpy2 (o : MA) (s : State) : exec (.xcpy2 o) s = execXcpy2 o s := rfl
@[simp] theorem exec_xgath (o : MA) (s : State) : exec (.xgath o) s = execXgath o s := rfl
@[simp] theorem exec_xscat (o : MA) (s : State) : exec (.xscat o) s = execXscat o s := rfl
@[simp] theorem exec_xfill (o : MA) (s : State) : exec (.xfill o) s = execXfill o s := rfl
@[simp] theorem exec_xsend (o : MA) (s : State) : exec (.xsend o) s = execXsend o s := rfl
@[simp] theorem exec_xpeer (o : MA) (s : State) : exec (.xpeer o) s = execXpeer o s := rfl
@[simp] theorem exec_xlbw (o : MA) (s : State) : exec (.xlbw o) s = execXlbw o s := rfl
@[simp] theorem exec_xlbc (o : MA) (s : State) : exec (.xlbc o) s = execXlbc o s := rfl
@[simp] theorem exec_xred (o : MA) (s : State) : exec (.xred o) s = execXred o s := rfl
@[simp] theorem exec_xreds (o : MA) (s : State) : exec (.xreds o) s = execXreds o s := rfl
@[simp] theorem exec_xpref (o : MA) (s : State) : exec (.xpref o) s = execXpref o s := rfl
@[simp] theorem exec_resultDue (c : CtxRef) (tok : Nat) (s : State) : exec (.resultDue c tok) s = execResultDue c tok s := rfl
@[simp] theorem exec_moduloPassEnd (c : CtxRef) (s : State) : exec (.moduloPassEnd c) s = execModuloPassEnd c s := rfl
@[simp] theorem exec_haltBundleRetire (c : CtxRef) (s : State) : exec (.haltBundleRetire c) s = execHaltBundleRetire c s := rfl
@[simp] theorem exec_engineOpStart (c : CtxRef) (op : Nat) (s : State) : exec (.engineOpStart c op) s = execEngineOpStart c op s := rfl
@[simp] theorem exec_engineOpComplete (c : CtxRef) (op : Nat) (s : State) : exec (.engineOpComplete c op) s = execEngineOpComplete c op s := rfl
@[simp] theorem exec_asyncFault (c : CtxRef) (op : Nat) (s : State) : exec (.asyncFault c op) s = execAsyncFault c op s := rfl
@[simp] theorem exec_trapEntry (c : CtxRef) (s : State) : exec (.trapEntry c) s = execTrapEntry c s := rfl
@[simp] theorem exec_firmwareResume (c : CtxRef) (s : State) : exec (.firmwareResume c) s = execFirmwareResume c s := rfl
@[simp] theorem exec_firmwareFail (c : CtxRef) (s : State) : exec (.firmwareFail c) s = execFirmwareFail c s := rfl
@[simp] theorem exec_firmwareRerun (c : CtxRef) (s : State) : exec (.firmwareRerun c) s = execFirmwareRerun c s := rfl
@[simp] theorem exec_barrierRelease (part : Nat) (dom : BitVec 32) (s : State) : exec (.barrierRelease part dom) s = execBarrierRelease part dom s := rfl
@[simp] theorem exec_post (acc : Nat) (s : State) : exec (.post acc) s = execPost acc s := rfl
@[simp] theorem exec_perform (acc : Nat) (s : State) : exec (.perform acc) s = execPerform acc s := rfl
@[simp] theorem exec_ack (acc : Nat) (s : State) : exec (.ack acc) s = execAck acc s := rfl
@[simp] theorem exec_read (acc : Nat) (s : State) : exec (.read acc) s = execRead acc s := rfl
@[simp] theorem exec_readCacheEvict (cell : Nat) (line : Nat) (s : State) : exec (.readCacheEvict cell line) s = execReadCacheEvict cell line s := rfl
@[simp] theorem exec_pageWalk (c : CtxRef) (st : Stream) (va : BitVec 64) (s : State) : exec (.pageWalk c st va) s = execPageWalk c st va s := rfl
@[simp] theorem exec_tlbPrefetchWalk (c : CtxRef) (st : Stream) (s : State) : exec (.tlbPrefetchWalk c st) s = execTlbPrefetchWalk c st s := rfl
@[simp] theorem exec_coderEmissionWrite (c : CtxRef) (slot : Nat) (s : State) : exec (.coderEmissionWrite c slot) s = execCoderEmissionWrite c slot s := rfl
@[simp] theorem exec_coderReadAhead (c : CtxRef) (slot : Nat) (s : State) : exec (.coderReadAhead c slot) s = execCoderReadAhead c slot s := rfl
@[simp] theorem exec_xpeerArrival (t : PeerTransfer) (s : State) : exec (.xpeerArrival t) s = execXpeerArrival t s := rfl
@[simp] theorem exec_xpeerAcknowledge (c : CtxRef) (op : Nat) (granted : Bool) (s : State) : exec (.xpeerAcknowledge c op granted) s = execXpeerAcknowledge c op granted s := rfl
@[simp] theorem exec_rewardMessageArrival (msg : PortMessage) (s : State) : exec (.rewardMessageArrival msg) s = execRewardMessageArrival msg s := rfl
@[simp] theorem exec_barrierTokenArrival (tok : BarrierToken) (s : State) : exec (.barrierTokenArrival tok) s = execBarrierTokenArrival tok s := rfl
@[simp] theorem exec_peerAccess (a1 : PeerAccess) (s : State) : exec (.peerAccess a1) s = execPeerAccess a1 s := rfl
@[simp] theorem exec_flitRetry (f : FlitEvent) (s : State) : exec (.flitRetry f) s = execFlitRetry f s := rfl
@[simp] theorem exec_lsaLossTimeout (acc : Nat) (s : State) : exec (.lsaLossTimeout acc) s = execLsaLossTimeout acc s := rfl
@[simp] theorem exec_joinMessageIntake (part : Nat) (s : State) : exec (.joinMessageIntake part) s = execJoinMessageIntake part s := rfl
@[simp] theorem exec_openDeadline (entry : Nat) (s : State) : exec (.openDeadline entry) s = execOpenDeadline entry s := rfl
@[simp] theorem exec_closeDeadlineDrop (entry : Nat) (s : State) : exec (.closeDeadlineDrop entry) s = execCloseDeadlineDrop entry s := rfl
@[simp] theorem exec_closeDeadlineFill (entry : Nat) (s : State) : exec (.closeDeadlineFill entry) s = execCloseDeadlineFill entry s := rfl
@[simp] theorem exec_jholdExpiry (entry : Nat) (s : State) : exec (.jholdExpiry entry) s = execJholdExpiry entry s := rfl
@[simp] theorem exec_scanTake (part : Nat) (s : State) : exec (.scanTake part) s = execScanTake part s := rfl
@[simp] theorem exec_releaseRecordEntry (part : Nat) (s : State) : exec (.releaseRecordEntry part) s = execReleaseRecordEntry part s := rfl
@[simp] theorem exec_scanJob (node : NodeRef) (s : State) : exec (.scanJob node) s = execScanJob node s := rfl
@[simp] theorem exec_lqtailWrite (part : Nat) (q : Nat) (v1 : BitVec 64) (s : State) : exec (.lqtailWrite part q v1) s = execLqtailWrite part q v1 s := rfl
@[simp] theorem exec_lqstatOvrClear (part : Nat) (q : Nat) (v1 : BitVec 64) (s : State) : exec (.lqstatOvrClear part q v1) s = execLqstatOvrClear part q v1 s := rfl
@[simp] theorem exec_lqerrWrite (part : Nat) (q : Nat) (s : State) : exec (.lqerrWrite part q) s = execLqerrWrite part q s := rfl
@[simp] theorem exec_launch (part : Nat) (q : Nat) (s : State) : exec (.launch part q) s = execLaunch part q s := rfl
@[simp] theorem exec_setonly (part : Nat) (q : Nat) (s : State) : exec (.setonly part q) s = execSetonly part q s := rfl
@[simp] theorem exec_packetFence (part : Nat) (q : Nat) (s : State) : exec (.packetFence part q) s = execPacketFence part q s := rfl
@[simp] theorem exec_signal (part : Nat) (q : Nat) (s : State) : exec (.signal part q) s = execSignal part q s := rfl
@[simp] theorem exec_nodePlacement (node : NodeRef) (place : Placement) (s : State) : exec (.nodePlacement node place) s = execNodePlacement node place s := rfl
@[simp] theorem exec_nodeCompletion (node : NodeRef) (s : State) : exec (.nodeCompletion node) s = execNodeCompletion node s := rfl
@[simp] theorem exec_copyNode (node : NodeRef) (s : State) : exec (.copyNode node) s = execCopyNode node s := rfl
@[simp] theorem exec_unsplicedRerun (node : NodeRef) (s : State) : exec (.unsplicedRerun node) s = execUnsplicedRerun node s := rfl
@[simp] theorem exec_agePromotion (node : NodeRef) (s : State) : exec (.agePromotion node) s = execAgePromotion node s := rfl
@[simp] theorem exec_reservation (node : NodeRef) (s : State) : exec (.reservation node) s = execReservation node s := rfl
@[simp] theorem exec_nodeBoundaryPreemption (part : Nat) (s : State) : exec (.nodeBoundaryPreemption part) s = execNodeBoundaryPreemption part s := rfl
@[simp] theorem exec_urgentPreemption (part : Nat) (s : State) : exec (.urgentPreemption part) s = execUrgentPreemption part s := rfl
@[simp] theorem exec_urgentLimitExpiry (part : Nat) (s : State) : exec (.urgentLimitExpiry part) s = execUrgentLimitExpiry part s := rfl
@[simp] theorem exec_shadowExchange (part : Nat) (s : State) : exec (.shadowExchange part) s = execShadowExchange part s := rfl
@[simp] theorem exec_preemptResume (part : Nat) (s : State) : exec (.preemptResume part) s = execPreemptResume part s := rfl
@[simp] theorem exec_tlbinvGo (part : Nat) (v1 : BitVec 64) (s : State) : exec (.tlbinvGo part v1) s = execTlbinvGo part v1 s := rfl
@[simp] theorem exec_tlbinvRejClear (part : Nat) (s : State) : exec (.tlbinvRejClear part) s = execTlbinvRejClear part s := rfl
@[simp] theorem exec_tlbinvComplete (part : Nat) (s : State) : exec (.tlbinvComplete part) s = execTlbinvComplete part s := rfl
@[simp] theorem exec_jownerWrite (v1 : BitVec 64) (s : State) : exec (.jownerWrite v1) s = execJownerWrite v1 s := rfl
@[simp] theorem exec_cellmodeWrite (cell : Nat) (v1 : BitVec 64) (s : State) : exec (.cellmodeWrite cell v1) s = execCellmodeWrite cell v1 s := rfl
@[simp] theorem exec_cellmodeHeldApply (cell : Nat) (s : State) : exec (.cellmodeHeldApply cell) s = execCellmodeHeldApply cell s := rfl
@[simp] theorem exec_domainRegisterWrite (c : CtxRef) (reg : DomScope) (v1 : DomainWrite) (s : State) : exec (.domainRegisterWrite c reg v1) s = execDomainRegisterWrite c reg v1 s := rfl
@[simp] theorem exec_grantTableLoad (entries : List (BitVec 128)) (s : State) : exec (.grantTableLoad entries) s = execGrantTableLoad entries s := rfl
@[simp] theorem exec_reliabilityStateWrite (cell : Nat) (v1 : BitVec 64) (s : State) : exec (.reliabilityStateWrite cell v1) s = execReliabilityStateWrite cell v1 s := rfl
@[simp] theorem exec_deadLetterAck (v1 : BitVec 64) (s : State) : exec (.deadLetterAck v1) s = execDeadLetterAck v1 s := rfl
@[simp] theorem exec_deadLetterClear (s : State) : exec .deadLetterClear s = execDeadLetterClear s := rfl
@[simp] theorem exec_registerWrite (w : HubWrite) (s : State) : exec (.registerWrite w) s = execRegisterWrite w s := rfl
@[simp] theorem exec_capabilityFault (part : Nat) (s : State) : exec (.capabilityFault part) s = execCapabilityFault part s := rfl
@[simp] theorem exec_partitionReset (part : Nat) (s : State) : exec (.partitionReset part) s = execPartitionReset part s := rfl
@[simp] theorem exec_cellRepartition (cell : Nat) (part : Nat) (s : State) : exec (.cellRepartition cell part) s = execCellRepartition cell part s := rfl
@[simp] theorem exec_deviceReset (cfg : DeviceConfig) (s : State) : exec (.deviceReset cfg) s = execDeviceReset cfg s := rfl
@[simp] theorem exec_hostMemRead (addr : Nat) (len : Nat) (s : State) : exec (.hostMemRead addr len) s = execHostMemRead addr len s := rfl
@[simp] theorem exec_hostMemWrite (addr : Nat) (data : List (BitVec 8)) (s : State) : exec (.hostMemWrite addr data) s = execHostMemWrite addr data s := rfl
@[simp] theorem exec_getVersion (s : State) : exec .getVersion s = execGetVersion s := rfl
@[simp] theorem exec_getCapabilities (s : State) : exec .getCapabilities s = execGetCapabilities s := rfl
@[simp] theorem exec_negotiateAlgorithms (s : State) : exec .negotiateAlgorithms s = execNegotiateAlgorithms s := rfl
@[simp] theorem exec_getDigests (s : State) : exec .getDigests s = execGetDigests s := rfl
@[simp] theorem exec_getCertificate (slot : Nat) (off : Nat) (len : Nat) (s : State) : exec (.getCertificate slot off len) s = execGetCertificate slot off len s := rfl
@[simp] theorem exec_challenge (nonce : BitVec 256) (s : State) : exec (.challenge nonce) s = execChallenge nonce s := rfl
@[simp] theorem exec_getMeasurements (index : Nat) (nonce : BitVec 256) (s : State) : exec (.getMeasurements index nonce) s = execGetMeasurements index nonce s := rfl
@[simp] theorem exec_spdmUnsupported (code : BitVec 8) (s : State) : exec (.spdmUnsupported code) s = execSpdmUnsupported code s := rfl
@[simp] theorem exec_debugToken (t : DebugToken) (s : State) : exec (.debugToken t) s = execDebugToken t s := rfl
@[simp] theorem exec_debugHaltRequest (cell : Nat) (s : State) : exec (.debugHaltRequest cell) s = execDebugHaltRequest cell s := rfl
@[simp] theorem exec_powerP1 (cell : Nat) (s : State) : exec (.powerP1 cell) s = execPowerP1 cell s := rfl
@[simp] theorem exec_powerC1 (cell : Nat) (s : State) : exec (.powerC1 cell) s = execPowerC1 cell s := rfl
@[simp] theorem exec_powerC2 (cell : Nat) (s : State) : exec (.powerC2 cell) s = execPowerC2 cell s := rfl
@[simp] theorem exec_powerC3 (s : State) : exec .powerC3 s = execPowerC3 s := rfl
@[simp] theorem exec_powerWake (cell : Nat) (s : State) : exec (.powerWake cell) s = execPowerWake cell s := rfl
@[simp] theorem exec_leaveTenant (cell : Nat) (s : State) : exec (.leaveTenant cell) s = execLeaveTenant cell s := rfl
@[simp] theorem exec_droopAlarm (cells : List Nat) (s : State) : exec (.droopAlarm cells) s = execDroopAlarm cells s := rfl
@[simp] theorem exec_droopHalfRateEnd (cell : Nat) (s : State) : exec (.droopHalfRateEnd cell) s = execDroopHalfRateEnd cell s := rfl
@[simp] theorem exec_tstampTick (s : State) : exec .tstampTick s = execTstampTick s := rfl
@[simp] theorem exec_suspicionDecay (s : State) : exec .suspicionDecay s = execSuspicionDecay s := rfl
@[simp] theorem exec_targetedTestStart (cell : Nat) (s : State) : exec (.targetedTestStart cell) s = execTargetedTestStart cell s := rfl
@[simp] theorem exec_targetedTestEnd (cell : Nat) (fails : List Bool) (s : State) : exec (.targetedTestEnd cell fails) s = execTargetedTestEnd cell fails s := rfl
@[simp] theorem exec_scrubPatrol (unit : Nat) (s : State) : exec (.scrubPatrol unit) s = execScrubPatrol unit s := rfl
@[simp] theorem exec_debugResume (cell : Nat) (stepOne : Bool) (s : State) : exec (.debugResume cell stepOne) s = execDebugResume cell stepOne s := rfl
@[simp] theorem exec_debugStateSet (part : Nat) (v1 : BitVec 2) (s : State) : exec (.debugStateSet part v1) s = execDebugStateSet part v1 s := rfl
@[simp] theorem exec_partitionCreation (p : PartitionSpec) (s : State) : exec (.partitionCreation p) s = execPartitionCreation p s := rfl
@[simp] theorem exec_hubLinkChecksumRetry (cell : Nat) (s : State) : exec (.hubLinkChecksumRetry cell) s = execHubLinkChecksumRetry cell s := rfl
@[simp] theorem exec_firmwareStore (addr : Nat) (v1 : BitVec 64) (s : State) : exec (.firmwareStore addr v1) s = execFirmwareStore addr v1 s := rfl
@[simp] theorem exec_pageMigrationCopy (src : Nat) (dst : Nat) (len : Nat) (s : State) : exec (.pageMigrationCopy src dst len) s = execPageMigrationCopy src dst len s := rfl
@[simp] theorem exec_giuthPortTraining (port : Nat) (up : Bool) (s : State) : exec (.giuthPortTraining port up) s = execGiuthPortTraining port up s := rfl

end Sys2Proof.Machine
end

