-- ==== Sys2Proof/Laws/Table.lean ====
section
/-!
SUPPORT. Laws of finite tables: reading after a change.
-/
namespace Sys2Proof.Table

variable {α : Type}

@[simp] theorem get_nil (d : α) (k : Nat) : get ([] : Table α) d k = d := rfl

@[simp] theorem get_set_same (t : Table α) (d : α) (k : Nat) (v : α) : get (set t k v) d k = v := by
  induction t with
  | nil => simp [set, get]
  | cons p r ih =>
    obtain ⟨k', v'⟩ := p
    unfold set
    split
    · simp [get]
    · split
      · simp [get]
      · next h _ => simp [get, h, ih]

theorem get_set_ne (t : Table α) (d : α) {k k' : Nat} (v : α) (h : k' ≠ k) : get (set t k v) d k' = get t d k' := by
  induction t with
  | nil => simp [set, get, h]
  | cons p r ih =>
    obtain ⟨k0, v0⟩ := p
    unfold set
    split
    · next e => subst e; simp [get, h]
    · split
      · simp [get, h]
      · simp [get, ih]

@[simp] theorem get_modify_same (t : Table α) (d : α) (k : Nat) (f : α → α) : get (modify t d k f) d k = f (get t d k) := by
  simp [modify]

theorem get_modify_ne (t : Table α) (d : α) {k k' : Nat} (f : α → α) (h : k' ≠ k) :
    get (modify t d k f) d k' = get t d k' := get_set_ne t d _ h

@[simp] theorem get_erase_same (t : Table α) (d : α) (k : Nat) : get (erase t k) d k = d := by
  induction t with
  | nil => rfl
  | cons p r ih =>
    obtain ⟨k0, v0⟩ := p
    by_cases e : k0 = k
    · subst e
      simpa [erase] using ih
    · have e' : k ≠ k0 := fun h => e h.symm
      simpa [erase, e, get, e'] using ih

theorem get_erase_ne (t : Table α) (d : α) {k k' : Nat} (h : k' ≠ k) : get (erase t k) d k' = get t d k' := by
  induction t with
  | nil => rfl
  | cons p r ih =>
    obtain ⟨k0, v0⟩ := p
    by_cases e : k0 = k
    · subst e
      simpa [erase, get, h] using ih
    · have e2 : get (erase ((k0, v0) :: r) k) d k' = if k' = k0 then v0 else get (erase r k) d k' := by
        simp [erase, e, get]
      rw [e2, ih, get]

@[simp] theorem get_put_same [DecidableEq α] (t : Table α) (d : α) (k : Nat) (v : α) : get (put t d k v) d k = v := by
  unfold put
  split
  · next h => simp [h]
  · simp

theorem get_put_ne [DecidableEq α] (t : Table α) (d : α) {k k' : Nat} (v : α) (h : k' ≠ k) :
    get (put t d k v) d k' = get t d k' := by
  unfold put
  split
  · exact get_erase_ne t d h
  · exact get_set_ne t d v h

end Sys2Proof.Table
end

