-- ==== Sys2Proof/Laws/Memory.lean ====
section
/-!
SUPPORT. Laws of memory: the canonical form, which every operation keeps, and reading after writing.
-/
namespace Sys2Proof.Machine

/-! ## Strictly rising lists -/

theorem risingFrom_mono {lo lo' : Nat} (h : lo' ≤ lo) (l : List Nat) (w : risingFrom lo l = true) : risingFrom lo' l = true := by
  cases l with
  | nil => rfl
  | cons a r =>
    simp only [risingFrom, Bool.and_eq_true, decide_eq_true_eq] at w ⊢
    exact ⟨by omega, w.2⟩

theorem risingFrom_filter (p : Nat → Bool) (lo : Nat) (l : List Nat) (w : risingFrom lo l = true) :
    risingFrom lo (l.filter p) = true := by
  induction l generalizing lo with
  | nil => rfl
  | cons a r ih =>
    simp only [risingFrom, Bool.and_eq_true, decide_eq_true_eq] at w
    by_cases h : p a = true
    · simp only [List.filter_cons, h, if_true, risingFrom, Bool.and_eq_true, decide_eq_true_eq]
      exact ⟨w.1, ih _ w.2⟩
    · simp only [List.filter_cons, h, if_false, Bool.false_eq_true]
      exact risingFrom_mono (by omega) _ (ih _ w.2)

theorem risingFrom_insertSorted (k lo : Nat) (l : List Nat) (h : lo ≤ k) (w : risingFrom lo l = true) :
    risingFrom lo (insertSorted k l) = true := by
  induction l generalizing lo with
  | nil => simp [insertSorted, risingFrom, h]
  | cons a r ih =>
    simp only [risingFrom, Bool.and_eq_true, decide_eq_true_eq] at w
    unfold insertSorted
    split
    · simp [risingFrom, w.1, w.2]
    · split
      · simp only [risingFrom, Bool.and_eq_true, decide_eq_true_eq]
        exact ⟨h, by omega, w.2⟩
      · simp only [risingFrom, Bool.and_eq_true, decide_eq_true_eq]
        exact ⟨w.1, ih _ (by omega) w.2⟩

/-! ## Tables as memory cells -/

theorem rising_set (lo k : Nat) (v : Byte) (t : Table Byte) (h : lo ≤ k) (w : risingFrom lo (t.map (·.1)) = true) :
    risingFrom lo ((Table.set t k v).map (·.1)) = true := by
  induction t generalizing lo with
  | nil => simp [Table.set, risingFrom, h]
  | cons p r ih =>
    obtain ⟨a, b⟩ := p
    simp only [List.map_cons, risingFrom, Bool.and_eq_true, decide_eq_true_eq] at w
    unfold Table.set
    split
    · next e => subst e; simp [risingFrom, w.1, w.2]
    · split
      · simp only [List.map_cons, risingFrom, Bool.and_eq_true, decide_eq_true_eq]
        exact ⟨h, by omega, w.2⟩
      · simp only [List.map_cons, risingFrom, Bool.and_eq_true, decide_eq_true_eq]
        exact ⟨w.1, ih _ (by omega) w.2⟩

theorem all_set (q : Byte → Bool) (k : Nat) (v : Byte) (t : Table Byte) (hv : q v = true)
    (w : t.all (fun p => q p.2) = true) : (Table.set t k v).all (fun p => q p.2) = true := by
  induction t with
  | nil => simp [Table.set, hv]
  | cons p r ih =>
    obtain ⟨a, b⟩ := p
    simp only [List.all_cons, Bool.and_eq_true] at w
    unfold Table.set
    split
    · simp only [List.all_cons, Bool.and_eq_true]; exact ⟨hv, w.2⟩
    · split
      · simp only [List.all_cons, Bool.and_eq_true]; exact ⟨hv, w⟩
      · simp only [List.all_cons, Bool.and_eq_true]; exact ⟨w.1, ih w.2⟩

theorem rising_erase (lo k : Nat) (t : Table Byte) (w : risingFrom lo (t.map (·.1)) = true) :
    risingFrom lo ((Table.erase t k).map (·.1)) = true := by
  have e : (Table.erase t k).map (·.1) = (t.map (·.1)).filter (fun a => !(a == k)) := by
    simp only [Table.erase, List.filter_map]
    rfl
  rw [e]
  exact risingFrom_filter _ _ _ w

theorem all_erase (q : Byte → Bool) (k : Nat) (t : Table Byte) (w : t.all (fun p => q p.2) = true) :
    (Table.erase t k).all (fun p => q p.2) = true := by
  simp only [List.all_eq_true] at w ⊢
  intro x hx
  exact w x (List.mem_filter.mp hx).1

/-! ## Every operation keeps the canonical form -/

theorem Memory.wf_iff (m : Memory) : m.wf = true ↔
    risingFrom 0 (m.cells.map (·.1)) = true ∧ m.cells.all (fun p => p.2 != m.base) = true ∧ risingFrom 0 m.marks = true := by
  simp [Memory.wf, and_assoc]

theorem Memory.blank_wf (b : Byte) : (Memory.blank b).wf = true := by simp [Memory.blank, Memory.wf, risingFrom]

theorem Memory.write_wf (m : Memory) (a : Nat) (b : Byte) (h : m.wf = true) : (m.write a b).wf = true := by
  rw [Memory.wf_iff] at h ⊢
  refine ⟨?_, ?_, h.2.2⟩
  · show risingFrom 0 ((Table.put m.cells m.base a b).map (·.1)) = true
    unfold Table.put
    split
    · exact rising_erase _ _ _ h.1
    · exact rising_set _ _ _ _ (Nat.zero_le _) h.1
  · show (Table.put m.cells m.base a b).all (fun p => p.2 != m.base) = true
    unfold Table.put
    split
    · exact all_erase (fun b => b != m.base) _ _ h.2.1
    · next e => exact all_set (fun b => b != m.base) _ _ _ (by simpa using e) h.2.1

theorem Memory.poison_wf (m : Memory) (a : Nat) (h : m.wf = true) : (m.poison a).wf = true := by
  rw [Memory.wf_iff] at h ⊢
  exact ⟨h.1, h.2.1, risingFrom_insertSorted _ _ _ (Nat.zero_le _) h.2.2⟩

theorem Memory.clean_wf (m : Memory) (a : Nat) (h : m.wf = true) : (m.clean a).wf = true := by
  rw [Memory.wf_iff] at h ⊢
  exact ⟨h.1, h.2.1, risingFrom_filter _ _ _ h.2.2⟩

theorem Memory.settle_wf (m : Memory) (u n : Nat) (b : Bool) (h : m.wf = true) : (m.settle u n b).wf = true := by
  unfold Memory.settle
  split
  · exact Memory.poison_wf _ _ h
  · split
    · exact Memory.clean_wf _ _ h
    · exact h

theorem Memory.storeFrom_wf (m : Memory) (a u n : Nat) (b : Bool) (ws : List (Option (Byte × Bool))) (h : m.wf = true) :
    (m.storeFrom a u n b ws).wf = true := by
  induction ws generalizing m a u n b with
  | nil => exact Memory.settle_wf _ _ _ _ h
  | cons w r ih =>
    unfold Memory.storeFrom
    split
    · cases w with
      | none => exact ih _ _ _ _ _ h
      | some p => exact ih _ _ _ _ _ (Memory.write_wf _ _ _ h)
    · cases w with
      | none => exact ih _ _ _ _ _ (Memory.settle_wf _ _ _ _ h)
      | some p => exact ih _ _ _ _ _ (Memory.write_wf _ _ _ (Memory.settle_wf _ _ _ _ h))

theorem Memory.store_wf (m : Memory) (a : Nat) (ws : List (Option (Byte × Bool))) (h : m.wf = true) :
    (m.store a ws).wf = true := Memory.storeFrom_wf _ _ _ _ _ _ h

/-! ## Reading after writing -/

@[simp] theorem Memory.read_write_same (m : Memory) (a : Nat) (b : Byte) : (m.write a b).read a = b := by
  simp [Memory.read, Memory.write]

theorem Memory.read_write_ne (m : Memory) {a a' : Nat} (b : Byte) (h : a' ≠ a) : (m.write a b).read a' = m.read a' :=
  Table.get_put_ne _ _ _ h

@[simp] theorem Memory.read_poison (m : Memory) (a a' : Nat) : (m.poison a).read a' = m.read a' := rfl

@[simp] theorem Memory.read_clean (m : Memory) (a a' : Nat) : (m.clean a).read a' = m.read a' := rfl

@[simp] theorem Memory.read_settle (m : Memory) (u n : Nat) (b : Bool) (a : Nat) : (m.settle u n b).read a = m.read a := by
  unfold Memory.settle
  split
  · rfl
  · split <;> rfl

/-- A store leaves every byte outside its run. -/
theorem Memory.read_storeFrom_outside (m : Memory) (a u n : Nat) (b : Bool) (ws : List (Option (Byte × Bool))) (x : Nat)
    (h : x < a ∨ a + ws.length ≤ x) : (m.storeFrom a u n b ws).read x = m.read x := by
  induction ws generalizing m a u n b with
  | nil => simp [Memory.storeFrom]
  | cons w r ih =>
    have hx : x < a + 1 ∨ a + 1 + r.length ≤ x := by simp only [List.length_cons] at h; omega
    have hne : x ≠ a := by simp only [List.length_cons] at h; omega
    unfold Memory.storeFrom
    split
    · cases w with
      | none => exact ih _ _ _ _ _ hx
      | some p => rw [ih _ _ _ _ _ hx]; exact Memory.read_write_ne _ _ hne
    · cases w with
      | none => rw [ih _ _ _ _ _ hx]; simp
      | some p => rw [ih _ _ _ _ _ hx, Memory.read_write_ne _ _ hne]; simp

theorem Memory.read_store_outside (m : Memory) (a : Nat) (ws : List (Option (Byte × Bool))) (x : Nat)
    (h : x < a ∨ a + ws.length ≤ x) : (m.store a ws).read x = m.read x :=
  Memory.read_storeFrom_outside _ _ _ _ _ _ _ h

/-- A store gives each byte of its run that is not masked off. -/
theorem Memory.read_storeFrom_inside (m : Memory) (a u n : Nat) (b : Bool) (ws : List (Option (Byte × Bool))) (k : Nat)
    (h : k < ws.length) :
    (m.storeFrom a u n b ws).read (a + k) = match ws[k] with
      | some p => p.1
      | none => m.read (a + k) := by
  induction ws generalizing m a u n b k with
  | nil => simp at h
  | cons w r ih =>
    cases k with
    | zero =>
      have ho (m' : Memory) (u n : Nat) (b : Bool) : (m'.storeFrom (a + 1) u n b r).read a = m'.read a :=
        Memory.read_storeFrom_outside _ _ _ _ _ _ _ (Or.inl (by omega))
      unfold Memory.storeFrom
      split <;> cases w <;> simp [ho]
    | succ k =>
      have hk : k < r.length := by simpa using h
      have e : a + (k + 1) = a + 1 + k := by omega
      have hne : a + 1 + k ≠ a := by omega
      unfold Memory.storeFrom
      rw [e]
      split
      · cases w with
        | none => rw [ih _ _ _ _ _ _ hk]; simp
        | some p => rw [ih _ _ _ _ _ _ hk, Memory.read_write_ne _ _ hne]; simp
      · cases w with
        | none => rw [ih _ _ _ _ _ _ hk]; simp
        | some p => rw [ih _ _ _ _ _ _ hk, Memory.read_write_ne _ _ hne]; simp

theorem Memory.read_store_inside (m : Memory) (a : Nat) (ws : List (Option (Byte × Bool))) (k : Nat) (h : k < ws.length) :
    (m.store a ws).read (a + k) = match ws[k] with
      | some p => p.1
      | none => m.read (a + k) := Memory.read_storeFrom_inside _ _ _ _ _ _ _ h

end Sys2Proof.Machine
end

