-- ==== Sys2Proof/Laws/Ecc.lean ====
section
/-!
SUPPORT. What finding the errors of a read can do: it takes them from the list, marks units, and counts; and which updates of the state keep
the form of the memories.
-/
namespace Sys2Proof.Table

variable {α : Type}

/-- What holds of every entry and of the default holds of what a table reads as. -/
theorem get_of_all (q : α → Bool) (t : Table α) (d : α) (k : Nat) (hd : q d = true) (h : t.all (fun p => q p.2) = true) :
    q (get t d k) = true := by
  induction t with
  | nil => exact hd
  | cons p r ih =>
    obtain ⟨k0, v0⟩ := p
    simp only [List.all_cons, Bool.and_eq_true] at h
    unfold get
    split
    · exact h.1
    · exact ih h.2

theorem all_set (q : α → Bool) (t : Table α) (k : Nat) (v : α) (hv : q v = true) (h : t.all (fun p => q p.2) = true) :
    (set t k v).all (fun p => q p.2) = true := by
  induction t with
  | nil => simp [set, hv]
  | cons p r ih =>
    obtain ⟨k0, v0⟩ := p
    simp only [List.all_cons, Bool.and_eq_true] at h
    unfold set
    split
    · simp only [List.all_cons, hv, h.2, Bool.and_self]
    · split
      · simp only [List.all_cons, hv, h.1, h.2, Bool.and_self]
      · simp only [List.all_cons, h.1, ih h.2, Bool.and_self]

theorem all_modify (q : α → Bool) (t : Table α) (d : α) (k : Nat) (f : α → α) (hd : q d = true) (hf : ∀ x, q x = true → q (f x) = true)
    (h : t.all (fun p => q p.2) = true) : (modify t d k f).all (fun p => q p.2) = true :=
  all_set q t k _ (hf _ (get_of_all q t d k hd h)) h

end Sys2Proof.Table

namespace Sys2Proof.Machine

/-! ## Updates that keep the form of the memories -/

theorem State.memWf_iff (s : State) : s.memWf = true ↔ s.hbm.wf = true ∧ s.hostMem.wf = true ∧ s.peerMem.wf = true ∧
    s.scratch.all (fun p => p.2.wf) = true ∧ s.cells.all (fun p => p.2.memWf) = true ∧ s.dies.all (fun p => p.2.ss.wf) = true := by
  simp only [State.memWf, Bool.and_eq_true, and_assoc]

theorem Cell.init_memWf : Cell.init.memWf = true := by decide

theorem State.modCell_memWf (s : State) (n : Nat) (f : Cell → Cell) (hf : ∀ l, l.memWf = true → (f l).memWf = true) (h : s.memWf = true) :
    (s.modCell n f).memWf = true := by
  rw [State.memWf_iff] at h ⊢
  exact ⟨h.1, h.2.1, h.2.2.1, h.2.2.2.1, Table.all_modify _ _ _ _ _ Cell.init_memWf hf h.2.2.2.2.1, h.2.2.2.2.2⟩

theorem State.modDie_memWf (s : State) (n : Nat) (f : Die → Die) (hf : ∀ x, x.ss.wf = true → (f x).ss.wf = true) (h : s.memWf = true) :
    (s.modDie n f).memWf = true := by
  rw [State.memWf_iff] at h ⊢
  exact ⟨h.1, h.2.1, h.2.2.1, h.2.2.2.1, h.2.2.2.2.1,
    Table.all_set (fun x : Die => x.ss.wf) _ _ _
      (hf _ (Table.get_of_all (fun x : Die => x.ss.wf) _ _ _ (Memory.blank_wf 0) h.2.2.2.2.2)) h.2.2.2.2.2⟩

theorem State.modHub_memWf (s : State) (f : Hub → Hub) : (s.modHub f).memWf = s.memWf := rfl
theorem State.modCtx_memWf (s : State) (c : CtxRef) (f : Ctx → Ctx) : (s.modCtx c f).memWf = s.memWf := rfl

/-! ## Errors (14 R270 to R272) -/

theorem Cell.suspect_memWf (l : Cell) (k : Nat) : (l.suspect k).memWf = l.memWf := rfl

theorem State.chargeCell_memWf (s : State) (n : Nat) (h : s.memWf = true) : (s.chargeCell n).memWf = true :=
  s.modCell_memWf n _ (fun _ hl => hl) h

theorem State.poisonUnit_memWf (s : State) (m : MemRef) (u : Nat) (h : s.memWf = true) : (s.poisonUnit m u).memWf = true := by
  cases m with
  | hbm =>
    rw [State.memWf_iff] at h ⊢
    exact ⟨Memory.poison_wf _ _ h.1, h.2⟩
  | ss d => exact s.modDie_memWf d _ (fun x hx => Memory.poison_wf _ _ hx) h
  | shadow n => exact h
  | hub => exact h
  | plane n one =>
    refine s.modCell_memWf n _ (fun l hl => ?_) h
    simp only [Cell.memWf, Bool.and_eq_true] at hl ⊢
    cases one <;> simp only [Bool.false_eq_true, if_false, if_true, hl.1.1.1.1.1, hl.1.1.1.1.2, hl.1.1.1.2, hl.1.1.2, hl.1.2, hl.2, Memory.poison_wf, and_self]
  | _ n =>
    refine s.modCell_memWf n _ (fun l hl => ?_) h
    simp only [Cell.memWf, Bool.and_eq_true] at hl ⊢
    simp only [hl.1.1.1.1.1, hl.1.1.1.1.2, hl.1.1.1.2, hl.1.1.2, hl.1.2, hl.2, Memory.poison_wf, and_self]

theorem State.errorFound_memWf (s : State) (reader : Option Nat) (u : Upset) (h : s.memWf = true) : (s.errorFound reader u).memWf = true := by
  obtain ⟨m, unit, double⟩ := u
  cases double with
  | true => exact s.poisonUnit_memWf m unit h
  | false =>
    cases m with
    | hbm => exact h
    | ss d =>
      cases reader with
      | none => exact h
      | some n => exact s.chargeCell_memWf n h
    | shadow n => exact s.modCell_memWf n _ (fun _ hl => hl) h
    | hub => exact h
    | plane n _ => exact s.chargeCell_memWf n h
    | _ n => exact s.chargeCell_memWf n h

/-- What every list of errors and every error found keep, a read keeps. -/
theorem State.eccRead_keeps (P : State → Prop) (hl : ∀ s l, P s → P { s with upsets := l }) (he : ∀ s r u, P s → P (s.errorFound r u))
    (s : State) (m : MemRef) (a n : Nat) (reader : Option Nat) (h : P s) : P (s.eccRead m a n reader) := by
  unfold State.eccRead
  generalize s.upsets.filter (fun u => liesIn u m a n) = l
  have h' := hl s (s.upsets.filter fun u => !liesIn u m a n) h
  revert h'
  generalize { s with upsets := s.upsets.filter fun u => !liesIn u m a n } = t
  induction l generalizing t with
  | nil => exact id
  | cons u r ih => exact fun ht => ih _ (he _ _ _ ht)

theorem State.eccRead_memWf (s : State) (m : MemRef) (a n : Nat) (reader : Option Nat) (h : s.memWf = true) :
    (s.eccRead m a n reader).memWf = true :=
  State.eccRead_keeps (·.memWf = true) (fun _ _ h => h) (fun s r u h => s.errorFound_memWf r u h) s m a n reader h

theorem State.eccHome_memWf (s : State) (x : Home) (a n : Nat) (reader : Option Nat) (h : s.memWf = true) :
    (s.eccHome x a n reader).memWf = true := by
  unfold State.eccHome
  split
  · exact s.eccRead_memWf _ _ _ _ h
  · exact h

theorem State.poisonUnit_ctxs (s : State) (m : MemRef) (u : Nat) : (s.poisonUnit m u).ctxs = s.ctxs := by cases m <;> rfl
theorem State.poisonUnit_accs (s : State) (m : MemRef) (u : Nat) : (s.poisonUnit m u).accs = s.accs := by cases m <;> rfl

theorem State.errorFound_frame (s : State) (reader : Option Nat) (u : Upset) :
    (s.errorFound reader u).ctxs = s.ctxs ∧ (s.errorFound reader u).accs = s.accs := by
  obtain ⟨m, unit, double⟩ := u
  cases double with
  | true => exact ⟨s.poisonUnit_ctxs m unit, s.poisonUnit_accs m unit⟩
  | false =>
    cases m with
    | ss d => cases reader <;> exact ⟨rfl, rfl⟩
    | _ => exact ⟨rfl, rfl⟩

/-- Finding errors changes no context and no access. -/
theorem State.eccRead_frame (s : State) (m : MemRef) (a n : Nat) (reader : Option Nat) :
    (s.eccRead m a n reader).ctxs = s.ctxs ∧ (s.eccRead m a n reader).accs = s.accs :=
  State.eccRead_keeps (fun t => t.ctxs = s.ctxs ∧ t.accs = s.accs) (fun _ _ h => h)
    (fun t r u h => ⟨(t.errorFound_frame r u).1.trans h.1, (t.errorFound_frame r u).2.trans h.2⟩) s m a n reader ⟨rfl, rfl⟩

end Sys2Proof.Machine
end

