-- ==== Sys2Proof/Laws/State.lean ====
section
/-!
SUPPORT. What each update of the state leaves alone: one lemma per field, true by unfolding; and reading back what an update
has set.
-/
namespace Sys2Proof.Machine

/-! ## setCtx -/

@[simp] theorem State.setCtx_cells (s : State) (c : CtxRef) (x : Ctx) : (s.setCtx c x).cells = s.cells := rfl
@[simp] theorem State.setCtx_dies (s : State) (c : CtxRef) (x : Ctx) : (s.setCtx c x).dies = s.dies := rfl
@[simp] theorem State.setCtx_hbm (s : State) (c : CtxRef) (x : Ctx) : (s.setCtx c x).hbm = s.hbm := rfl
@[simp] theorem State.setCtx_hostMem (s : State) (c : CtxRef) (x : Ctx) : (s.setCtx c x).hostMem = s.hostMem := rfl
@[simp] theorem State.setCtx_peerMem (s : State) (c : CtxRef) (x : Ctx) : (s.setCtx c x).peerMem = s.peerMem := rfl
@[simp] theorem State.setCtx_scratch (s : State) (c : CtxRef) (x : Ctx) : (s.setCtx c x).scratch = s.scratch := rfl
@[simp] theorem State.setCtx_upsets (s : State) (c : CtxRef) (x : Ctx) : (s.setCtx c x).upsets = s.upsets := rfl
@[simp] theorem State.setCtx_accs (s : State) (c : CtxRef) (x : Ctx) : (s.setCtx c x).accs = s.accs := rfl
@[simp] theorem State.setCtx_nextId (s : State) (c : CtxRef) (x : Ctx) : (s.setCtx c x).nextId = s.nextId := rfl
@[simp] theorem State.setCtx_hub (s : State) (c : CtxRef) (x : Ctx) : (s.setCtx c x).hub = s.hub := rfl
@[simp] theorem State.setCtx_cfg (s : State) (c : CtxRef) (x : Ctx) : (s.setCtx c x).cfg = s.cfg := rfl
@[simp] theorem State.setCtx_agenda (s : State) (c : CtxRef) (x : Ctx) : (s.setCtx c x).agenda = s.agenda := rfl
@[simp] theorem State.setCtx_pickCount (s : State) (c : CtxRef) (x : Ctx) : (s.setCtx c x).pickCount = s.pickCount := rfl
@[simp] theorem State.setCtx_freeCount (s : State) (c : CtxRef) (x : Ctx) : (s.setCtx c x).freeCount = s.freeCount := rfl
@[simp] theorem State.setCtx_performs (s : State) (c : CtxRef) (x : Ctx) : (s.setCtx c x).performs = s.performs := rfl
@[simp] theorem State.setCtx_cur (s : State) (c : CtxRef) (x : Ctx) : (s.setCtx c x).cur = s.cur := rfl
@[simp] theorem State.setCtx_curSt (s : State) (c : CtxRef) (x : Ctx) : (s.setCtx c x).curSt = s.curSt := rfl
@[simp] theorem State.setCtx_curIt (s : State) (c : CtxRef) (x : Ctx) : (s.setCtx c x).curIt = s.curIt := rfl
@[simp] theorem State.setCtx_curG (s : State) (c : CtxRef) (x : Ctx) : (s.setCtx c x).curG = s.curG := rfl
@[simp] theorem State.setCtx_curPc (s : State) (c : CtxRef) (x : Ctx) : (s.setCtx c x).curPc = s.curPc := rfl
@[simp] theorem State.setCtx_curFwd (s : State) (c : CtxRef) (x : Ctx) : (s.setCtx c x).curFwd = s.curFwd := rfl
@[simp] theorem State.setCtx_inBundle (s : State) (c : CtxRef) (x : Ctx) : (s.setCtx c x).inBundle = s.inBundle := rfl
@[simp] theorem State.setCtx_nops (s : State) (c : CtxRef) (x : Ctx) : (s.setCtx c x).nops = s.nops := rfl
@[simp] theorem State.setCtx_after (s : State) (c : CtxRef) (x : Ctx) : (s.setCtx c x).after = s.after := rfl
@[simp] theorem State.setCtx_lastIssue (s : State) (c : CtxRef) (x : Ctx) : (s.setCtx c x).lastIssue = s.lastIssue := rfl

/-! ## modCtx -/

@[simp] theorem State.modCtx_cells (s : State) (c : CtxRef) (f : Ctx → Ctx) : (s.modCtx c f).cells = s.cells := rfl
@[simp] theorem State.modCtx_dies (s : State) (c : CtxRef) (f : Ctx → Ctx) : (s.modCtx c f).dies = s.dies := rfl
@[simp] theorem State.modCtx_hbm (s : State) (c : CtxRef) (f : Ctx → Ctx) : (s.modCtx c f).hbm = s.hbm := rfl
@[simp] theorem State.modCtx_hostMem (s : State) (c : CtxRef) (f : Ctx → Ctx) : (s.modCtx c f).hostMem = s.hostMem := rfl
@[simp] theorem State.modCtx_peerMem (s : State) (c : CtxRef) (f : Ctx → Ctx) : (s.modCtx c f).peerMem = s.peerMem := rfl
@[simp] theorem State.modCtx_scratch (s : State) (c : CtxRef) (f : Ctx → Ctx) : (s.modCtx c f).scratch = s.scratch := rfl
@[simp] theorem State.modCtx_upsets (s : State) (c : CtxRef) (f : Ctx → Ctx) : (s.modCtx c f).upsets = s.upsets := rfl
@[simp] theorem State.modCtx_accs (s : State) (c : CtxRef) (f : Ctx → Ctx) : (s.modCtx c f).accs = s.accs := rfl
@[simp] theorem State.modCtx_nextId (s : State) (c : CtxRef) (f : Ctx → Ctx) : (s.modCtx c f).nextId = s.nextId := rfl
@[simp] theorem State.modCtx_hub (s : State) (c : CtxRef) (f : Ctx → Ctx) : (s.modCtx c f).hub = s.hub := rfl
@[simp] theorem State.modCtx_cfg (s : State) (c : CtxRef) (f : Ctx → Ctx) : (s.modCtx c f).cfg = s.cfg := rfl
@[simp] theorem State.modCtx_agenda (s : State) (c : CtxRef) (f : Ctx → Ctx) : (s.modCtx c f).agenda = s.agenda := rfl
@[simp] theorem State.modCtx_pickCount (s : State) (c : CtxRef) (f : Ctx → Ctx) : (s.modCtx c f).pickCount = s.pickCount := rfl
@[simp] theorem State.modCtx_freeCount (s : State) (c : CtxRef) (f : Ctx → Ctx) : (s.modCtx c f).freeCount = s.freeCount := rfl
@[simp] theorem State.modCtx_performs (s : State) (c : CtxRef) (f : Ctx → Ctx) : (s.modCtx c f).performs = s.performs := rfl
@[simp] theorem State.modCtx_cur (s : State) (c : CtxRef) (f : Ctx → Ctx) : (s.modCtx c f).cur = s.cur := rfl
@[simp] theorem State.modCtx_curSt (s : State) (c : CtxRef) (f : Ctx → Ctx) : (s.modCtx c f).curSt = s.curSt := rfl
@[simp] theorem State.modCtx_curIt (s : State) (c : CtxRef) (f : Ctx → Ctx) : (s.modCtx c f).curIt = s.curIt := rfl
@[simp] theorem State.modCtx_curG (s : State) (c : CtxRef) (f : Ctx → Ctx) : (s.modCtx c f).curG = s.curG := rfl
@[simp] theorem State.modCtx_curPc (s : State) (c : CtxRef) (f : Ctx → Ctx) : (s.modCtx c f).curPc = s.curPc := rfl
@[simp] theorem State.modCtx_curFwd (s : State) (c : CtxRef) (f : Ctx → Ctx) : (s.modCtx c f).curFwd = s.curFwd := rfl
@[simp] theorem State.modCtx_inBundle (s : State) (c : CtxRef) (f : Ctx → Ctx) : (s.modCtx c f).inBundle = s.inBundle := rfl
@[simp] theorem State.modCtx_nops (s : State) (c : CtxRef) (f : Ctx → Ctx) : (s.modCtx c f).nops = s.nops := rfl
@[simp] theorem State.modCtx_after (s : State) (c : CtxRef) (f : Ctx → Ctx) : (s.modCtx c f).after = s.after := rfl
@[simp] theorem State.modCtx_lastIssue (s : State) (c : CtxRef) (f : Ctx → Ctx) : (s.modCtx c f).lastIssue = s.lastIssue := rfl

/-! ## setCell -/

@[simp] theorem State.setCell_ctxs (s : State) (n : Nat) (x : Cell) : (s.setCell n x).ctxs = s.ctxs := rfl
@[simp] theorem State.setCell_dies (s : State) (n : Nat) (x : Cell) : (s.setCell n x).dies = s.dies := rfl
@[simp] theorem State.setCell_hbm (s : State) (n : Nat) (x : Cell) : (s.setCell n x).hbm = s.hbm := rfl
@[simp] theorem State.setCell_hostMem (s : State) (n : Nat) (x : Cell) : (s.setCell n x).hostMem = s.hostMem := rfl
@[simp] theorem State.setCell_peerMem (s : State) (n : Nat) (x : Cell) : (s.setCell n x).peerMem = s.peerMem := rfl
@[simp] theorem State.setCell_scratch (s : State) (n : Nat) (x : Cell) : (s.setCell n x).scratch = s.scratch := rfl
@[simp] theorem State.setCell_upsets (s : State) (n : Nat) (x : Cell) : (s.setCell n x).upsets = s.upsets := rfl
@[simp] theorem State.setCell_accs (s : State) (n : Nat) (x : Cell) : (s.setCell n x).accs = s.accs := rfl
@[simp] theorem State.setCell_nextId (s : State) (n : Nat) (x : Cell) : (s.setCell n x).nextId = s.nextId := rfl
@[simp] theorem State.setCell_hub (s : State) (n : Nat) (x : Cell) : (s.setCell n x).hub = s.hub := rfl
@[simp] theorem State.setCell_cfg (s : State) (n : Nat) (x : Cell) : (s.setCell n x).cfg = s.cfg := rfl
@[simp] theorem State.setCell_agenda (s : State) (n : Nat) (x : Cell) : (s.setCell n x).agenda = s.agenda := rfl
@[simp] theorem State.setCell_pickCount (s : State) (n : Nat) (x : Cell) : (s.setCell n x).pickCount = s.pickCount := rfl
@[simp] theorem State.setCell_freeCount (s : State) (n : Nat) (x : Cell) : (s.setCell n x).freeCount = s.freeCount := rfl
@[simp] theorem State.setCell_performs (s : State) (n : Nat) (x : Cell) : (s.setCell n x).performs = s.performs := rfl
@[simp] theorem State.setCell_cur (s : State) (n : Nat) (x : Cell) : (s.setCell n x).cur = s.cur := rfl
@[simp] theorem State.setCell_curSt (s : State) (n : Nat) (x : Cell) : (s.setCell n x).curSt = s.curSt := rfl
@[simp] theorem State.setCell_curIt (s : State) (n : Nat) (x : Cell) : (s.setCell n x).curIt = s.curIt := rfl
@[simp] theorem State.setCell_curG (s : State) (n : Nat) (x : Cell) : (s.setCell n x).curG = s.curG := rfl
@[simp] theorem State.setCell_curPc (s : State) (n : Nat) (x : Cell) : (s.setCell n x).curPc = s.curPc := rfl
@[simp] theorem State.setCell_curFwd (s : State) (n : Nat) (x : Cell) : (s.setCell n x).curFwd = s.curFwd := rfl
@[simp] theorem State.setCell_inBundle (s : State) (n : Nat) (x : Cell) : (s.setCell n x).inBundle = s.inBundle := rfl
@[simp] theorem State.setCell_nops (s : State) (n : Nat) (x : Cell) : (s.setCell n x).nops = s.nops := rfl
@[simp] theorem State.setCell_after (s : State) (n : Nat) (x : Cell) : (s.setCell n x).after = s.after := rfl
@[simp] theorem State.setCell_lastIssue (s : State) (n : Nat) (x : Cell) : (s.setCell n x).lastIssue = s.lastIssue := rfl

/-! ## modCell -/

@[simp] theorem State.modCell_ctxs (s : State) (n : Nat) (f : Cell → Cell) : (s.modCell n f).ctxs = s.ctxs := rfl
@[simp] theorem State.modCell_dies (s : State) (n : Nat) (f : Cell → Cell) : (s.modCell n f).dies = s.dies := rfl
@[simp] theorem State.modCell_hbm (s : State) (n : Nat) (f : Cell → Cell) : (s.modCell n f).hbm = s.hbm := rfl
@[simp] theorem State.modCell_hostMem (s : State) (n : Nat) (f : Cell → Cell) : (s.modCell n f).hostMem = s.hostMem := rfl
@[simp] theorem State.modCell_peerMem (s : State) (n : Nat) (f : Cell → Cell) : (s.modCell n f).peerMem = s.peerMem := rfl
@[simp] theorem State.modCell_scratch (s : State) (n : Nat) (f : Cell → Cell) : (s.modCell n f).scratch = s.scratch := rfl
@[simp] theorem State.modCell_upsets (s : State) (n : Nat) (f : Cell → Cell) : (s.modCell n f).upsets = s.upsets := rfl
@[simp] theorem State.modCell_accs (s : State) (n : Nat) (f : Cell → Cell) : (s.modCell n f).accs = s.accs := rfl
@[simp] theorem State.modCell_nextId (s : State) (n : Nat) (f : Cell → Cell) : (s.modCell n f).nextId = s.nextId := rfl
@[simp] theorem State.modCell_hub (s : State) (n : Nat) (f : Cell → Cell) : (s.modCell n f).hub = s.hub := rfl
@[simp] theorem State.modCell_cfg (s : State) (n : Nat) (f : Cell → Cell) : (s.modCell n f).cfg = s.cfg := rfl
@[simp] theorem State.modCell_agenda (s : State) (n : Nat) (f : Cell → Cell) : (s.modCell n f).agenda = s.agenda := rfl
@[simp] theorem State.modCell_pickCount (s : State) (n : Nat) (f : Cell → Cell) : (s.modCell n f).pickCount = s.pickCount := rfl
@[simp] theorem State.modCell_freeCount (s : State) (n : Nat) (f : Cell → Cell) : (s.modCell n f).freeCount = s.freeCount := rfl
@[simp] theorem State.modCell_performs (s : State) (n : Nat) (f : Cell → Cell) : (s.modCell n f).performs = s.performs := rfl
@[simp] theorem State.modCell_cur (s : State) (n : Nat) (f : Cell → Cell) : (s.modCell n f).cur = s.cur := rfl
@[simp] theorem State.modCell_curSt (s : State) (n : Nat) (f : Cell → Cell) : (s.modCell n f).curSt = s.curSt := rfl
@[simp] theorem State.modCell_curIt (s : State) (n : Nat) (f : Cell → Cell) : (s.modCell n f).curIt = s.curIt := rfl
@[simp] theorem State.modCell_curG (s : State) (n : Nat) (f : Cell → Cell) : (s.modCell n f).curG = s.curG := rfl
@[simp] theorem State.modCell_curPc (s : State) (n : Nat) (f : Cell → Cell) : (s.modCell n f).curPc = s.curPc := rfl
@[simp] theorem State.modCell_curFwd (s : State) (n : Nat) (f : Cell → Cell) : (s.modCell n f).curFwd = s.curFwd := rfl
@[simp] theorem State.modCell_inBundle (s : State) (n : Nat) (f : Cell → Cell) : (s.modCell n f).inBundle = s.inBundle := rfl
@[simp] theorem State.modCell_nops (s : State) (n : Nat) (f : Cell → Cell) : (s.modCell n f).nops = s.nops := rfl
@[simp] theorem State.modCell_after (s : State) (n : Nat) (f : Cell → Cell) : (s.modCell n f).after = s.after := rfl
@[simp] theorem State.modCell_lastIssue (s : State) (n : Nat) (f : Cell → Cell) : (s.modCell n f).lastIssue = s.lastIssue := rfl

/-! ## modDie -/

@[simp] theorem State.modDie_ctxs (s : State) (n : Nat) (f : Die → Die) : (s.modDie n f).ctxs = s.ctxs := rfl
@[simp] theorem State.modDie_cells (s : State) (n : Nat) (f : Die → Die) : (s.modDie n f).cells = s.cells := rfl
@[simp] theorem State.modDie_hbm (s : State) (n : Nat) (f : Die → Die) : (s.modDie n f).hbm = s.hbm := rfl
@[simp] theorem State.modDie_hostMem (s : State) (n : Nat) (f : Die → Die) : (s.modDie n f).hostMem = s.hostMem := rfl
@[simp] theorem State.modDie_peerMem (s : State) (n : Nat) (f : Die → Die) : (s.modDie n f).peerMem = s.peerMem := rfl
@[simp] theorem State.modDie_scratch (s : State) (n : Nat) (f : Die → Die) : (s.modDie n f).scratch = s.scratch := rfl
@[simp] theorem State.modDie_upsets (s : State) (n : Nat) (f : Die → Die) : (s.modDie n f).upsets = s.upsets := rfl
@[simp] theorem State.modDie_accs (s : State) (n : Nat) (f : Die → Die) : (s.modDie n f).accs = s.accs := rfl
@[simp] theorem State.modDie_nextId (s : State) (n : Nat) (f : Die → Die) : (s.modDie n f).nextId = s.nextId := rfl
@[simp] theorem State.modDie_hub (s : State) (n : Nat) (f : Die → Die) : (s.modDie n f).hub = s.hub := rfl
@[simp] theorem State.modDie_cfg (s : State) (n : Nat) (f : Die → Die) : (s.modDie n f).cfg = s.cfg := rfl
@[simp] theorem State.modDie_agenda (s : State) (n : Nat) (f : Die → Die) : (s.modDie n f).agenda = s.agenda := rfl
@[simp] theorem State.modDie_pickCount (s : State) (n : Nat) (f : Die → Die) : (s.modDie n f).pickCount = s.pickCount := rfl
@[simp] theorem State.modDie_freeCount (s : State) (n : Nat) (f : Die → Die) : (s.modDie n f).freeCount = s.freeCount := rfl
@[simp] theorem State.modDie_performs (s : State) (n : Nat) (f : Die → Die) : (s.modDie n f).performs = s.performs := rfl
@[simp] theorem State.modDie_cur (s : State) (n : Nat) (f : Die → Die) : (s.modDie n f).cur = s.cur := rfl
@[simp] theorem State.modDie_curSt (s : State) (n : Nat) (f : Die → Die) : (s.modDie n f).curSt = s.curSt := rfl
@[simp] theorem State.modDie_curIt (s : State) (n : Nat) (f : Die → Die) : (s.modDie n f).curIt = s.curIt := rfl
@[simp] theorem State.modDie_curG (s : State) (n : Nat) (f : Die → Die) : (s.modDie n f).curG = s.curG := rfl
@[simp] theorem State.modDie_curPc (s : State) (n : Nat) (f : Die → Die) : (s.modDie n f).curPc = s.curPc := rfl
@[simp] theorem State.modDie_curFwd (s : State) (n : Nat) (f : Die → Die) : (s.modDie n f).curFwd = s.curFwd := rfl
@[simp] theorem State.modDie_inBundle (s : State) (n : Nat) (f : Die → Die) : (s.modDie n f).inBundle = s.inBundle := rfl
@[simp] theorem State.modDie_nops (s : State) (n : Nat) (f : Die → Die) : (s.modDie n f).nops = s.nops := rfl
@[simp] theorem State.modDie_after (s : State) (n : Nat) (f : Die → Die) : (s.modDie n f).after = s.after := rfl
@[simp] theorem State.modDie_lastIssue (s : State) (n : Nat) (f : Die → Die) : (s.modDie n f).lastIssue = s.lastIssue := rfl

/-! ## modHub -/

@[simp] theorem State.modHub_ctxs (s : State) (f : Hub → Hub) : (s.modHub f).ctxs = s.ctxs := rfl
@[simp] theorem State.modHub_cells (s : State) (f : Hub → Hub) : (s.modHub f).cells = s.cells := rfl
@[simp] theorem State.modHub_dies (s : State) (f : Hub → Hub) : (s.modHub f).dies = s.dies := rfl
@[simp] theorem State.modHub_hbm (s : State) (f : Hub → Hub) : (s.modHub f).hbm = s.hbm := rfl
@[simp] theorem State.modHub_hostMem (s : State) (f : Hub → Hub) : (s.modHub f).hostMem = s.hostMem := rfl
@[simp] theorem State.modHub_peerMem (s : State) (f : Hub → Hub) : (s.modHub f).peerMem = s.peerMem := rfl
@[simp] theorem State.modHub_scratch (s : State) (f : Hub → Hub) : (s.modHub f).scratch = s.scratch := rfl
@[simp] theorem State.modHub_upsets (s : State) (f : Hub → Hub) : (s.modHub f).upsets = s.upsets := rfl
@[simp] theorem State.modHub_accs (s : State) (f : Hub → Hub) : (s.modHub f).accs = s.accs := rfl
@[simp] theorem State.modHub_nextId (s : State) (f : Hub → Hub) : (s.modHub f).nextId = s.nextId := rfl
@[simp] theorem State.modHub_cfg (s : State) (f : Hub → Hub) : (s.modHub f).cfg = s.cfg := rfl
@[simp] theorem State.modHub_agenda (s : State) (f : Hub → Hub) : (s.modHub f).agenda = s.agenda := rfl
@[simp] theorem State.modHub_pickCount (s : State) (f : Hub → Hub) : (s.modHub f).pickCount = s.pickCount := rfl
@[simp] theorem State.modHub_freeCount (s : State) (f : Hub → Hub) : (s.modHub f).freeCount = s.freeCount := rfl
@[simp] theorem State.modHub_performs (s : State) (f : Hub → Hub) : (s.modHub f).performs = s.performs := rfl
@[simp] theorem State.modHub_cur (s : State) (f : Hub → Hub) : (s.modHub f).cur = s.cur := rfl
@[simp] theorem State.modHub_curSt (s : State) (f : Hub → Hub) : (s.modHub f).curSt = s.curSt := rfl
@[simp] theorem State.modHub_curIt (s : State) (f : Hub → Hub) : (s.modHub f).curIt = s.curIt := rfl
@[simp] theorem State.modHub_curG (s : State) (f : Hub → Hub) : (s.modHub f).curG = s.curG := rfl
@[simp] theorem State.modHub_curPc (s : State) (f : Hub → Hub) : (s.modHub f).curPc = s.curPc := rfl
@[simp] theorem State.modHub_curFwd (s : State) (f : Hub → Hub) : (s.modHub f).curFwd = s.curFwd := rfl
@[simp] theorem State.modHub_inBundle (s : State) (f : Hub → Hub) : (s.modHub f).inBundle = s.inBundle := rfl
@[simp] theorem State.modHub_nops (s : State) (f : Hub → Hub) : (s.modHub f).nops = s.nops := rfl
@[simp] theorem State.modHub_after (s : State) (f : Hub → Hub) : (s.modHub f).after = s.after := rfl
@[simp] theorem State.modHub_lastIssue (s : State) (f : Hub → Hub) : (s.modHub f).lastIssue = s.lastIssue := rfl

/-! ## noted -/

@[simp] theorem State.noted_ctxs (s : State) (i : Issued) : (s.noted i).ctxs = s.ctxs := rfl
@[simp] theorem State.noted_cells (s : State) (i : Issued) : (s.noted i).cells = s.cells := rfl
@[simp] theorem State.noted_dies (s : State) (i : Issued) : (s.noted i).dies = s.dies := rfl
@[simp] theorem State.noted_hbm (s : State) (i : Issued) : (s.noted i).hbm = s.hbm := rfl
@[simp] theorem State.noted_hostMem (s : State) (i : Issued) : (s.noted i).hostMem = s.hostMem := rfl
@[simp] theorem State.noted_peerMem (s : State) (i : Issued) : (s.noted i).peerMem = s.peerMem := rfl
@[simp] theorem State.noted_scratch (s : State) (i : Issued) : (s.noted i).scratch = s.scratch := rfl
@[simp] theorem State.noted_upsets (s : State) (i : Issued) : (s.noted i).upsets = s.upsets := rfl
@[simp] theorem State.noted_accs (s : State) (i : Issued) : (s.noted i).accs = s.accs := rfl
@[simp] theorem State.noted_nextId (s : State) (i : Issued) : (s.noted i).nextId = s.nextId := rfl
@[simp] theorem State.noted_hub (s : State) (i : Issued) : (s.noted i).hub = s.hub := rfl
@[simp] theorem State.noted_cfg (s : State) (i : Issued) : (s.noted i).cfg = s.cfg := rfl
@[simp] theorem State.noted_agenda (s : State) (i : Issued) : (s.noted i).agenda = s.agenda := rfl
@[simp] theorem State.noted_pickCount (s : State) (i : Issued) : (s.noted i).pickCount = s.pickCount := rfl
@[simp] theorem State.noted_freeCount (s : State) (i : Issued) : (s.noted i).freeCount = s.freeCount := rfl
@[simp] theorem State.noted_performs (s : State) (i : Issued) : (s.noted i).performs = s.performs := rfl
@[simp] theorem State.noted_cur (s : State) (i : Issued) : (s.noted i).cur = s.cur := rfl
@[simp] theorem State.noted_curSt (s : State) (i : Issued) : (s.noted i).curSt = s.curSt := rfl
@[simp] theorem State.noted_curPc (s : State) (i : Issued) : (s.noted i).curPc = s.curPc := rfl
@[simp] theorem State.noted_curFwd (s : State) (i : Issued) : (s.noted i).curFwd = s.curFwd := rfl
@[simp] theorem State.noted_inBundle (s : State) (i : Issued) : (s.noted i).inBundle = s.inBundle := rfl
@[simp] theorem State.noted_nops (s : State) (i : Issued) : (s.noted i).nops = s.nops := rfl
@[simp] theorem State.noted_after (s : State) (i : Issued) : (s.noted i).after = s.after := rfl

/-! ## setAcc -/

@[simp] theorem State.setAcc_ctxs (s : State) (a : Access) : (s.setAcc a).ctxs = s.ctxs := rfl
@[simp] theorem State.setAcc_cells (s : State) (a : Access) : (s.setAcc a).cells = s.cells := rfl
@[simp] theorem State.setAcc_dies (s : State) (a : Access) : (s.setAcc a).dies = s.dies := rfl
@[simp] theorem State.setAcc_hbm (s : State) (a : Access) : (s.setAcc a).hbm = s.hbm := rfl
@[simp] theorem State.setAcc_hostMem (s : State) (a : Access) : (s.setAcc a).hostMem = s.hostMem := rfl
@[simp] theorem State.setAcc_peerMem (s : State) (a : Access) : (s.setAcc a).peerMem = s.peerMem := rfl
@[simp] theorem State.setAcc_scratch (s : State) (a : Access) : (s.setAcc a).scratch = s.scratch := rfl
@[simp] theorem State.setAcc_upsets (s : State) (a : Access) : (s.setAcc a).upsets = s.upsets := rfl
@[simp] theorem State.setAcc_nextId (s : State) (a : Access) : (s.setAcc a).nextId = s.nextId := rfl
@[simp] theorem State.setAcc_hub (s : State) (a : Access) : (s.setAcc a).hub = s.hub := rfl
@[simp] theorem State.setAcc_cfg (s : State) (a : Access) : (s.setAcc a).cfg = s.cfg := rfl
@[simp] theorem State.setAcc_agenda (s : State) (a : Access) : (s.setAcc a).agenda = s.agenda := rfl
@[simp] theorem State.setAcc_pickCount (s : State) (a : Access) : (s.setAcc a).pickCount = s.pickCount := rfl
@[simp] theorem State.setAcc_freeCount (s : State) (a : Access) : (s.setAcc a).freeCount = s.freeCount := rfl
@[simp] theorem State.setAcc_performs (s : State) (a : Access) : (s.setAcc a).performs = s.performs := rfl
@[simp] theorem State.setAcc_cur (s : State) (a : Access) : (s.setAcc a).cur = s.cur := rfl
@[simp] theorem State.setAcc_curSt (s : State) (a : Access) : (s.setAcc a).curSt = s.curSt := rfl
@[simp] theorem State.setAcc_curIt (s : State) (a : Access) : (s.setAcc a).curIt = s.curIt := rfl
@[simp] theorem State.setAcc_curG (s : State) (a : Access) : (s.setAcc a).curG = s.curG := rfl
@[simp] theorem State.setAcc_curPc (s : State) (a : Access) : (s.setAcc a).curPc = s.curPc := rfl
@[simp] theorem State.setAcc_curFwd (s : State) (a : Access) : (s.setAcc a).curFwd = s.curFwd := rfl
@[simp] theorem State.setAcc_inBundle (s : State) (a : Access) : (s.setAcc a).inBundle = s.inBundle := rfl
@[simp] theorem State.setAcc_nops (s : State) (a : Access) : (s.setAcc a).nops = s.nops := rfl
@[simp] theorem State.setAcc_after (s : State) (a : Access) : (s.setAcc a).after = s.after := rfl
@[simp] theorem State.setAcc_lastIssue (s : State) (a : Access) : (s.setAcc a).lastIssue = s.lastIssue := rfl

/-! ## dropAcc -/

@[simp] theorem State.dropAcc_ctxs (s : State) (n : Nat) : (s.dropAcc n).ctxs = s.ctxs := rfl
@[simp] theorem State.dropAcc_cells (s : State) (n : Nat) : (s.dropAcc n).cells = s.cells := rfl
@[simp] theorem State.dropAcc_dies (s : State) (n : Nat) : (s.dropAcc n).dies = s.dies := rfl
@[simp] theorem State.dropAcc_hbm (s : State) (n : Nat) : (s.dropAcc n).hbm = s.hbm := rfl
@[simp] theorem State.dropAcc_hostMem (s : State) (n : Nat) : (s.dropAcc n).hostMem = s.hostMem := rfl
@[simp] theorem State.dropAcc_peerMem (s : State) (n : Nat) : (s.dropAcc n).peerMem = s.peerMem := rfl
@[simp] theorem State.dropAcc_scratch (s : State) (n : Nat) : (s.dropAcc n).scratch = s.scratch := rfl
@[simp] theorem State.dropAcc_upsets (s : State) (n : Nat) : (s.dropAcc n).upsets = s.upsets := rfl
@[simp] theorem State.dropAcc_nextId (s : State) (n : Nat) : (s.dropAcc n).nextId = s.nextId := rfl
@[simp] theorem State.dropAcc_hub (s : State) (n : Nat) : (s.dropAcc n).hub = s.hub := rfl
@[simp] theorem State.dropAcc_cfg (s : State) (n : Nat) : (s.dropAcc n).cfg = s.cfg := rfl
@[simp] theorem State.dropAcc_agenda (s : State) (n : Nat) : (s.dropAcc n).agenda = s.agenda := rfl
@[simp] theorem State.dropAcc_pickCount (s : State) (n : Nat) : (s.dropAcc n).pickCount = s.pickCount := rfl
@[simp] theorem State.dropAcc_freeCount (s : State) (n : Nat) : (s.dropAcc n).freeCount = s.freeCount := rfl
@[simp] theorem State.dropAcc_performs (s : State) (n : Nat) : (s.dropAcc n).performs = s.performs := rfl
@[simp] theorem State.dropAcc_cur (s : State) (n : Nat) : (s.dropAcc n).cur = s.cur := rfl
@[simp] theorem State.dropAcc_curSt (s : State) (n : Nat) : (s.dropAcc n).curSt = s.curSt := rfl
@[simp] theorem State.dropAcc_curIt (s : State) (n : Nat) : (s.dropAcc n).curIt = s.curIt := rfl
@[simp] theorem State.dropAcc_curG (s : State) (n : Nat) : (s.dropAcc n).curG = s.curG := rfl
@[simp] theorem State.dropAcc_curPc (s : State) (n : Nat) : (s.dropAcc n).curPc = s.curPc := rfl
@[simp] theorem State.dropAcc_curFwd (s : State) (n : Nat) : (s.dropAcc n).curFwd = s.curFwd := rfl
@[simp] theorem State.dropAcc_inBundle (s : State) (n : Nat) : (s.dropAcc n).inBundle = s.inBundle := rfl
@[simp] theorem State.dropAcc_nops (s : State) (n : Nat) : (s.dropAcc n).nops = s.nops := rfl
@[simp] theorem State.dropAcc_after (s : State) (n : Nat) : (s.dropAcc n).after = s.after := rfl
@[simp] theorem State.dropAcc_lastIssue (s : State) (n : Nat) : (s.dropAcc n).lastIssue = s.lastIssue := rfl

/-! ## setStr -/

@[simp] theorem Ctx.setStr_dq (c : Ctx) (st : Stream) (x : StreamState) : (c.setStr st x).dq = c.dq := by cases st <;> rfl
@[simp] theorem Ctx.setStr_vq (c : Ctx) (st : Stream) (x : StreamState) : (c.setStr st x).vq = c.vq := by cases st <;> rfl
@[simp] theorem Ctx.setStr_chan (c : Ctx) (st : Stream) (x : StreamState) : (c.setStr st x).chan = c.chan := by cases st <;> rfl
@[simp] theorem Ctx.setStr_tokens (c : Ctx) (st : Stream) (x : StreamState) : (c.setStr st x).tokens = c.tokens := by cases st <;> rfl
@[simp] theorem Ctx.setStr_preds (c : Ctx) (st : Stream) (x : StreamState) : (c.setStr st x).preds = c.preds := by cases st <;> rfl
@[simp] theorem Ctx.setStr_masks (c : Ctx) (st : Stream) (x : StreamState) : (c.setStr st x).masks = c.masks := by cases st <;> rfl
@[simp] theorem Ctx.setStr_flights (c : Ctx) (st : Stream) (x : StreamState) : (c.setStr st x).flights = c.flights := by cases st <;> rfl
@[simp] theorem Ctx.setStr_pops (c : Ctx) (st : Stream) (x : StreamState) : (c.setStr st x).pops = c.pops := by cases st <;> rfl
@[simp] theorem Ctx.setStr_tables (c : Ctx) (st : Stream) (x : StreamState) : (c.setStr st x).tables = c.tables := by cases st <;> rfl
@[simp] theorem Ctx.setStr_slots (c : Ctx) (st : Stream) (x : StreamState) : (c.setStr st x).slots = c.slots := by cases st <;> rfl
@[simp] theorem Ctx.setStr_initRead (c : Ctx) (st : Stream) (x : StreamState) : (c.setStr st x).initRead = c.initRead := by cases st <;> rfl
@[simp] theorem Ctx.setStr_wd (c : Ctx) (st : Stream) (x : StreamState) : (c.setStr st x).wd = c.wd := by cases st <;> rfl
@[simp] theorem Ctx.setStr_status (c : Ctx) (st : Stream) (x : StreamState) : (c.setStr st x).status = c.status := by cases st <;> rfl
@[simp] theorem Ctx.setStr_part (c : Ctx) (st : Stream) (x : StreamState) : (c.setStr st x).part = c.part := by cases st <;> rfl
@[simp] theorem Ctx.setStr_gen (c : Ctx) (st : Stream) (x : StreamState) : (c.setStr st x).gen = c.gen := by cases st <;> rfl
@[simp] theorem Ctx.setStr_tvec (c : Ctx) (st : Stream) (x : StreamState) : (c.setStr st x).tvec = c.tvec := by cases st <;> rfl
@[simp] theorem Ctx.setStr_tcause (c : Ctx) (st : Stream) (x : StreamState) : (c.setStr st x).tcause = c.tcause := by cases st <;> rfl
@[simp] theorem Ctx.setStr_taddr (c : Ctx) (st : Stream) (x : StreamState) : (c.setStr st x).taddr = c.taddr := by cases st <;> rfl
@[simp] theorem Ctx.setStr_torig (c : Ctx) (st : Stream) (x : StreamState) : (c.setStr st x).torig = c.torig := by cases st <;> rfl
@[simp] theorem Ctx.setStr_tinfl (c : Ctx) (st : Stream) (x : StreamState) : (c.setStr st x).tinfl = c.tinfl := by cases st <;> rfl
@[simp] theorem Ctx.setStr_lpw (c : Ctx) (st : Stream) (x : StreamState) : (c.setStr st x).lpw = c.lpw := by cases st <;> rfl
@[simp] theorem Ctx.setStr_lii (c : Ctx) (st : Stream) (x : StreamState) : (c.setStr st x).lii = c.lii := by cases st <;> rfl
@[simp] theorem Ctx.setStr_domt (c : Ctx) (st : Stream) (x : StreamState) : (c.setStr st x).domt = c.domt := by cases st <;> rfl
@[simp] theorem Ctx.setStr_domd (c : Ctx) (st : Stream) (x : StreamState) : (c.setStr st x).domd = c.domd := by cases st <;> rfl
@[simp] theorem Ctx.setStr_domp (c : Ctx) (st : Stream) (x : StreamState) : (c.setStr st x).domp = c.domp := by cases st <;> rfl
@[simp] theorem Ctx.setStr_doms (c : Ctx) (st : Stream) (x : StreamState) : (c.setStr st x).doms = c.doms := by cases st <;> rfl
@[simp] theorem Ctx.setStr_sstept (c : Ctx) (st : Stream) (x : StreamState) : (c.setStr st x).sstept = c.sstept := by cases st <;> rfl
@[simp] theorem Ctx.setStr_sstepd (c : Ctx) (st : Stream) (x : StreamState) : (c.setStr st x).sstepd = c.sstepd := by cases st <;> rfl
@[simp] theorem Ctx.setStr_sstepp (c : Ctx) (st : Stream) (x : StreamState) : (c.setStr st x).sstepp = c.sstepp := by cases st <;> rfl
@[simp] theorem Ctx.setStr_ssteps (c : Ctx) (st : Stream) (x : StreamState) : (c.setStr st x).ssteps = c.ssteps := by cases st <;> rfl
@[simp] theorem Ctx.setStr_param (c : Ctx) (st : Stream) (x : StreamState) : (c.setStr st x).param = c.param := by cases st <;> rfl
@[simp] theorem Ctx.setStr_node (c : Ctx) (st : Stream) (x : StreamState) : (c.setStr st x).node = c.node := by cases st <;> rfl
@[simp] theorem Ctx.setStr_rngkey (c : Ctx) (st : Stream) (x : StreamState) : (c.setStr st x).rngkey = c.rngkey := by cases st <;> rfl
@[simp] theorem Ctx.setStr_rngstream (c : Ctx) (st : Stream) (x : StreamState) : (c.setStr st x).rngstream = c.rngstream := by cases st <;> rfl
@[simp] theorem Ctx.setStr_rngpos (c : Ctx) (st : Stream) (x : StreamState) : (c.setStr st x).rngpos = c.rngpos := by cases st <;> rfl
@[simp] theorem Ctx.setStr_vcsr (c : Ctx) (st : Stream) (x : StreamState) : (c.setStr st x).vcsr = c.vcsr := by cases st <;> rfl
@[simp] theorem Ctx.setStr_mcsr (c : Ctx) (st : Stream) (x : StreamState) : (c.setStr st x).mcsr = c.mcsr := by cases st <;> rfl
@[simp] theorem Ctx.setStr_rcsr (c : Ctx) (st : Stream) (x : StreamState) : (c.setStr st x).rcsr = c.rcsr := by cases st <;> rfl
@[simp] theorem Ctx.setStr_poisonlog (c : Ctx) (st : Stream) (x : StreamState) : (c.setStr st x).poisonlog = c.poisonlog := by cases st <;> rfl
@[simp] theorem Ctx.setStr_poisoncnt (c : Ctx) (st : Stream) (x : StreamState) : (c.setStr st x).poisoncnt = c.poisoncnt := by cases st <;> rfl
@[simp] theorem Ctx.setStr_xerr (c : Ctx) (st : Stream) (x : StreamState) : (c.setStr st x).xerr = c.xerr := by cases st <;> rfl
@[simp] theorem Ctx.setStr_xdone (c : Ctx) (st : Stream) (x : StreamState) : (c.setStr st x).xdone = c.xdone := by cases st <;> rfl
@[simp] theorem Ctx.setStr_cf (c : Ctx) (st : Stream) (x : StreamState) : (c.setStr st x).cf = c.cf := by cases st <;> rfl
@[simp] theorem Ctx.setStr_tagAct (c : Ctx) (st : Stream) (x : StreamState) : (c.setStr st x).tagAct = c.tagAct := by cases st <;> rfl
@[simp] theorem Ctx.setStr_tagSh (c : Ctx) (st : Stream) (x : StreamState) : (c.setStr st x).tagSh = c.tagSh := by cases st <;> rfl
@[simp] theorem Ctx.setStr_issCf (c : Ctx) (st : Stream) (x : StreamState) : (c.setStr st x).issCf = c.issCf := by cases st <;> rfl
@[simp] theorem Ctx.setStr_issAct (c : Ctx) (st : Stream) (x : StreamState) : (c.setStr st x).issAct = c.issAct := by cases st <;> rfl
@[simp] theorem Ctx.setStr_issSh (c : Ctx) (st : Stream) (x : StreamState) : (c.setStr st x).issSh = c.issSh := by cases st <;> rfl
@[simp] theorem Ctx.setStr_ldSince (c : Ctx) (st : Stream) (x : StreamState) : (c.setStr st x).ldSince = c.ldSince := by cases st <;> rfl
@[simp] theorem Ctx.setStr_ops (c : Ctx) (st : Stream) (x : StreamState) : (c.setStr st x).ops = c.ops := by cases st <;> rfl
@[simp] theorem Ctx.setStr_sops (c : Ctx) (st : Stream) (x : StreamState) : (c.setStr st x).sops = c.sops := by cases st <;> rfl
@[simp] theorem Ctx.setStr_fences (c : Ctx) (st : Stream) (x : StreamState) : (c.setStr st x).fences = c.fences := by cases st <;> rfl
@[simp] theorem Ctx.setStr_barrier (c : Ctx) (st : Stream) (x : StreamState) : (c.setStr st x).barrier = c.barrier := by cases st <;> rfl
@[simp] theorem Ctx.setStr_barrierRank (c : Ctx) (st : Stream) (x : StreamState) : (c.setStr st x).barrierRank = c.barrierRank := by cases st <;> rfl
@[simp] theorem Ctx.setStr_arrived (c : Ctx) (st : Stream) (x : StreamState) : (c.setStr st x).arrived = c.arrived := by cases st <;> rfl
@[simp] theorem Ctx.setStr_released (c : Ctx) (st : Stream) (x : StreamState) : (c.setStr st x).released = c.released := by cases st <;> rfl
@[simp] theorem Ctx.setStr_haltIn (c : Ctx) (st : Stream) (x : StreamState) : (c.setStr st x).haltIn = c.haltIn := by cases st <;> rfl
@[simp] theorem Ctx.setStr_atFence (c : Ctx) (st : Stream) (x : StreamState) : (c.setStr st x).atFence = c.atFence := by cases st <;> rfl
@[simp] theorem Ctx.setStr_halting (c : Ctx) (st : Stream) (x : StreamState) : (c.setStr st x).halting = c.halting := by cases st <;> rfl
@[simp] theorem Ctx.setStr_cut (c : Ctx) (st : Stream) (x : StreamState) : (c.setStr st x).cut = c.cut := by cases st <;> rfl
@[simp] theorem Ctx.setStr_late (c : Ctx) (st : Stream) (x : StreamState) : (c.setStr st x).late = c.late := by cases st <;> rfl
@[simp] theorem Ctx.setStr_hold (c : Ctx) (st : Stream) (x : StreamState) : (c.setStr st x).hold = c.hold := by cases st <;> rfl
@[simp] theorem Ctx.setStr_running (c : Ctx) (st : Stream) (x : StreamState) : (c.setStr st x).running = c.running := by cases st <;> rfl
@[simp] theorem Ctx.setStr_xcpy2 (c : Ctx) (st : Stream) (x : StreamState) : (c.setStr st x).xcpy2 = c.xcpy2 := by cases st <;> rfl
@[simp] theorem Ctx.setStr_rwpost (c : Ctx) (st : Stream) (x : StreamState) : (c.setStr st x).rwpost = c.rwpost := by cases st <;> rfl
@[simp] theorem Ctx.setStr_lqWait (c : Ctx) (st : Stream) (x : StreamState) : (c.setStr st x).lqWait = c.lqWait := by cases st <;> rfl
@[simp] theorem Ctx.setStr_lqGot (c : Ctx) (st : Stream) (x : StreamState) : (c.setStr st x).lqGot = c.lqGot := by cases st <;> rfl
@[simp] theorem Ctx.setStr_hubRank (c : Ctx) (st : Stream) (x : StreamState) : (c.setStr st x).hubRank = c.hubRank := by cases st <;> rfl
@[simp] theorem Ctx.setStr_csrPend (c : Ctx) (st : Stream) (x : StreamState) : (c.setStr st x).csrPend = c.csrPend := by cases st <;> rfl
@[simp] theorem Ctx.setStr_csrBase (c : Ctx) (st : Stream) (x : StreamState) : (c.setStr st x).csrBase = c.csrBase := by cases st <;> rfl
@[simp] theorem Ctx.setStr_csrLog (c : Ctx) (st : Stream) (x : StreamState) : (c.setStr st x).csrLog = c.csrLog := by cases st <;> rfl
@[simp] theorem Ctx.setStr_prefetch (c : Ctx) (st : Stream) (x : StreamState) : (c.setStr st x).prefetch = c.prefetch := by cases st <;> rfl
@[simp] theorem Ctx.setStr_rbNow (c : Ctx) (st : Stream) (x : StreamState) : (c.setStr st x).rbNow = c.rbNow := by cases st <;> rfl
@[simp] theorem Ctx.setStr_hndRank (c : Ctx) (st : Stream) (x : StreamState) : (c.setStr st x).hndRank = c.hndRank := by cases st <;> rfl
@[simp] theorem Ctx.setStr_slots0 (c : Ctx) (st : Stream) (x : StreamState) : (c.setStr st x).slots0 = c.slots0 := by cases st <;> rfl
@[simp] theorem Ctx.setStr_rbFloor (c : Ctx) (st : Stream) (x : StreamState) : (c.setStr st x).rbFloor = c.rbFloor := by cases st <;> rfl
@[simp] theorem Ctx.setStr_lockSlots (c : Ctx) (st : Stream) (x : StreamState) : (c.setStr st x).lockSlots = c.lockSlots := by cases st <;> rfl
@[simp] theorem Ctx.setStr_waitSlots (c : Ctx) (st : Stream) (x : StreamState) : (c.setStr st x).waitSlots = c.waitSlots := by cases st <;> rfl
@[simp] theorem Ctx.setStr_chanLast (c : Ctx) (st : Stream) (x : StreamState) : (c.setStr st x).chanLast = c.chanLast := by cases st <;> rfl

/-! ## Reading back -/

theorem ctxKey_inj {c d : CtxRef} (h : ctxKey c = ctxKey d) : c = d := by
  obtain ⟨n, p⟩ := c
  obtain ⟨m, q⟩ := d
  cases p <;> cases q <;> simp only [ctxKey, bankNo] at h <;> simp <;> omega

@[simp] theorem State.ctx_setCtx_same (s : State) (c : CtxRef) (x : Ctx) : (s.setCtx c x).ctx c = x := by
  simp [State.ctx, State.setCtx]

theorem State.ctx_setCtx_ne (s : State) {c d : CtxRef} (x : Ctx) (h : d ≠ c) : (s.setCtx c x).ctx d = s.ctx d :=
  Table.get_set_ne _ _ _ fun e => h (ctxKey_inj e)

@[simp] theorem State.ctx_modCtx_same (s : State) (c : CtxRef) (f : Ctx → Ctx) : (s.modCtx c f).ctx c = f (s.ctx c) := by
  simp [State.modCtx]

theorem State.ctx_modCtx_ne (s : State) {c d : CtxRef} (f : Ctx → Ctx) (h : d ≠ c) : (s.modCtx c f).ctx d = s.ctx d :=
  State.ctx_setCtx_ne _ _ h

@[simp] theorem State.cell_setCell_same (s : State) (n : Nat) (x : Cell) : (s.setCell n x).cell n = x := by
  simp [State.cell, State.setCell]

theorem State.cell_setCell_ne (s : State) {n m : Nat} (x : Cell) (h : m ≠ n) : (s.setCell n x).cell m = s.cell m :=
  Table.get_set_ne _ _ _ h

@[simp] theorem State.cell_modCell_same (s : State) (n : Nat) (f : Cell → Cell) : (s.modCell n f).cell n = f (s.cell n) := by
  simp [State.modCell]

theorem State.cell_modCell_ne (s : State) {n m : Nat} (f : Cell → Cell) (h : m ≠ n) : (s.modCell n f).cell m = s.cell m :=
  State.cell_setCell_ne _ _ h

@[simp] theorem State.cell_setCtx (s : State) (c : CtxRef) (x : Ctx) (m : Nat) : (s.setCtx c x).cell m = s.cell m := rfl
@[simp] theorem State.cell_modCtx (s : State) (c : CtxRef) (f : Ctx → Ctx) (m : Nat) : (s.modCtx c f).cell m = s.cell m := rfl
@[simp] theorem State.ctx_setCell (s : State) (n : Nat) (x : Cell) (d : CtxRef) : (s.setCell n x).ctx d = s.ctx d := rfl
@[simp] theorem State.ctx_modCell (s : State) (n : Nat) (f : Cell → Cell) (d : CtxRef) : (s.modCell n f).ctx d = s.ctx d := rfl
@[simp] theorem State.ctx_modDie (s : State) (n : Nat) (f : Die → Die) (d : CtxRef) : (s.modDie n f).ctx d = s.ctx d := rfl
@[simp] theorem State.cell_modDie (s : State) (n : Nat) (f : Die → Die) (m : Nat) : (s.modDie n f).cell m = s.cell m := rfl
@[simp] theorem State.ctx_modHub (s : State) (f : Hub → Hub) (d : CtxRef) : (s.modHub f).ctx d = s.ctx d := rfl
@[simp] theorem State.cell_modHub (s : State) (f : Hub → Hub) (m : Nat) : (s.modHub f).cell m = s.cell m := rfl
@[simp] theorem State.ctx_noted (s : State) (i : Issued) (d : CtxRef) : (s.noted i).ctx d = s.ctx d := rfl
@[simp] theorem State.cell_noted (s : State) (i : Issued) (m : Nat) : (s.noted i).cell m = s.cell m := rfl
@[simp] theorem State.ctx_setAcc (s : State) (a : Access) (d : CtxRef) : (s.setAcc a).ctx d = s.ctx d := rfl
@[simp] theorem State.cell_setAcc (s : State) (a : Access) (m : Nat) : (s.setAcc a).cell m = s.cell m := rfl
@[simp] theorem State.ctx_dropAcc (s : State) (n : Nat) (d : CtxRef) : (s.dropAcc n).ctx d = s.ctx d := rfl
@[simp] theorem State.cell_dropAcc (s : State) (n : Nat) (m : Nat) : (s.dropAcc n).cell m = s.cell m := rfl

@[simp] theorem Ctx.str_setStr_same (c : Ctx) (st : Stream) (x : StreamState) : (c.setStr st x).str st = x := by
  cases st <;> rfl

theorem Ctx.str_setStr_ne (c : Ctx) {st r : Stream} (x : StreamState) (h : r ≠ st) : (c.setStr st x).str r = c.str r := by
  cases st <;> cases r <;> first | rfl | exact absurd rfl h

/-- A context as it stands, for any update that leaves the table of contexts. -/
theorem State.ctx_of_ctxs {s t : State} (h : t.ctxs = s.ctxs) (c : CtxRef) : t.ctx c = s.ctx c := by
  simp [State.ctx, h]

/-! ## modCounts -/

@[simp] theorem State.modCounts_ctxs (s : State) (f : PkgCounts → PkgCounts) : (s.modCounts f).ctxs = s.ctxs := rfl
@[simp] theorem State.modCounts_cells (s : State) (f : PkgCounts → PkgCounts) : (s.modCounts f).cells = s.cells := rfl
@[simp] theorem State.modCounts_dies (s : State) (f : PkgCounts → PkgCounts) : (s.modCounts f).dies = s.dies := rfl
@[simp] theorem State.modCounts_hbm (s : State) (f : PkgCounts → PkgCounts) : (s.modCounts f).hbm = s.hbm := rfl
@[simp] theorem State.modCounts_hostMem (s : State) (f : PkgCounts → PkgCounts) : (s.modCounts f).hostMem = s.hostMem := rfl
@[simp] theorem State.modCounts_peerMem (s : State) (f : PkgCounts → PkgCounts) : (s.modCounts f).peerMem = s.peerMem := rfl
@[simp] theorem State.modCounts_scratch (s : State) (f : PkgCounts → PkgCounts) : (s.modCounts f).scratch = s.scratch := rfl
@[simp] theorem State.modCounts_upsets (s : State) (f : PkgCounts → PkgCounts) : (s.modCounts f).upsets = s.upsets := rfl
@[simp] theorem State.modCounts_accs (s : State) (f : PkgCounts → PkgCounts) : (s.modCounts f).accs = s.accs := rfl
@[simp] theorem State.modCounts_nextId (s : State) (f : PkgCounts → PkgCounts) : (s.modCounts f).nextId = s.nextId := rfl
@[simp] theorem State.modCounts_cfg (s : State) (f : PkgCounts → PkgCounts) : (s.modCounts f).cfg = s.cfg := rfl
@[simp] theorem State.modCounts_agenda (s : State) (f : PkgCounts → PkgCounts) : (s.modCounts f).agenda = s.agenda := rfl
@[simp] theorem State.modCounts_pickCount (s : State) (f : PkgCounts → PkgCounts) : (s.modCounts f).pickCount = s.pickCount := rfl
@[simp] theorem State.modCounts_freeCount (s : State) (f : PkgCounts → PkgCounts) : (s.modCounts f).freeCount = s.freeCount := rfl
@[simp] theorem State.modCounts_performs (s : State) (f : PkgCounts → PkgCounts) : (s.modCounts f).performs = s.performs := rfl
@[simp] theorem State.modCounts_cur (s : State) (f : PkgCounts → PkgCounts) : (s.modCounts f).cur = s.cur := rfl
@[simp] theorem State.modCounts_curSt (s : State) (f : PkgCounts → PkgCounts) : (s.modCounts f).curSt = s.curSt := rfl
@[simp] theorem State.modCounts_curIt (s : State) (f : PkgCounts → PkgCounts) : (s.modCounts f).curIt = s.curIt := rfl
@[simp] theorem State.modCounts_curG (s : State) (f : PkgCounts → PkgCounts) : (s.modCounts f).curG = s.curG := rfl
@[simp] theorem State.modCounts_curPc (s : State) (f : PkgCounts → PkgCounts) : (s.modCounts f).curPc = s.curPc := rfl
@[simp] theorem State.modCounts_curFwd (s : State) (f : PkgCounts → PkgCounts) : (s.modCounts f).curFwd = s.curFwd := rfl
@[simp] theorem State.modCounts_inBundle (s : State) (f : PkgCounts → PkgCounts) : (s.modCounts f).inBundle = s.inBundle := rfl
@[simp] theorem State.modCounts_nops (s : State) (f : PkgCounts → PkgCounts) : (s.modCounts f).nops = s.nops := rfl
@[simp] theorem State.modCounts_after (s : State) (f : PkgCounts → PkgCounts) : (s.modCounts f).after = s.after := rfl
@[simp] theorem State.modCounts_lastIssue (s : State) (f : PkgCounts → PkgCounts) : (s.modCounts f).lastIssue = s.lastIssue := rfl
@[simp] theorem State.modCounts_hub_time (s : State) (f : PkgCounts → PkgCounts) : (s.modCounts f).hub.time = s.hub.time := rfl
@[simp] theorem State.modCounts_hub_tstamp (s : State) (f : PkgCounts → PkgCounts) : (s.modCounts f).hub.tstamp = s.hub.tstamp := rfl
@[simp] theorem State.modCounts_hub_ptroot (s : State) (f : PkgCounts → PkgCounts) : (s.modCounts f).hub.ptroot = s.hub.ptroot := rfl
@[simp] theorem State.modCounts_hub_tlbs (s : State) (f : PkgCounts → PkgCounts) : (s.modCounts f).hub.tlbs = s.hub.tlbs := rfl
@[simp] theorem State.modCounts_hub_tlbinv (s : State) (f : PkgCounts → PkgCounts) : (s.modCounts f).hub.tlbinv = s.hub.tlbinv := rfl
@[simp] theorem State.modCounts_hub_faults (s : State) (f : PkgCounts → PkgCounts) : (s.modCounts f).hub.faults = s.hub.faults := rfl
@[simp] theorem State.modCounts_hub_fails (s : State) (f : PkgCounts → PkgCounts) : (s.modCounts f).hub.fails = s.hub.fails := rfl
@[simp] theorem State.modCounts_hub_parts (s : State) (f : PkgCounts → PkgCounts) : (s.modCounts f).hub.parts = s.hub.parts := rfl
@[simp] theorem State.modCounts_hub_early (s : State) (f : PkgCounts → PkgCounts) : (s.modCounts f).hub.early = s.hub.early := rfl
@[simp] theorem State.modCounts_hub_cache (s : State) (f : PkgCounts → PkgCounts) : (s.modCounts f).hub.cache = s.hub.cache := rfl
@[simp] theorem State.modCounts_hub_nextFused (s : State) (f : PkgCounts → PkgCounts) : (s.modCounts f).hub.nextFused = s.hub.nextFused := rfl
@[simp] theorem State.modCounts_hub_join (s : State) (f : PkgCounts → PkgCounts) : (s.modCounts f).hub.join = s.hub.join := rfl
@[simp] theorem State.modCounts_hub_grants (s : State) (f : PkgCounts → PkgCounts) : (s.modCounts f).hub.grants = s.hub.grants := rfl
@[simp] theorem State.modCounts_hub_posted (s : State) (f : PkgCounts → PkgCounts) : (s.modCounts f).hub.posted = s.hub.posted := rfl
@[simp] theorem State.modCounts_hub_tokens (s : State) (f : PkgCounts → PkgCounts) : (s.modCounts f).hub.tokens = s.hub.tokens := rfl
@[simp] theorem State.modCounts_hub_outbox (s : State) (f : PkgCounts → PkgCounts) : (s.modCounts f).hub.outbox = s.hub.outbox := rfl
@[simp] theorem State.modCounts_hub_replies (s : State) (f : PkgCounts → PkgCounts) : (s.modCounts f).hub.replies = s.hub.replies := rfl
@[simp] theorem State.modCounts_hub_ports (s : State) (f : PkgCounts → PkgCounts) : (s.modCounts f).hub.ports = s.hub.ports := rfl
@[simp] theorem State.modCounts_hub_debug (s : State) (f : PkgCounts → PkgCounts) : (s.modCounts f).hub.debug = s.hub.debug := rfl
@[simp] theorem State.modCounts_hub_nonces (s : State) (f : PkgCounts → PkgCounts) : (s.modCounts f).hub.nonces = s.hub.nonces := rfl
@[simp] theorem State.modCounts_hub_resets (s : State) (f : PkgCounts → PkgCounts) : (s.modCounts f).hub.resets = s.hub.resets := rfl
@[simp] theorem State.modCounts_hub_sleep (s : State) (f : PkgCounts → PkgCounts) : (s.modCounts f).hub.sleep = s.hub.sleep := rfl
@[simp] theorem State.modCounts_hub_decays (s : State) (f : PkgCounts → PkgCounts) : (s.modCounts f).hub.decays = s.hub.decays := rfl
@[simp] theorem State.modCounts_hub_lost (s : State) (f : PkgCounts → PkgCounts) : (s.modCounts f).hub.lost = s.hub.lost := rfl
@[simp] theorem State.modCounts_hub_domains (s : State) (f : PkgCounts → PkgCounts) : (s.modCounts f).hub.domains = s.hub.domains := rfl
@[simp] theorem State.modCounts_hub_peerQ (s : State) (f : PkgCounts → PkgCounts) : (s.modCounts f).hub.peerQ = s.hub.peerQ := rfl
@[simp] theorem State.modCounts_hub_peerLast (s : State) (f : PkgCounts → PkgCounts) : (s.modCounts f).hub.peerLast = s.hub.peerLast := rfl
@[simp] theorem State.modCounts_hub_copy (s : State) (f : PkgCounts → PkgCounts) : (s.modCounts f).hub.copy = s.hub.copy := rfl
@[simp] theorem State.modCounts_hub_later (s : State) (f : PkgCounts → PkgCounts) : (s.modCounts f).hub.later = s.hub.later := rfl
@[simp] theorem State.modCounts_hub_shut (s : State) (f : PkgCounts → PkgCounts) : (s.modCounts f).hub.shut = s.hub.shut := rfl
@[simp] theorem State.modCounts_hub_decay (s : State) (f : PkgCounts → PkgCounts) : (s.modCounts f).hub.decay = s.hub.decay := rfl
@[simp] theorem State.ctx_modCounts (s : State) (f : PkgCounts → PkgCounts) (d : CtxRef) : (s.modCounts f).ctx d = s.ctx d := rfl
@[simp] theorem State.cell_modCounts (s : State) (f : PkgCounts → PkgCounts) (m : Nat) : (s.modCounts f).cell m = s.cell m := rfl

/-! ## modReplies -/

@[simp] theorem State.modReplies_ctxs (s : State) (f : Replies → Replies) : (s.modReplies f).ctxs = s.ctxs := rfl
@[simp] theorem State.modReplies_cells (s : State) (f : Replies → Replies) : (s.modReplies f).cells = s.cells := rfl
@[simp] theorem State.modReplies_dies (s : State) (f : Replies → Replies) : (s.modReplies f).dies = s.dies := rfl
@[simp] theorem State.modReplies_hbm (s : State) (f : Replies → Replies) : (s.modReplies f).hbm = s.hbm := rfl
@[simp] theorem State.modReplies_hostMem (s : State) (f : Replies → Replies) : (s.modReplies f).hostMem = s.hostMem := rfl
@[simp] theorem State.modReplies_peerMem (s : State) (f : Replies → Replies) : (s.modReplies f).peerMem = s.peerMem := rfl
@[simp] theorem State.modReplies_scratch (s : State) (f : Replies → Replies) : (s.modReplies f).scratch = s.scratch := rfl
@[simp] theorem State.modReplies_upsets (s : State) (f : Replies → Replies) : (s.modReplies f).upsets = s.upsets := rfl
@[simp] theorem State.modReplies_accs (s : State) (f : Replies → Replies) : (s.modReplies f).accs = s.accs := rfl
@[simp] theorem State.modReplies_nextId (s : State) (f : Replies → Replies) : (s.modReplies f).nextId = s.nextId := rfl
@[simp] theorem State.modReplies_cfg (s : State) (f : Replies → Replies) : (s.modReplies f).cfg = s.cfg := rfl
@[simp] theorem State.modReplies_agenda (s : State) (f : Replies → Replies) : (s.modReplies f).agenda = s.agenda := rfl
@[simp] theorem State.modReplies_pickCount (s : State) (f : Replies → Replies) : (s.modReplies f).pickCount = s.pickCount := rfl
@[simp] theorem State.modReplies_freeCount (s : State) (f : Replies → Replies) : (s.modReplies f).freeCount = s.freeCount := rfl
@[simp] theorem State.modReplies_performs (s : State) (f : Replies → Replies) : (s.modReplies f).performs = s.performs := rfl
@[simp] theorem State.modReplies_cur (s : State) (f : Replies → Replies) : (s.modReplies f).cur = s.cur := rfl
@[simp] theorem State.modReplies_curSt (s : State) (f : Replies → Replies) : (s.modReplies f).curSt = s.curSt := rfl
@[simp] theorem State.modReplies_curIt (s : State) (f : Replies → Replies) : (s.modReplies f).curIt = s.curIt := rfl
@[simp] theorem State.modReplies_curG (s : State) (f : Replies → Replies) : (s.modReplies f).curG = s.curG := rfl
@[simp] theorem State.modReplies_curPc (s : State) (f : Replies → Replies) : (s.modReplies f).curPc = s.curPc := rfl
@[simp] theorem State.modReplies_curFwd (s : State) (f : Replies → Replies) : (s.modReplies f).curFwd = s.curFwd := rfl
@[simp] theorem State.modReplies_inBundle (s : State) (f : Replies → Replies) : (s.modReplies f).inBundle = s.inBundle := rfl
@[simp] theorem State.modReplies_nops (s : State) (f : Replies → Replies) : (s.modReplies f).nops = s.nops := rfl
@[simp] theorem State.modReplies_after (s : State) (f : Replies → Replies) : (s.modReplies f).after = s.after := rfl
@[simp] theorem State.modReplies_lastIssue (s : State) (f : Replies → Replies) : (s.modReplies f).lastIssue = s.lastIssue := rfl
@[simp] theorem State.modReplies_hub_time (s : State) (f : Replies → Replies) : (s.modReplies f).hub.time = s.hub.time := rfl
@[simp] theorem State.modReplies_hub_tstamp (s : State) (f : Replies → Replies) : (s.modReplies f).hub.tstamp = s.hub.tstamp := rfl
@[simp] theorem State.modReplies_hub_ptroot (s : State) (f : Replies → Replies) : (s.modReplies f).hub.ptroot = s.hub.ptroot := rfl
@[simp] theorem State.modReplies_hub_tlbs (s : State) (f : Replies → Replies) : (s.modReplies f).hub.tlbs = s.hub.tlbs := rfl
@[simp] theorem State.modReplies_hub_tlbinv (s : State) (f : Replies → Replies) : (s.modReplies f).hub.tlbinv = s.hub.tlbinv := rfl
@[simp] theorem State.modReplies_hub_faults (s : State) (f : Replies → Replies) : (s.modReplies f).hub.faults = s.hub.faults := rfl
@[simp] theorem State.modReplies_hub_fails (s : State) (f : Replies → Replies) : (s.modReplies f).hub.fails = s.hub.fails := rfl
@[simp] theorem State.modReplies_hub_parts (s : State) (f : Replies → Replies) : (s.modReplies f).hub.parts = s.hub.parts := rfl
@[simp] theorem State.modReplies_hub_early (s : State) (f : Replies → Replies) : (s.modReplies f).hub.early = s.hub.early := rfl
@[simp] theorem State.modReplies_hub_cache (s : State) (f : Replies → Replies) : (s.modReplies f).hub.cache = s.hub.cache := rfl
@[simp] theorem State.modReplies_hub_nextFused (s : State) (f : Replies → Replies) : (s.modReplies f).hub.nextFused = s.hub.nextFused := rfl
@[simp] theorem State.modReplies_hub_join (s : State) (f : Replies → Replies) : (s.modReplies f).hub.join = s.hub.join := rfl
@[simp] theorem State.modReplies_hub_grants (s : State) (f : Replies → Replies) : (s.modReplies f).hub.grants = s.hub.grants := rfl
@[simp] theorem State.modReplies_hub_posted (s : State) (f : Replies → Replies) : (s.modReplies f).hub.posted = s.hub.posted := rfl
@[simp] theorem State.modReplies_hub_tokens (s : State) (f : Replies → Replies) : (s.modReplies f).hub.tokens = s.hub.tokens := rfl
@[simp] theorem State.modReplies_hub_outbox (s : State) (f : Replies → Replies) : (s.modReplies f).hub.outbox = s.hub.outbox := rfl
@[simp] theorem State.modReplies_hub_counts (s : State) (f : Replies → Replies) : (s.modReplies f).hub.counts = s.hub.counts := rfl
@[simp] theorem State.modReplies_hub_ports (s : State) (f : Replies → Replies) : (s.modReplies f).hub.ports = s.hub.ports := rfl
@[simp] theorem State.modReplies_hub_debug (s : State) (f : Replies → Replies) : (s.modReplies f).hub.debug = s.hub.debug := rfl
@[simp] theorem State.modReplies_hub_nonces (s : State) (f : Replies → Replies) : (s.modReplies f).hub.nonces = s.hub.nonces := rfl
@[simp] theorem State.modReplies_hub_resets (s : State) (f : Replies → Replies) : (s.modReplies f).hub.resets = s.hub.resets := rfl
@[simp] theorem State.modReplies_hub_sleep (s : State) (f : Replies → Replies) : (s.modReplies f).hub.sleep = s.hub.sleep := rfl
@[simp] theorem State.modReplies_hub_decays (s : State) (f : Replies → Replies) : (s.modReplies f).hub.decays = s.hub.decays := rfl
@[simp] theorem State.modReplies_hub_lost (s : State) (f : Replies → Replies) : (s.modReplies f).hub.lost = s.hub.lost := rfl
@[simp] theorem State.modReplies_hub_domains (s : State) (f : Replies → Replies) : (s.modReplies f).hub.domains = s.hub.domains := rfl
@[simp] theorem State.modReplies_hub_peerQ (s : State) (f : Replies → Replies) : (s.modReplies f).hub.peerQ = s.hub.peerQ := rfl
@[simp] theorem State.modReplies_hub_peerLast (s : State) (f : Replies → Replies) : (s.modReplies f).hub.peerLast = s.hub.peerLast := rfl
@[simp] theorem State.modReplies_hub_copy (s : State) (f : Replies → Replies) : (s.modReplies f).hub.copy = s.hub.copy := rfl
@[simp] theorem State.modReplies_hub_later (s : State) (f : Replies → Replies) : (s.modReplies f).hub.later = s.hub.later := rfl
@[simp] theorem State.modReplies_hub_shut (s : State) (f : Replies → Replies) : (s.modReplies f).hub.shut = s.hub.shut := rfl
@[simp] theorem State.modReplies_hub_decay (s : State) (f : Replies → Replies) : (s.modReplies f).hub.decay = s.hub.decay := rfl
@[simp] theorem State.ctx_modReplies (s : State) (f : Replies → Replies) (d : CtxRef) : (s.modReplies f).ctx d = s.ctx d := rfl
@[simp] theorem State.cell_modReplies (s : State) (f : Replies → Replies) (m : Nat) : (s.modReplies f).cell m = s.cell m := rfl

/-! ## modJoin -/

@[simp] theorem State.modJoin_ctxs (s : State) (f : Join → Join) : (s.modJoin f).ctxs = s.ctxs := rfl
@[simp] theorem State.modJoin_cells (s : State) (f : Join → Join) : (s.modJoin f).cells = s.cells := rfl
@[simp] theorem State.modJoin_dies (s : State) (f : Join → Join) : (s.modJoin f).dies = s.dies := rfl
@[simp] theorem State.modJoin_hbm (s : State) (f : Join → Join) : (s.modJoin f).hbm = s.hbm := rfl
@[simp] theorem State.modJoin_hostMem (s : State) (f : Join → Join) : (s.modJoin f).hostMem = s.hostMem := rfl
@[simp] theorem State.modJoin_peerMem (s : State) (f : Join → Join) : (s.modJoin f).peerMem = s.peerMem := rfl
@[simp] theorem State.modJoin_scratch (s : State) (f : Join → Join) : (s.modJoin f).scratch = s.scratch := rfl
@[simp] theorem State.modJoin_upsets (s : State) (f : Join → Join) : (s.modJoin f).upsets = s.upsets := rfl
@[simp] theorem State.modJoin_accs (s : State) (f : Join → Join) : (s.modJoin f).accs = s.accs := rfl
@[simp] theorem State.modJoin_nextId (s : State) (f : Join → Join) : (s.modJoin f).nextId = s.nextId := rfl
@[simp] theorem State.modJoin_cfg (s : State) (f : Join → Join) : (s.modJoin f).cfg = s.cfg := rfl
@[simp] theorem State.modJoin_agenda (s : State) (f : Join → Join) : (s.modJoin f).agenda = s.agenda := rfl
@[simp] theorem State.modJoin_pickCount (s : State) (f : Join → Join) : (s.modJoin f).pickCount = s.pickCount := rfl
@[simp] theorem State.modJoin_freeCount (s : State) (f : Join → Join) : (s.modJoin f).freeCount = s.freeCount := rfl
@[simp] theorem State.modJoin_performs (s : State) (f : Join → Join) : (s.modJoin f).performs = s.performs := rfl
@[simp] theorem State.modJoin_cur (s : State) (f : Join → Join) : (s.modJoin f).cur = s.cur := rfl
@[simp] theorem State.modJoin_curSt (s : State) (f : Join → Join) : (s.modJoin f).curSt = s.curSt := rfl
@[simp] theorem State.modJoin_curIt (s : State) (f : Join → Join) : (s.modJoin f).curIt = s.curIt := rfl
@[simp] theorem State.modJoin_curG (s : State) (f : Join → Join) : (s.modJoin f).curG = s.curG := rfl
@[simp] theorem State.modJoin_curPc (s : State) (f : Join → Join) : (s.modJoin f).curPc = s.curPc := rfl
@[simp] theorem State.modJoin_curFwd (s : State) (f : Join → Join) : (s.modJoin f).curFwd = s.curFwd := rfl
@[simp] theorem State.modJoin_inBundle (s : State) (f : Join → Join) : (s.modJoin f).inBundle = s.inBundle := rfl
@[simp] theorem State.modJoin_nops (s : State) (f : Join → Join) : (s.modJoin f).nops = s.nops := rfl
@[simp] theorem State.modJoin_after (s : State) (f : Join → Join) : (s.modJoin f).after = s.after := rfl
@[simp] theorem State.modJoin_lastIssue (s : State) (f : Join → Join) : (s.modJoin f).lastIssue = s.lastIssue := rfl
@[simp] theorem State.modJoin_hub_time (s : State) (f : Join → Join) : (s.modJoin f).hub.time = s.hub.time := rfl
@[simp] theorem State.modJoin_hub_tstamp (s : State) (f : Join → Join) : (s.modJoin f).hub.tstamp = s.hub.tstamp := rfl
@[simp] theorem State.modJoin_hub_ptroot (s : State) (f : Join → Join) : (s.modJoin f).hub.ptroot = s.hub.ptroot := rfl
@[simp] theorem State.modJoin_hub_tlbs (s : State) (f : Join → Join) : (s.modJoin f).hub.tlbs = s.hub.tlbs := rfl
@[simp] theorem State.modJoin_hub_tlbinv (s : State) (f : Join → Join) : (s.modJoin f).hub.tlbinv = s.hub.tlbinv := rfl
@[simp] theorem State.modJoin_hub_faults (s : State) (f : Join → Join) : (s.modJoin f).hub.faults = s.hub.faults := rfl
@[simp] theorem State.modJoin_hub_fails (s : State) (f : Join → Join) : (s.modJoin f).hub.fails = s.hub.fails := rfl
@[simp] theorem State.modJoin_hub_parts (s : State) (f : Join → Join) : (s.modJoin f).hub.parts = s.hub.parts := rfl
@[simp] theorem State.modJoin_hub_early (s : State) (f : Join → Join) : (s.modJoin f).hub.early = s.hub.early := rfl
@[simp] theorem State.modJoin_hub_cache (s : State) (f : Join → Join) : (s.modJoin f).hub.cache = s.hub.cache := rfl
@[simp] theorem State.modJoin_hub_nextFused (s : State) (f : Join → Join) : (s.modJoin f).hub.nextFused = s.hub.nextFused := rfl
@[simp] theorem State.modJoin_hub_grants (s : State) (f : Join → Join) : (s.modJoin f).hub.grants = s.hub.grants := rfl
@[simp] theorem State.modJoin_hub_posted (s : State) (f : Join → Join) : (s.modJoin f).hub.posted = s.hub.posted := rfl
@[simp] theorem State.modJoin_hub_tokens (s : State) (f : Join → Join) : (s.modJoin f).hub.tokens = s.hub.tokens := rfl
@[simp] theorem State.modJoin_hub_outbox (s : State) (f : Join → Join) : (s.modJoin f).hub.outbox = s.hub.outbox := rfl
@[simp] theorem State.modJoin_hub_replies (s : State) (f : Join → Join) : (s.modJoin f).hub.replies = s.hub.replies := rfl
@[simp] theorem State.modJoin_hub_counts (s : State) (f : Join → Join) : (s.modJoin f).hub.counts = s.hub.counts := rfl
@[simp] theorem State.modJoin_hub_ports (s : State) (f : Join → Join) : (s.modJoin f).hub.ports = s.hub.ports := rfl
@[simp] theorem State.modJoin_hub_debug (s : State) (f : Join → Join) : (s.modJoin f).hub.debug = s.hub.debug := rfl
@[simp] theorem State.modJoin_hub_nonces (s : State) (f : Join → Join) : (s.modJoin f).hub.nonces = s.hub.nonces := rfl
@[simp] theorem State.modJoin_hub_resets (s : State) (f : Join → Join) : (s.modJoin f).hub.resets = s.hub.resets := rfl
@[simp] theorem State.modJoin_hub_sleep (s : State) (f : Join → Join) : (s.modJoin f).hub.sleep = s.hub.sleep := rfl
@[simp] theorem State.modJoin_hub_decays (s : State) (f : Join → Join) : (s.modJoin f).hub.decays = s.hub.decays := rfl
@[simp] theorem State.modJoin_hub_lost (s : State) (f : Join → Join) : (s.modJoin f).hub.lost = s.hub.lost := rfl
@[simp] theorem State.modJoin_hub_domains (s : State) (f : Join → Join) : (s.modJoin f).hub.domains = s.hub.domains := rfl
@[simp] theorem State.modJoin_hub_peerQ (s : State) (f : Join → Join) : (s.modJoin f).hub.peerQ = s.hub.peerQ := rfl
@[simp] theorem State.modJoin_hub_peerLast (s : State) (f : Join → Join) : (s.modJoin f).hub.peerLast = s.hub.peerLast := rfl
@[simp] theorem State.modJoin_hub_copy (s : State) (f : Join → Join) : (s.modJoin f).hub.copy = s.hub.copy := rfl
@[simp] theorem State.modJoin_hub_later (s : State) (f : Join → Join) : (s.modJoin f).hub.later = s.hub.later := rfl
@[simp] theorem State.modJoin_hub_shut (s : State) (f : Join → Join) : (s.modJoin f).hub.shut = s.hub.shut := rfl
@[simp] theorem State.modJoin_hub_decay (s : State) (f : Join → Join) : (s.modJoin f).hub.decay = s.hub.decay := rfl
@[simp] theorem State.ctx_modJoin (s : State) (f : Join → Join) (d : CtxRef) : (s.modJoin f).ctx d = s.ctx d := rfl
@[simp] theorem State.cell_modJoin (s : State) (f : Join → Join) (m : Nat) : (s.modJoin f).cell m = s.cell m := rfl

/-! ## modPart -/

@[simp] theorem State.modPart_ctxs (s : State) (n : Nat) (f : Partition → Partition) : (s.modPart n f).ctxs = s.ctxs := rfl
@[simp] theorem State.modPart_cells (s : State) (n : Nat) (f : Partition → Partition) : (s.modPart n f).cells = s.cells := rfl
@[simp] theorem State.modPart_dies (s : State) (n : Nat) (f : Partition → Partition) : (s.modPart n f).dies = s.dies := rfl
@[simp] theorem State.modPart_hbm (s : State) (n : Nat) (f : Partition → Partition) : (s.modPart n f).hbm = s.hbm := rfl
@[simp] theorem State.modPart_hostMem (s : State) (n : Nat) (f : Partition → Partition) : (s.modPart n f).hostMem = s.hostMem := rfl
@[simp] theorem State.modPart_peerMem (s : State) (n : Nat) (f : Partition → Partition) : (s.modPart n f).peerMem = s.peerMem := rfl
@[simp] theorem State.modPart_scratch (s : State) (n : Nat) (f : Partition → Partition) : (s.modPart n f).scratch = s.scratch := rfl
@[simp] theorem State.modPart_upsets (s : State) (n : Nat) (f : Partition → Partition) : (s.modPart n f).upsets = s.upsets := rfl
@[simp] theorem State.modPart_accs (s : State) (n : Nat) (f : Partition → Partition) : (s.modPart n f).accs = s.accs := rfl
@[simp] theorem State.modPart_nextId (s : State) (n : Nat) (f : Partition → Partition) : (s.modPart n f).nextId = s.nextId := rfl
@[simp] theorem State.modPart_cfg (s : State) (n : Nat) (f : Partition → Partition) : (s.modPart n f).cfg = s.cfg := rfl
@[simp] theorem State.modPart_agenda (s : State) (n : Nat) (f : Partition → Partition) : (s.modPart n f).agenda = s.agenda := rfl
@[simp] theorem State.modPart_pickCount (s : State) (n : Nat) (f : Partition → Partition) : (s.modPart n f).pickCount = s.pickCount := rfl
@[simp] theorem State.modPart_freeCount (s : State) (n : Nat) (f : Partition → Partition) : (s.modPart n f).freeCount = s.freeCount := rfl
@[simp] theorem State.modPart_performs (s : State) (n : Nat) (f : Partition → Partition) : (s.modPart n f).performs = s.performs := rfl
@[simp] theorem State.modPart_cur (s : State) (n : Nat) (f : Partition → Partition) : (s.modPart n f).cur = s.cur := rfl
@[simp] theorem State.modPart_curSt (s : State) (n : Nat) (f : Partition → Partition) : (s.modPart n f).curSt = s.curSt := rfl
@[simp] theorem State.modPart_curIt (s : State) (n : Nat) (f : Partition → Partition) : (s.modPart n f).curIt = s.curIt := rfl
@[simp] theorem State.modPart_curG (s : State) (n : Nat) (f : Partition → Partition) : (s.modPart n f).curG = s.curG := rfl
@[simp] theorem State.modPart_curPc (s : State) (n : Nat) (f : Partition → Partition) : (s.modPart n f).curPc = s.curPc := rfl
@[simp] theorem State.modPart_curFwd (s : State) (n : Nat) (f : Partition → Partition) : (s.modPart n f).curFwd = s.curFwd := rfl
@[simp] theorem State.modPart_inBundle (s : State) (n : Nat) (f : Partition → Partition) : (s.modPart n f).inBundle = s.inBundle := rfl
@[simp] theorem State.modPart_nops (s : State) (n : Nat) (f : Partition → Partition) : (s.modPart n f).nops = s.nops := rfl
@[simp] theorem State.modPart_after (s : State) (n : Nat) (f : Partition → Partition) : (s.modPart n f).after = s.after := rfl
@[simp] theorem State.modPart_lastIssue (s : State) (n : Nat) (f : Partition → Partition) : (s.modPart n f).lastIssue = s.lastIssue := rfl
@[simp] theorem State.modPart_hub_time (s : State) (n : Nat) (f : Partition → Partition) : (s.modPart n f).hub.time = s.hub.time := rfl
@[simp] theorem State.modPart_hub_tstamp (s : State) (n : Nat) (f : Partition → Partition) : (s.modPart n f).hub.tstamp = s.hub.tstamp := rfl
@[simp] theorem State.modPart_hub_ptroot (s : State) (n : Nat) (f : Partition → Partition) : (s.modPart n f).hub.ptroot = s.hub.ptroot := rfl
@[simp] theorem State.modPart_hub_tlbs (s : State) (n : Nat) (f : Partition → Partition) : (s.modPart n f).hub.tlbs = s.hub.tlbs := rfl
@[simp] theorem State.modPart_hub_tlbinv (s : State) (n : Nat) (f : Partition → Partition) : (s.modPart n f).hub.tlbinv = s.hub.tlbinv := rfl
@[simp] theorem State.modPart_hub_faults (s : State) (n : Nat) (f : Partition → Partition) : (s.modPart n f).hub.faults = s.hub.faults := rfl
@[simp] theorem State.modPart_hub_fails (s : State) (n : Nat) (f : Partition → Partition) : (s.modPart n f).hub.fails = s.hub.fails := rfl
@[simp] theorem State.modPart_hub_early (s : State) (n : Nat) (f : Partition → Partition) : (s.modPart n f).hub.early = s.hub.early := rfl
@[simp] theorem State.modPart_hub_cache (s : State) (n : Nat) (f : Partition → Partition) : (s.modPart n f).hub.cache = s.hub.cache := rfl
@[simp] theorem State.modPart_hub_nextFused (s : State) (n : Nat) (f : Partition → Partition) : (s.modPart n f).hub.nextFused = s.hub.nextFused := rfl
@[simp] theorem State.modPart_hub_join (s : State) (n : Nat) (f : Partition → Partition) : (s.modPart n f).hub.join = s.hub.join := rfl
@[simp] theorem State.modPart_hub_grants (s : State) (n : Nat) (f : Partition → Partition) : (s.modPart n f).hub.grants = s.hub.grants := rfl
@[simp] theorem State.modPart_hub_posted (s : State) (n : Nat) (f : Partition → Partition) : (s.modPart n f).hub.posted = s.hub.posted := rfl
@[simp] theorem State.modPart_hub_tokens (s : State) (n : Nat) (f : Partition → Partition) : (s.modPart n f).hub.tokens = s.hub.tokens := rfl
@[simp] theorem State.modPart_hub_outbox (s : State) (n : Nat) (f : Partition → Partition) : (s.modPart n f).hub.outbox = s.hub.outbox := rfl
@[simp] theorem State.modPart_hub_replies (s : State) (n : Nat) (f : Partition → Partition) : (s.modPart n f).hub.replies = s.hub.replies := rfl
@[simp] theorem State.modPart_hub_counts (s : State) (n : Nat) (f : Partition → Partition) : (s.modPart n f).hub.counts = s.hub.counts := rfl
@[simp] theorem State.modPart_hub_ports (s : State) (n : Nat) (f : Partition → Partition) : (s.modPart n f).hub.ports = s.hub.ports := rfl
@[simp] theorem State.modPart_hub_debug (s : State) (n : Nat) (f : Partition → Partition) : (s.modPart n f).hub.debug = s.hub.debug := rfl
@[simp] theorem State.modPart_hub_nonces (s : State) (n : Nat) (f : Partition → Partition) : (s.modPart n f).hub.nonces = s.hub.nonces := rfl
@[simp] theorem State.modPart_hub_resets (s : State) (n : Nat) (f : Partition → Partition) : (s.modPart n f).hub.resets = s.hub.resets := rfl
@[simp] theorem State.modPart_hub_sleep (s : State) (n : Nat) (f : Partition → Partition) : (s.modPart n f).hub.sleep = s.hub.sleep := rfl
@[simp] theorem State.modPart_hub_decays (s : State) (n : Nat) (f : Partition → Partition) : (s.modPart n f).hub.decays = s.hub.decays := rfl
@[simp] theorem State.modPart_hub_lost (s : State) (n : Nat) (f : Partition → Partition) : (s.modPart n f).hub.lost = s.hub.lost := rfl
@[simp] theorem State.modPart_hub_domains (s : State) (n : Nat) (f : Partition → Partition) : (s.modPart n f).hub.domains = s.hub.domains := rfl
@[simp] theorem State.modPart_hub_peerQ (s : State) (n : Nat) (f : Partition → Partition) : (s.modPart n f).hub.peerQ = s.hub.peerQ := rfl
@[simp] theorem State.modPart_hub_peerLast (s : State) (n : Nat) (f : Partition → Partition) : (s.modPart n f).hub.peerLast = s.hub.peerLast := rfl
@[simp] theorem State.modPart_hub_copy (s : State) (n : Nat) (f : Partition → Partition) : (s.modPart n f).hub.copy = s.hub.copy := rfl
@[simp] theorem State.modPart_hub_later (s : State) (n : Nat) (f : Partition → Partition) : (s.modPart n f).hub.later = s.hub.later := rfl
@[simp] theorem State.modPart_hub_shut (s : State) (n : Nat) (f : Partition → Partition) : (s.modPart n f).hub.shut = s.hub.shut := rfl
@[simp] theorem State.modPart_hub_decay (s : State) (n : Nat) (f : Partition → Partition) : (s.modPart n f).hub.decay = s.hub.decay := rfl
@[simp] theorem State.ctx_modPart (s : State) (n : Nat) (f : Partition → Partition) (d : CtxRef) : (s.modPart n f).ctx d = s.ctx d := rfl
@[simp] theorem State.cell_modPart (s : State) (n : Nat) (f : Partition → Partition) (m : Nat) : (s.modPart n f).cell m = s.cell m := rfl

@[simp] theorem State.part_modPart_same (s : State) (n : Nat) (f : Partition → Partition) : (s.modPart n f).part n = f (s.part n) :=
  Table.get_modify_same _ _ _ _

theorem State.part_modPart_ne (s : State) {n m : Nat} (f : Partition → Partition) (h : m ≠ n) : (s.modPart n f).part m = s.part m :=
  Table.get_modify_ne _ _ _ h

@[simp] theorem State.modJoin_join (s : State) (f : Join → Join) : (s.modJoin f).hub.join = f s.hub.join := rfl
@[simp] theorem State.modCounts_counts (s : State) (f : PkgCounts → PkgCounts) : (s.modCounts f).hub.counts = f s.hub.counts := rfl
@[simp] theorem State.modReplies_replies (s : State) (f : Replies → Replies) : (s.modReplies f).hub.replies = f s.hub.replies := rfl
@[simp] theorem State.modHub_hub (s : State) (f : Hub → Hub) : (s.modHub f).hub = f s.hub := rfl

/-- A parked context changes in its image alone. -/
theorem State.modParked_ctx (s : State) (c d : CtxRef) (f : Ctx → Ctx) : (s.modParked c f).ctx d = s.ctx d := rfl

end Sys2Proof.Machine
end

