-- ==== Sys2Proof/Laws/Ops.lean ====
section
/-!
SUPPORT. One lemma per shared operation: what it does where it goes on. The provers cite these instead of unfolding the
operations.
-/
namespace Sys2Proof.Machine

/-! ## The action monad -/

theorem Act.bind_ok {α β : Type} {a : Act α} {f : α → Act β} {s t : State} {x : α} (h : a s = .ok (x, t)) :
    (a >>= f) s = f x t := by
  show (a s >>= fun p => f p.1 p.2) = _
  rw [h]; rfl

theorem Act.bind_error {α β : Type} {a : Act α} {f : α → Act β} {s : State} {e : Stop} (h : a s = .error e) :
    (a >>= f) s = .error e := by
  show (a s >>= fun p => f p.1 p.2) = _
  rw [h]; rfl

/-- A bind that goes on went on in both parts. -/
theorem Act.bind_inv {α β : Type} {a : Act α} {f : α → Act β} {s t : State} {y : β} (h : (a >>= f) s = .ok (y, t)) :
    ∃ x u, a s = .ok (x, u) ∧ f x u = .ok (y, t) := by
  change (a s >>= fun p => f p.1 p.2) = _ at h
  cases ha : a s with
  | error e => rw [ha] at h; cases h
  | ok p => rw [ha] at h; exact ⟨p.1, p.2, rfl, h⟩

theorem Act.pure_run {α : Type} (x : α) (s : State) : (pure x : Act α) s = .ok (x, s) := rfl

theorem cx_run (s : State) : cx s = .ok (s.ctx s.cur, s) := rfl

theorem modCx_run (f : Ctx → Ctx) (s : State) : modCx f s = .ok ((), s.changed f) := rfl

theorem curStream_run (s : State) : curStream s = .ok (s.curSt, s) := rfl

theorem curCell_run (s : State) : curCell s = .ok (s.cell s.cur.cell, s) := rfl

theorem curPc_run (s : State) : curPc s = .ok (((s.ctx s.cur).str s.curSt).pc, s) := rfl

theorem freshId_run (s : State) : freshId s = .ok (s.nextId, { s with nextId := s.nextId + 1 }) := rfl

theorem waitIf_false (w : Wait) (s : State) : waitIf false w s = .ok ((), s) := rfl

theorem waitIf_true (w : Wait) (s : State) : waitIf true w s = .error (.wait w) := rfl

theorem trapIf_false (c : Cause) (a : Word) (s : State) : trapIf false c a s = .ok ((), s) := rfl

theorem trapIf_true (c : Cause) (a : Word) (s : State) :
    trapIf true c a s = .error (.trap { cause := c, addr := a, st := s.curSt, async := false }) := rfl

/-! ## Reads -/

theorem takeQ_run (q : QRef) (k : Bool) (s : State) : takeQ q k s = .ok (s.front q, s.took q k) := by
  cases k
  · unfold takeQ State.took State.front Ctx.popped
    cases s.curIt <;> cases q <;> rfl
  · rfl

theorem checkRead_run {q : QRef} {n : Nat} {s : State} (h : (q == .zero || decide (n ≤ (s.ctx s.cur).entries q)) = true) :
    checkRead q n s = .ok ((), s) := by
  unfold checkRead
  rw [Act.bind_ok (cx_run s)]
  cases q with
  | zero => rfl
  | chan m =>
    have h' : n ≤ (s.ctx s.cur).entries (.chan m) := by simpa using h
    have e : decide ((s.ctx s.cur).entries (.chan m) < n) = false := by simp; omega
    show waitIf (decide ((s.ctx s.cur).entries (.chan m) < n)) .outside s = _
    rw [e]; rfl
  | loc k =>
    have h' : n ≤ (s.ctx s.cur).entries (.loc k) := by simpa using h
    simp only [h', if_true]; rfl
  | vec m =>
    have h' : n ≤ (s.ctx s.cur).entries (.vec m) := by simpa using h
    simp only [h', if_true]; rfl

theorem checkReads_run (all : List (QRef × Bool)) (rs : List (QRef × Bool)) (s : State)
    (h : rs.all (fun p => (s.ctx s.cur).holds all p.1) = true) : checkReads all rs s = .ok ((), s) := by
  induction rs with
  | nil => rfl
  | cons p r ih =>
    obtain ⟨q, k⟩ := p
    simp only [List.all_cons, Bool.and_eq_true] at h
    show (checkRead q (needOf q 0 all) >>= fun _ => checkReads all r) s = _
    rw [Act.bind_ok (checkRead_run h.1), ih h.2]

@[simp] theorem State.took_cur (s : State) (q : QRef) (k : Bool) : (s.took q k).cur = s.cur := by
  cases k <;> rfl

@[simp] theorem State.took_curSt (s : State) (q : QRef) (k : Bool) : (s.took q k).curSt = s.curSt := by
  cases k <;> rfl

@[simp] theorem State.took_curIt (s : State) (q : QRef) (k : Bool) : (s.took q k).curIt = s.curIt := by
  cases k <;> rfl

@[simp] theorem State.took_curG (s : State) (q : QRef) (k : Bool) : (s.took q k).curG = s.curG := by
  cases k <;> rfl

theorem readable1 {c : Ctx} {q : QRef} {k : Bool} (h : c.readable [(q, k)] = true) :
    (q == .zero || decide (1 ≤ c.entries q)) = true := by
  simpa [Ctx.readable, Ctx.holds, needOf] using h

theorem read1_run {q : QRef} {k : Bool} {s : State} (h : (s.ctx s.cur).readable [(q, k)] = true) :
    read1 q k s = .ok (s.frontWord q, s.took q k) := by
  unfold read1
  rw [Act.bind_ok (checkRead_run (readable1 h)), Act.bind_ok (takeQ_run q k s)]
  rfl

theorem read2_run {q1 q2 : QRef} {k1 k2 : Bool} {s : State} (h : (s.ctx s.cur).readable [(q1, k1), (q2, k2)] = true) :
    read2 q1 k1 q2 k2 s = .ok ((s.frontWord q1, (s.took q1 k1).frontWord q2), (s.took q1 k1).took q2 k2) := by
  unfold read2
  rw [Act.bind_ok (checkReads_run _ _ s h), Act.bind_ok (takeQ_run q1 k1 s), Act.bind_ok (takeQ_run q2 k2 _)]
  rfl

theorem read3_run {q1 q2 q3 : QRef} {k1 k2 k3 : Bool} {s : State}
    (h : (s.ctx s.cur).readable [(q1, k1), (q2, k2), (q3, k3)] = true) :
    read3 q1 k1 q2 k2 q3 k3 s =
      .ok ((s.frontWord q1, (s.took q1 k1).frontWord q2, ((s.took q1 k1).took q2 k2).frontWord q3),
        ((s.took q1 k1).took q2 k2).took q3 k3) := by
  unfold read3
  rw [Act.bind_ok (checkReads_run _ _ s h), Act.bind_ok (takeQ_run q1 k1 s), Act.bind_ok (takeQ_run q2 k2 _),
    Act.bind_ok (takeQ_run q3 k3 _)]
  rfl

/-! ## Pushes -/

theorem checkPush_run {q : QRef} {s : State} (h : (s.ctx s.cur).room q = true) : checkPush q s = .ok ((), s) := by
  unfold checkPush
  rw [Act.bind_ok (cx_run s)]
  cases q with
  | zero => rfl
  | chan m =>
    have h' : (s.ctx s.cur).entries (.chan m) + (s.ctx s.cur).pendingQ (.chan m) + 1 ≤ 8 := by
      simpa [Ctx.room, QRef.depth] using h
    have e : decide (8 ≤ (s.ctx s.cur).entries (.chan m) + (s.ctx s.cur).pendingQ (.chan m)) = false := by simp; omega
    show waitIf (decide (8 ≤ (s.ctx s.cur).entries (.chan m) + (s.ctx s.cur).pendingQ (.chan m))) .outside s = _
    rw [e]; rfl
  | loc k =>
    have h' : (s.ctx s.cur).entries (.loc k) + (s.ctx s.cur).pendingQ (.loc k) + 1 ≤ 4 := by
      simpa [Ctx.room, QRef.depth] using h
    have e : decide ((QRef.loc k).depth < (s.ctx s.cur).entries (.loc k) + (s.ctx s.cur).pendingQ (.loc k) + 1) = false :=
      decide_eq_false (Nat.not_lt.mpr h')
    show trapIf (decide ((QRef.loc k).depth < (s.ctx s.cur).entries (.loc k) + (s.ctx s.cur).pendingQ (.loc k) + 1)) .qovf _ s = _
    rw [e]; rfl
  | vec m =>
    have h' : (s.ctx s.cur).entries (.vec m) + (s.ctx s.cur).pendingQ (.vec m) + 1 ≤ 2 := by
      simpa [Ctx.room, QRef.depth] using h
    have e : decide ((QRef.vec m).depth < (s.ctx s.cur).entries (.vec m) + (s.ctx s.cur).pendingQ (.vec m) + 1) = false :=
      decide_eq_false (Nat.not_lt.mpr h')
    show trapIf (decide ((QRef.vec m).depth < (s.ctx s.cur).entries (.vec m) + (s.ctx s.cur).pendingQ (.vec m) + 1)) .qovf _ s = _
    rw [e]; rfl

theorem launchFlight_run (d : Dest) (v : Option Vec) (lat : Option Nat) (s : State) :
    launchFlight d v lat s = .ok (s.nextId, s.launched d v lat) := rfl

theorem pushLat_run {q : QRef} {s : State} (v : Vec) (lat : Nat) (h : (s.ctx s.cur).room q = true) :
    pushLat q v lat s = .ok ((), s.pushed q (some v) (some lat)) := by
  unfold pushLat
  rw [Act.bind_ok (checkPush_run h)]
  cases q <;> rfl

theorem pushSoon_run {q : QRef} {s : State} (v : Vec) (h : (s.ctx s.cur).room q = true) :
    pushSoon q v s = .ok ((), s.pushed q (some v) none) := by
  unfold pushSoon
  rw [Act.bind_ok (checkPush_run h)]
  cases q <;> rfl

theorem reserve_run {q : QRef} {s : State} (h : (s.ctx s.cur).room q = true) :
    reserve q s = .ok ((if q = .zero then none else some s.nextId), s.pushed q none none) := by
  unfold reserve
  rw [Act.bind_ok (checkPush_run h)]
  cases q <;> rfl

/-! ## Outward effects -/

theorem outward_run {s : State} (h : s.outwardOk = true) : outward s = .ok ((), s) := by
  have h' : (s.ctx s.cur).inwardOnly s.curSt s.curG = false := by simpa [State.outwardOk] using h
  show (if _ then _ else _) = _
  rw [h']; rfl

theorem outwardQs_run (qs : List QRef) {s : State} (h : s.queuesOk qs = true) : outwardQs qs s = .ok ((), s) := by
  induction qs with
  | nil => rfl
  | cons q r ih =>
    by_cases ho : s.outwardOk = true
    · cases q with
      | chan n => exact outward_run ho
      | _ => exact ih (by simp [State.queuesOk, ho])
    · have hq : (q :: r).any QRef.isChan = false := by simpa [State.queuesOk, ho] using h
      simp only [List.any_cons, Bool.or_eq_false_iff] at hq
      have hr : s.queuesOk r = true := by simp [State.queuesOk, hq.2]
      cases q with
      | chan n => simp [QRef.isChan] at hq
      | _ => exact ih hr

/-- Whether outward effects are allowed rests on the loop unit and the stream alone. -/
theorem State.outwardOk_congr {s t : State} (_hc : t.cur = s.cur) (_hs : t.curSt = s.curSt) (hi : t.curG = s.curG)
    (hl : (t.ctx t.cur).lii = (s.ctx s.cur).lii) (hx : (t.ctx t.cur).str t.curSt = (s.ctx s.cur).str s.curSt) :
    t.outwardOk = s.outwardOk := by
  unfold State.outwardOk Ctx.inwardOnly Ctx.liiAct Ctx.liiRb Ctx.liiStg
  rw [hl, hx, hi]

@[simp] theorem Ctx.dropFront_lii (c : Ctx) (q : QRef) : (c.dropFront q).lii = c.lii := by cases q <;> rfl

@[simp] theorem Ctx.dropFront_str (c : Ctx) (q : QRef) (st : Stream) : (c.dropFront q).str st = c.str st := by
  cases q <;> cases st <;> rfl

@[simp] theorem Ctx.popped_lii (c : Ctx) (it : Option Nat) (q : QRef) : (c.popped it q).lii = c.lii := by
  cases it <;> cases q <;> rfl

@[simp] theorem Ctx.popped_str (c : Ctx) (it : Option Nat) (q : QRef) (st : Stream) : (c.popped it q).str st = c.str st := by
  cases it <;> cases q <;> cases st <;> rfl

theorem State.outwardOk_took (s : State) (q : QRef) (k : Bool) : (s.took q k).outwardOk = s.outwardOk := by
  cases k
  · refine State.outwardOk_congr (by simp) (by simp) (by simp) ?_ ?_ <;> simp [State.took]
  · rfl

theorem State.launched_ctx (s : State) (d : Dest) (v : Option Vec) (lat : Option Nat) :
    (s.launched d v lat).ctx s.cur = { s.ctx s.cur with
      flights := (s.ctx s.cur).flights ++
        [{ tok := s.nextId, st := s.curSt, dest := d, val := v, due := s.dueIn lat, it := s.curIt }] } :=
  State.ctx_modCtx_same _ _ _

theorem State.outwardOk_launched (s : State) (d : Dest) (v : Option Vec) (lat : Option Nat) :
    (s.launched d v lat).outwardOk = s.outwardOk := by
  have hc : (s.launched d v lat).cur = s.cur := rfl
  have hst : (s.launched d v lat).curSt = s.curSt := rfl
  refine State.outwardOk_congr hc hst rfl ?_ ?_
  · rw [hc, State.launched_ctx]
  · rw [hc, hst, State.launched_ctx]
    cases s.curSt <;> rfl

theorem State.outwardOk_pushed (s : State) (q : QRef) (v : Option Vec) (lat : Option Nat) :
    (s.pushed q v lat).outwardOk = s.outwardOk := by
  cases q <;> first | rfl | exact State.outwardOk_launched _ _ _ _

theorem State.queuesOk_took (s : State) (q : QRef) (k : Bool) (l : List QRef) : (s.took q k).queuesOk l = s.queuesOk l := by
  simp [State.queuesOk, State.outwardOk_took]

theorem State.queuesOk_pushed (s : State) (q : QRef) (v : Option Vec) (lat : Option Nat) (l : List QRef) :
    (s.pushed q v lat).queuesOk l = s.queuesOk l := by
  simp [State.queuesOk, State.outwardOk_pushed]

/-! ## Guards and outcomes -/

theorem finish_seq {len : Nat} {call : Bool} {body : Act Flow} {s t : State} (h : body s = .ok (.seq, t)) (hc : t.cur = s.cur)
    (hs : t.curSt = s.curSt) : finish len call body s = .next (t.retired len) := by
  simp only [finish, h, State.retired, hc, hs]

theorem finish_jump {len : Nat} {call : Bool} {body : Act Flow} {s t : State} {a : Word} (h : body s = .ok (.jump a, t))
    (hc : t.cur = s.cur) (hs : t.curSt = s.curSt) : finish len call body s = .next (t.branched a call) := by
  simp only [finish, h, State.branched, hc, hs]

theorem finish_done {len : Nat} {call : Bool} {body : Act Flow} {s t : State} (h : body s = .ok (.done, t)) :
    finish len call body s = .next t.issuedOnly := by
  simp only [finish, h, State.issuedOnly]

theorem finish_stay {len : Nat} {call : Bool} {body : Act Flow} {s t : State} (h : body s = .ok (.stay, t)) :
    finish len call body s = .next (t.noted .waiting) := by
  simp only [finish, h]

theorem finish_wait {len : Nat} {call : Bool} {body : Act Flow} {s : State} {w : Wait} (h : body s = .error (.wait w)) :
    finish len call body s = .next (s.waitsAt w) := by
  cases w <;> simp [finish, h, State.waitsAt, State.waitsOn, Wait.leavesFence]

theorem finish_trap {len : Nat} {call : Bool} {body : Act Flow} {s : State} {t : Trap} (h : body s = .error (.trap t)) :
    finish len call body s = .next (((s.noteMiss s.cur t).raise s.cur t).noted (.trapped t .none)) := by
  simp only [finish, h]

theorem finish_poison {len : Nat} {call : Bool} {body : Act Flow} {s : State} {t : Trap} {e : Consumed}
    (h : body s = .error (.poison t e)) :
    finish len call body s = .next (((s.eats s.cur t.st e s.nextId).raise s.cur t).noted (.trapped t e)) := by
  simp only [finish, h]

theorem predReady_run {n : Nat} {s : State}
    (h : (n == 0 || decide (8 ≤ n) || (s.ctx s.cur).pending (.pred n) == 0) = true) : predReady n s = .ok ((), s) := by
  unfold predReady
  rw [Act.bind_ok (cx_run s)]
  have e : (n != 0 && decide (n < 8) && (s.ctx s.cur).pending (.pred n) != 0) = false := by
    simp only [Bool.or_eq_true, beq_iff_eq, decide_eq_true_eq] at h
    rcases h with (h | h) | h
    · simp [h]
    · have : decide (n < 8) = false := by simp; omega
      simp [this]
    · simp [h]
  rw [e]; rfl

theorem guarded_run {g : BitVec 4} {body : Act Flow} {s : State} (h : s.guardOpen g = true) :
    guarded g body s = body (s.entered g) := by
  simp only [State.guardOpen, Bool.and_eq_true] at h
  unfold guarded
  rw [Act.bind_ok (predReady_run h.1), Act.bind_ok (cx_run s), if_pos h.2]
  rfl

/-- A guard that is known and false: the word retires with no effect (04 R85). -/
theorem guarded_false {g : BitVec 4} {body : Act Flow} {s : State}
    (hr : (g.toNat == 0 || decide (8 ≤ g.toNat) || (s.ctx s.cur).pending (.pred g.toNat) == 0) = true)
    (hf : (s.ctx s.cur).cond g.toNat = false) : guarded g body s = .ok (.seq, s) := by
  unfold guarded
  rw [Act.bind_ok (predReady_run hr), Act.bind_ok (cx_run s), if_neg (by simp [hf])]
  rfl

theorem seqOf_run {body : Act Unit} {s t : State} (h : body s = .ok ((), t)) : seqOf body s = .ok (.seq, t) := by
  unfold seqOf
  rw [Act.bind_ok h]; rfl

/-- A guarded word that goes on in sequence. -/
theorem word_run {g : BitVec 4} {body : Act Unit} {s t : State} (hg : s.guardOpen g = true)
    (h : body (s.entered g) = .ok ((), t)) (hc : t.cur = s.cur) (hs : t.curSt = s.curSt) :
    word g body s = .next (t.retired 1) := by
  unfold word
  refine finish_seq ?_ hc hs
  rw [guarded_run hg, seqOf_run h]

theorem plain_run {body : Act Unit} {s t : State} (h : body s = .ok ((), t)) (hc : t.cur = s.cur) (hs : t.curSt = s.curSt) :
    plain body s = .next (t.retired 1) := finish_seq (seqOf_run h) hc hs

@[simp] theorem State.pushed_cur (s : State) (q : QRef) (v : Option Vec) (lat : Option Nat) : (s.pushed q v lat).cur = s.cur := by
  cases q <;> rfl

@[simp] theorem State.pushed_curSt (s : State) (q : QRef) (v : Option Vec) (lat : Option Nat) :
    (s.pushed q v lat).curSt = s.curSt := by
  cases q <;> rfl

end Sys2Proof.Machine
end

