-- ==== Sys2Proof/Tests/Base.lean ====
section
/-!
SUPPORT. Helpers of the tests: small states, and the comparison of a step with a state.
-/
namespace Sys2Proof.Tests
open Sys2Proof.Machine

/-- A scalar queue of some values. -/
def qOf (l : List Nat) : List Ent := l.map fun v => { val := BitVec.ofNat 64 v, it := none }

/-- A vector queue of some vectors. -/
def vqOf (l : List Vec) : List VEnt := l.map fun v => { val := v, it := none }

/-- A state in which context A of cell 0 issues a word of a stream. -/
def mk (st : Stream) (f : Ctx → Ctx) : State := { State.reset with ctxs := [(0, f Ctx.init)], curSt := st }

/-- A context with scalar queues. -/
def withQs (l : List (Nat × List Nat)) (c : Ctx) : Ctx := { c with dq := l.map fun p => (p.1, qOf p.2) }

/-- A context with vector queues. -/
def withVs (l : List (Nat × List Vec)) (c : Ctx) : Ctx := { c with vq := l.map fun p => (p.1, vqOf p.2) }

/-- A step answers this next state. -/
def agrees (o : Host.Outcome State Fault Refusal) (t : State) : Bool :=
  match o with
  | .next u => decide (u = t)
  | _ => false

/-- A step answers a next state with a property. -/
def answers (o : Host.Outcome State Fault Refusal) (p : State → Bool) : Bool :=
  match o with
  | .next u => p u
  | _ => false

/-- The context that issued. -/
def at0 (s : State) : Ctx := s.ctx { cell := 0, bank := .a }

/-- The value of the last result in flight. -/
def lastVal (s : State) : Option Nat := ((at0 s).flights.getLast?.bind (·.val)).map (·.toNat)

/-- The last result in flight: value, and the cycle in which it falls due. -/
def lastDue (s : State) : Option Nat := (at0 s).flights.getLast?.bind (·.due)

end Sys2Proof.Tests
end

