-- ==== Sys2Proof/Tests/Vector.lean ====
section
/-!
SUPPORT. Witnesses of the statements about the V stream, and values from 05 and 09.
-/
namespace Sys2Proof.Tests
open Sys2Proof.Machine
set_option Elab.async false

/-- A vector of 32-bit lanes. -/
def vec4 (l : List Nat) : Vec := vecOfList 4 l

def ov : VR := { j := false, d := 3, a := 1, b := 2, ka := false, kb := false, et := 2, gm := 0 }
def vA : Vec := vec4 [7, 0xFFFFFFFF, 3, 0x80000000]
def vB : Vec := vec4 [5, 2, 33, 1]
def sv : State := mk .v fun c => { withVs [(1, [vA]), (2, [vB]), (3, [vec4 [1, 1]])] c with masks := [(1, 0xFFF0)] }
def allM : Mask := BitVec.allOnes 256

/-- The lanes of the last result in flight. -/
def lastLanes (s : State) (n : Nat) : List Nat :=
  (List.range n).map fun i => elem ((((at0 s).flights.getLast?).bind (·.val)).getD 0) 4 i

theorem witness_VectorInteger : VIntRow (.vsub ov) ov (fun w a b => (a + (2 ^ w - b)) % 2 ^ w) := .vsub ov
theorem test_VectorInteger :
    (decide (sv.runs 0 ov.ab (.vec 3) allM) && agrees (exec (.vsub ov) sv) (((sv.vRead 0 ov.ab).pushed (.vec 3)
      (some (vec4 [2, 0xFFFFFFFD, 0xFFFFFFE2, 0x7FFFFFFF])) (some 2)).retired 1)) = true := by decide +kernel
/-- 09 R197: MULH is signed, MULHU is not, a shift count counts modulo the width, SRA keeps the sign. -/
theorem test_vector_values :
    (answers (exec (.vmulh ov) sv) (fun t => lastLanes t 2 == [0, 0xFFFFFFFF]) &&
      answers (exec (.vmulhu ov) sv) (fun t => lastLanes t 2 == [0, 1]) &&
      answers (exec (.vshl ov) sv) (fun t => lastLanes t 3 == [224, 0xFFFFFFFC, 6]) &&
      answers (exec (.vsra ov) sv) (fun t => lastLanes t 4 == [0, 0xFFFFFFFF, 1, 0xC0000000]) &&
      answers (exec (.vandn ov) sv) (fun t => lastLanes t 2 == [2, 0xFFFFFFFD])) = true := by decide +kernel
/-- 04 R85: under m1 = 0xFFF0 lane 0 is masked off and reads zero. -/
theorem test_vector_mask :
    (decide (sv.runs 1 ov.ab (.vec 3) 0xFFF0) &&
      answers (exec (.vadd { ov with gm := 1 }) sv) (fun t => lastLanes t 4 == [0, 1, 36, 0x80000001])) = true := by decide +kernel
theorem witness_VectorInteger1 : VInt1Row (.vabs ov) ov (fun w a => natOf w (if intOf w a < 0 then -intOf w a else intOf w a)) := .vabs ov
theorem test_VectorInteger1 :
    (decide (sv.runs 0 ov.one (.vec 3) allM) && answers (exec (.vabs ov) sv) (fun t => lastLanes t 4 == [7, 1, 3, 0x80000000]) &&
      answers (exec (.vclz ov) sv) (fun t => lastLanes t 4 == [29, 0, 30, 0]) &&
      answers (exec (.vpopc ov) sv) (fun t => lastLanes t 4 == [3, 32, 2, 1])) = true := by decide +kernel
theorem witness_VectorInteger3 : VInt3Row (.vmad ov) ov (fun w a b c => (c + a * b) % 2 ^ w) := .vmad ov
theorem test_VectorInteger3 :
    (decide (sv.runs 0 ov.abd (.vec 3) allM) && answers (exec (.vmad ov) sv) (fun t => lastLanes t 2 == [36, 0xFFFFFFFF]) &&
      answers (exec (.vfsl ov) sv) (fun t => lastLanes t 2 == [14, 0xFFFFFFFE]) &&
      answers (exec (.vfsr ov) sv) (fun t => lastLanes t 2 == [0x80000002, 0x80000001])) = true := by decide +kernel
def ovi : VI := { j := false, d := 3, a := 1, ka := false, et := 2, gm := 0, imm := 0x3FF }
theorem witness_VectorImmediate : VImmRow (.vandi ovi) ovi (fun w a => a &&& natOf w ovi.imm.toInt) := .vandi ovi
theorem test_VectorImmediate :
    (decide (sv.runs 0 [(vRef 1, false)] (.vec 3) allM) && answers (exec (.vaddi ovi) sv) (fun t => lastLanes t 2 == [6, 0xFFFFFFFE]) &&
      answers (exec (.vandi ovi) sv) (fun t => lastLanes t 2 == [7, 0xFFFFFFFF]) &&
      answers (exec (.vsrai { ovi with imm := 1 }) sv) (fun t => lastLanes t 4 == [3, 0xFFFFFFFF, 1, 0xC0000000])) = true := by decide +kernel

/-- 09 R199: a shift of 8-bit elements by 8 is illegal, one by 7 is not. -/
theorem test_VectorInteger_shift :
    let o (n : BitVec 10) : VI := { ovi with et := 0, imm := n }
    (etBits 0 ≤ (o 8).count ∧ encode .v (.vshli (o 8)) = some [(encode .v (.vshli (o 8))).get!.headD 0] ∧
      decodeWords .v ((encode .v (.vshli (o 8))).get!.headD 0) 0 = .illegalWord ((encode .v (.vshli (o 8))).get!.headD 0)) ∧
      decodeWords .v ((encode .v (.vshli (o 7))).get!.headD 0) 0 = .vshli (o 7) := by decide +kernel
/-- 09 R197: 0x80000000 − 1 clamps to the least number and sets SAT. -/
theorem test_VectorSaturates :
    (decide (sv.runs 0 ov.ab (.vec 3) allM) && answers (exec (.vsubs ov) sv) (fun t => lastLanes t 4 == [2, 0xFFFFFFFD, 0xFFFFFFE2, 0x80000000] &&
      (at0 t).vcsr == (FpFlags.toWord { FpFlags.none with sat := true })) &&
      answers (exec (.vaddsu ov) sv) (fun t => lastLanes t 2 == [12, 0xFFFFFFFF])) = true := by decide +kernel
theorem witness_VectorSaturates :
    VSatRow (.vaddsu ov) ov (fun _ a b => (a : Int) + b) (fun _ => 0) (fun w => 2 ^ w - 1) := .vaddsu ov

theorem witness_VectorCompares : VCmpRow (.vcmpLt ov) ov (fun w a b => decide (intOf w a < intOf w b)) := .lt ov
theorem test_VectorCompares :
    (decide (sv.runs 0 ov.ab .zero allM) && agrees (exec (.vcmpLt ov) sv) (((sv.vRead 0 ov.ab).setsMask 3
      (0xFFF0#256)).retired 1)) = true := by decide +kernel
theorem witness_VectorFloatCompares : VFcmpRow (.vcmpFlt ov) ov (fun x y => !x.isNan && !y.isNan && numLt x y) (fun x y => x.isNan || y.isNan) :=
  .flt ov
/-- Lane 1 holds a NaN: FLT is false there and sets NV; −0 is not below the least subnormal's equal sign. -/
theorem test_VectorFloatCompares :
    answers (exec (.vcmpFlt ov) sv) (fun t => (at0 t).vcsr == FpFlags.toWord fpNv &&
      ((at0 t).flights.getLast?.bind (·.val)) == some (0xFF00#2048)) = true := by decide +kernel

def fA : Vec := vec4 [0x3F800000, 0x40000000, 0x7F800000]
def fB : Vec := vec4 [0x3F800000, 0x3F800000, 0xFF800000]
def sf : State := mk .v fun c => { withVs [(1, [fA]), (2, [fB]), (3, [vec4 [0x40400000]])] c with chan := [(2, qOf [9])] }
theorem witness_VectorFloat : VFpRow (.fadd ov) ov Fmt.add := .fadd ov
/-- 1 + 1 = 2, 2 + 1 = 3; ∞ − ∞ is the canonical NaN with NV. -/
theorem test_VectorFloat :
    (decide (sf.runs 0 ov.ab (.vec 3) allM) && answers (exec (.fadd ov) sf) (fun t => lastLanes t 3 == [0x40000000, 0x40400000, 0x7FC00000] &&
      lastDue t == some 4 && (at0 t).vcsr == FpFlags.toWord fpNv)) = true := by decide +kernel
theorem witness_VectorFloat1 : VFp1Row (.fsqrt ov) ov 8 sqrtFp := .fsqrt ov
/-- √2 rounds to 0x3FB504F3; 1/2 is exact; the other lanes hold 0, and 1/0 is +∞ with DZ. -/
theorem test_VectorFloat1 :
    (decide (sf.runs 0 ov.one (.vec 3) allM) && answers (exec (.fsqrt ov) sf) (fun t => lastLanes t 2 == [0x3F800000, 0x3FB504F3]) &&
      answers (exec (.frcp ov) sf) (fun t => lastLanes t 4 == [0x3F800000, 0x3F000000, 0, 0x7F800000])) = true := by decide +kernel
theorem test_VectorFma :
    (decide (sf.runs 0 ov.abd (.vec 3) allM) && answers (exec (.fma ov) sf) (fun t => lastLanes t 2 == [0x40800000, 0x40000000])) = true := by
  decide +kernel

/-- 05 R115: 3.3 converts to E4M3 0x45, with NX. -/
theorem test_VectorConverts :
    let s := mk .v (withVs [(1, [vec4 [0x40533333]])])
    (decide (s.runs 0 ov.one (.vec 3) allM) && answers (exec (.cvt ov 4) s) (fun t => lastLanes t 1 == [0x45] && lastDue t == some 3)) = true := by
  decide +kernel
/-- 05 R113: a stochastic conversion takes 16 draws. -/
theorem test_VectorConverts_stochastic :
    let s := mk .v fun c => { withVs [(1, [fA])] c with vcsr := 2 }
    (decide (s.runs 0 ov.one (.vec 3) allM) && (s.begun .v 0).outwardOk && decide ((s.ctx s.cur).rm = 2) &&
      answers (exec (.cvt ov 0) s) (fun t => (at0 t).rngpos == 16)) = true := by decide +kernel

theorem witness_VectorReductions : VRedRow (.radd ov) ov (fun m v => natOf 32 ((maskedInts m ov.et v 0).foldl (· + ·) 0)) := .radd ov
theorem test_VectorReductions :
    (decide (sv.runs 0 ov.one (.vec 3) allM) && answers (exec (.radd ov) sv) (fun t => lastLanes t 2 == [0x80000009, 0]) &&
      answers (exec (.rmax ov) sv) (fun t => lastLanes t 1 == [7]) && answers (exec (.rminu ov) sv) (fun t => lastLanes t 1 == [0]) &&
      answers (exec (.rimax ov) sv) (fun t => lastLanes t 1 == [0]) && answers (exec (.rxor ov) sv) (fun t => lastLanes t 1 == [0x7FFFFFFB])) =
      true := by decide +kernel
theorem test_VectorScan :
    agrees (exec (.vscan ov) sv) ((((sv.vRead 0 ov.one).countedEvent 8).pushed (.vec 3)
      (some (lanesVec allM 2 fun k => ((maskedElems allM 2 vA 0).take (k + 1)).foldl (· + ·) 0)) (some 8)).retired 1) = true := by decide +kernel
/-- 09 R205: 1 + 2 over the lanes, and −0 elsewhere. -/
theorem test_VectorFloatReduction :
    let s := mk .v (withVs [(1, [vec4 [0x3F800000, 0x40000000]])])
    (answers (exec (.rfadd ov) s) (fun t => lastLanes t 2 == [0x40400000, 0]) &&
      answers (exec (.vfscan ov) s) (fun t => lastLanes t 3 == [0x3F800000, 0x40400000, 0x40400000])) = true := by decide +kernel

theorem test_VectorPermutes :
    (decide (sv.runs 0 ov.ab (.vec 3) allM) && answers (exec (.vperm ov) sv) (fun t => lastLanes t 4 == [0, 3, 0, 0xFFFFFFFF]) &&
      decide (sv.curFwd = none) && answers (exec (.vsel { ov with gm := 1 }) sv) (fun t => lastLanes t 4 == [5, 0xFFFFFFFF, 3, 0x80000000])) =
      true := by decide +kernel
def svA : State := mk .v fun c => { withVs [(1, [vA])] c with dq := [(34, qOf [1])], masks := [(2, 0xF0F0)], chan := [(2, qOf [9])] }
theorem witness_VectorSlides : VPermRow (.vslup ov) ov (fun a n i => if n ≤ i then elem a (etBytes ov.et) (i - n) else 0) := .vslup ov
theorem test_VectorSlides :
    (decide (svA.runs 0 [(.vec 1, false), (.loc 34, false)] (.vec 3) allM) &&
      answers (exec (.vslup ov) svA) (fun t => lastLanes t 3 == [0, 7, 0xFFFFFFFF]) &&
      answers (exec (.vsldn ov) svA) (fun t => lastLanes t 2 == [0xFFFFFFFF, 3]) &&
      answers (exec (.vsplt ov) svA) (fun t => lastLanes t 2 == [0xFFFFFFFF, 0xFFFFFFFF])) = true := by decide +kernel
theorem witness_VectorPacks : VPackRow (.vcmpr ov) ov (fun q a i => ((picked q ov.et).map fun k => elem a (etBytes ov.et) k).getD i 0) := .vcmpr ov
theorem test_VectorPacks :
    (decide (svA.runs 0 ov.one (.vec 3) allM) && svA.maskKnown 2 &&
      answers (exec (.vcmpr ov) svA) (fun t => lastLanes t 3 == [0xFFFFFFFF, 0x80000000, 0]) &&
      answers (exec (.vexpd ov) svA) (fun t => lastLanes t 4 == [0, 7, 0, 0xFFFFFFFF])) = true := by decide +kernel
theorem test_VectorLaneMoves :
    (decide (svA.runs 0 [(.vec 1, false), (.chan 2, false)] (.vec 3) allM) && (svA.begun .v 0).outwardOk &&
      answers (exec (.vins ov) svA) (fun t => lastLanes t 3 == [9, 7, 0xFFFFFFFF]) &&
      decide (svA.runs 0 [(.vec 1, false), (.loc 34, false)] (.chan 3) allM) &&
      answers (exec (.vext ov) svA) (fun t => lastVal t == some 0xFFFFFFFF) &&
      decide (svA.runs 0 [(.loc 34, false)] (.vec 3) allM) &&
      answers (exec (.vbcst { ov with a := 2 }) svA) (fun t => lastLanes t 2 == [1, 1])) = true := by decide +kernel

theorem witness_MaskWords : MaskRow (.mandn ov) ov (fun a b => a &&& ~~~b) := .mandn ov
theorem test_MaskWords :
    let s := mk .v fun c => { withVs [(1, [vA])] c with masks := [(1, 0xFF), (2, 0x0F)] }
    (decide (s.lanes 0 = some allM) && s.maskKnown 1 && s.maskKnown 2 &&
      agrees (exec (.mandn ov) s) (((s.begun .v 0).setsMask 3 0xF0).retired 1) &&
      agrees (exec (.mnot { ov with gm := 1 }) s) (((s.begun .v 1).setsMask 3 0).retired 1)) = true := by decide +kernel
theorem test_MaskCrossings :
    let s := mk .v fun c => { withVs [(1, [vA])] c with masks := [(1, 0xFF), (2, 0x0F)] }
    (decide (s.runs 2 [] (aRef .v 3) 0x0F) && answers (exec (.mpop { ov with gm := 2 }) s) (fun t => lastVal t == some 4) &&
      decide (s.runs 0 ov.one .zero allM) && answers (exec (.mfromv ov) s) (fun t => lastVal t == some 0x81F1) &&
      decide (s.runs 0 [] (vRef 3) allM) && answers (exec (.mtov ov) s) (fun t => lastLanes t 3 == [0xFFFFFFFF, 0xFFFFFFFF, 0])) = true := by
  decide +kernel

def oa : VA := { j := false, d := 3, a := 1, ka := false, imm := 2 }
theorem witness_AddressWords : AopRow .v (.aadd oa) [(aRef .v 1, false), (aRef .v 2, false)] (aRef .v 3) (fun a b => a + b) := .aadd .v oa
/-- The keep bit covers A only; the sum lands in a queue of the stream that issues. -/
theorem test_AddressWords :
    let s := mk .x fun c => { c with dq := [(65, qOf [7]), (66, qOf [8])] }
    let rs := [(aRef .x 1, false), (aRef .x 2, false)]
    ((s.ctx s.cur).readable rs && ((s.tookAll rs).ctx s.cur).room (.loc 67) && s.queuesOk [.loc 65, .loc 66, .loc 67] &&
      agrees (exec (.aadd oa) s) (((s.tookAll rs).pushed (.loc 67) (some (wide 15)) (some 1)).retired 1)) = true := by decide +kernel

end Sys2Proof.Tests
end

