-- ==== Sys2Proof/Tests/Engines.lean ====
section
/-!
SUPPORT. Witnesses of the statements about memory words and window words of V, the coder, and the M and X streams.
-/
namespace Sys2Proof.Tests
open Sys2Proof.Machine
set_option Elab.async false

def ovm : VM := { j := false, d := 2, a := 1, ka := false, kd := false, gm := 0, et := 2, sp := 0, off := 2 }
/-- a1 holds 0x100: with the offset of 2 vectors the run starts at 0x300 of AB. -/
def svm : State := mk .v fun c => { withVs [(2, [vec4 [8, 4], vA])] c with dq := [(33, qOf [0x100])] }
def run300 : List Run := [(0, 0x300, 256)]
theorem test_VectorLoads :
    let rs := [(aRef .v 1, false)]
    let s := mk .v fun c => { c with dq := [(33, qOf [0x100])] }
    let s1 := s.vRead 0 rs
    let u := s1.pushed (.vec 2) none none
    (decide (s.runs 0 rs (.vec 2) allM) && u.mayName .ab && u.fits .ab 4 run300 &&
      decide (u.reached .ab .read run300 = some ([], u)) && u.allTranslate .ab .read run300 && u.mayLoad .ab run300 [] &&
      agrees (exec (.vld ovm) s) ((u.loads .ab run300 (byteMask allM 4) (some 0) []).retired 1)) = true := by decide +kernel
/-- 09 R213: index 8 and index 4 behind 0x300; the other lanes have index 0. -/
theorem test_VectorGathers :
    let o : VM := { ovm with kd := false, gm := 1 }
    let s := mk .v fun c => { withVs [(2, [vec4 [8, 4]])] c with dq := [(33, qOf [0x100])], masks := [(1, 0xFF)] }
    let rs := [(aRef .v 1, false), (vRef 2, false)]
    let u := (s.vRead 1 rs).pushed (.vec 2) none none
    let runs : List Run := [(0, 0x308, 4), (4, 0x304, 4)]
    (decide (s.runs 1 rs (.vec 2) 0xFF) && u.mayName .ab && u.fits .ab 4 runs && decide (elemRuns 0xFF 2 0x300 (vec4 [8, 4]) = runs) &&
      decide (u.reached .ab .read runs = some ([], u)) && u.mayLoad .ab runs [] &&
      agrees (exec (.vgath o) s) ((u.loads .ab runs (byteMask 0xFF 4) (some 0) []).retired 1)) = true := by decide +kernel
theorem test_VectorStores :
    let rs := [(aRef .v 1, false), (vRef 2, false)]
    let u := svm.vRead 0 rs
    (decide (svm.runs 0 rs .zero allM) && u.mayName .ab && u.fits .ab 4 run300 &&
      decide (u.reached .ab .write run300 = some ([], u)) && u.maySave .ab run300 &&
      agrees (exec (.vst ovm) svm) ((u.saves .ab run300 (vec4 [8, 4]) (byteMask allM 4) []).retired 1)) = true := by decide +kernel
/-- VSTB takes any byte address: 0x101 + 512. -/
theorem test_VectorStores_bytes :
    let s := mk .v fun c => { withVs [(2, [vA])] c with dq := [(33, qOf [0x101])] }
    let rs := [(aRef .v 1, false), (vRef 2, false)]
    let u := s.vRead 0 rs
    let runs : List Run := [(0, 0x301, 256)]
    (u.fits .ab 1 runs && u.maySave .ab runs &&
      agrees (exec (.vstb ovm) s) ((u.saves .ab runs vA (byteMask allM 4) []).retired 1) &&
      answers (exec (.vst ovm) s) (fun t => (at0 t).hnd || (at0 t).taddr == 0x301)) = true := by decide +kernel
theorem test_VectorScatters :
    let rs := [(aRef .v 1, false), (vRef 2, false), (vRef 2, false)]
    let s : State := svm.changed fun c => { c with masks := [(1, 0xFF)] }
    let u := s.vRead 1 rs
    let runs : List Run := [(0, 0x308, 4), (4, 0x304, 4)]
    (decide (s.runs 1 rs .zero 0xFF) && u.fits .ab 4 runs && decide (u.reached .ab .write runs = some ([], u)) && u.maySave .ab runs &&
      agrees (exec (.vscat { ovm with gm := 1 }) s) ((u.saves .ab runs vA (byteMask 0xFF 4) []).retired 1)) = true := by decide +kernel
/-- A store to virtual memory issues its accesses under the page that it names. -/
theorem test_VectorStores_virtual :
    let o : VM := { ovm with sp := 3, off := 0 }
    let s := mk .v fun c => { withVs [(2, [vA])] c with dq := [(33, qOf [0x10000])], sv := { c.sv with tlb := [placePage] } }
    let u := s.vRead 0 [(aRef .v 1, false), (vRef 2, false)]
    let runs : List Run := [(0, 0x10000, 256)]
    (u.fits .vm 4 runs && u.allTranslate .vm .write runs && u.maySave .vm runs && (match u.reached .vm .write runs with
      | some (ps, t) => decide (ps.length = 4) &&
          agrees (exec (.vst o) s) ((t.saves .vm runs vA (byteMask allM 4) ps).retired 1)
      | none => false)) = true := by decide +kernel

/-- A descriptor of a 2 × 2 image of 256 channels' bytes, one tap. -/
def wd1 (mode : Nat) : Wd :=
  BitVec.ofNat 512 (2 ^ 32 * 512 + 2 ^ 64 * 2 + 2 ^ 80 * 2 + 2 ^ 96 * 256 + 2 ^ 112 + 2 ^ 120 + 2 ^ 128 + 2 ^ 136 + 2 ^ 144 + 2 ^ 152 +
    2 ^ 200 * mode)
def ovw : VW := { j := false, d := 3, a := 1, ka := false, wd := 1, gm := 0, et := 2, mode := 0 }
def swd (mode : Nat) : State := mk .v fun c =>
  { withVs [(1, [vA]), (3, [vB])] c with wd := [(1, wd1 mode)], dq := [(35, qOf [0x400])] }
theorem test_WindowWords :
    let s := swd 1
    let rs := [(vRef 1, false), (vRef 3, false)]
    let u := (s.vRead 0 rs).pushed (.vec 3) none none
    (decide (s.runs 0 rs (.vec 3) allM) && s.windowFree 1 && s.mayName .ab && decide ((wd1 1).fails (s.limit s.cur .ab) [1] 4 (some 0) = none) &&
      u.vClean .ab (fun _ => true) [] (tapSegs 2 0 [some 0]) (wd1 1).seg [] && u.outwardOk && u.recordRoom (wd1 1).seg &&
      agrees (exec (.vwmac ovw) s) (((u.starts (.vwmac 2 1 (wd1 1) 0 vA vB none allM 0 (some 0)) (wd1 1).seg []).endsAtOnce (u.strictNow [])
        u.nextId fun t r p => t.vwmacDone r p 2 1 (wd1 1) 0 vA vB none allM 0 (some 0)).retired 1)) = true := by
  decide +kernel
theorem test_WindowWords_row :
    let s := swd 1
    let o : VW := { ovw with mode := 64 }
    let rs := [(vRef 1, false), (aRef .v 3, false)]
    let u := s.vRead 0 rs
    let row : List Seg := [{ space := .cb, addr := 0x400, len := 256 }]
    (decide (s.runs 0 rs .zero allM) && s.inside .cb 0x400 256 && u.recordRoom ((wd1 1).seg ++ row ++ row) &&
      u.vClean .ab (fun _ => true) [] (tapSegs 2 0 [some 0] ++ row) ((wd1 1).seg ++ row) row &&
      agrees (exec (.vwmac o) s) (((u.starts (.vwmac 2 1 (wd1 1) 0 vA 0x400 (some 0x400) allM 0 none) ((wd1 1).seg ++ row) row).endsAtOnce
        (u.strictNow []) u.nextId fun t r p => t.vwmacDone r p 2 1 (wd1 1) 0 vA 0x400 (some 0x400) allM 0 none).retired 1)) = true := by decide +kernel
theorem test_WindowPool :
    let s := swd 2
    let u := s.pushed (.vec 3) none none
    (decide (s.runs 0 [] (.vec 3) allM) && decide ((wd1 2).fails (s.limit s.cur .ab) [2, 3, 4] 4 (some 0) = none) && u.recordRoom (wd1 2).seg &&
      u.vClean .ab (fun _ => true) [] (tapSegs 2 0 (wd1 2).taps) (wd1 2).seg [] &&
      agrees (exec (.vwpool ovw) s) (((u.starts (.vwpool 2 1 (wd1 2) 0 allM 0 (some 0)) (wd1 2).seg []).endsAtOnce (u.strictNow []) u.nextId
        fun t r p => t.vwpoolDone r p 2 1 (wd1 2) 0 allM 0 (some 0)).retired 1)) = true := by decide +kernel

/-! ## The coder -/

def ovc : VC := { j := false, e := 2, fr := 1, x := 3, kx := false, gm := 0, mode := 0 }
/-- A table with two symbols of 2048 each. -/
def half : FreqTable := { f := 2048#13 :: 2048#13 :: List.replicate 30 0, tv := true }
def encSlot : SlotState := ({ SlotState.init with bound := true, base := 0x10000, capacity := 64 }).encodeInit
def decSlot : SlotState :=
  { SlotState.init with bound := true, decodes := true, base := 0x10000, capacity := 64, pos := 4, range := 0xFFFFFFFF, code := 0x90000000 }
def coder (x : SlotState) : State := mk .v fun c =>
  { withVs [(3, [vec4 [1], vec4 [1]])] c with
    dq := [(35, qOf [1])], tables := [(1, half)], slots := [(2, { Slot.init with now := x })], masks := [(1, 1)]
    sv := { c.sv with tlb := [placePage] } }
theorem test_CodingWords_encode :
    let s := coder encSlot
    let rs := [(aRef .v 3, false)]
    let u := s.vRead 0 rs
    let l := [tableLane (at0 s) 1 2 1 (some 1)]
    (decide (s.runs 0 rs .zero allM) && u.tablesFree [1] && u.mayCode l && agrees (exec (.rcenc ovc) s) ((u.coded l).retired 1) &&
      agrees (exec (.rcencv { ovc with gm := 1, mode := 1 }) s)
        (((s.vRead 1 [(vRef 3, false)]).coded [tableLane (at0 s) 0 2 1 (some 1)]).retired 1)) = true := by decide +kernel
/-- 10 R228: symbol 1 starts at half of the range, and CODE lies above it: r = 0xFFFFF, CODE loses 2048 r. -/
theorem test_CodingWords_decode_goes :
    let s := coder decSlot
    let l := [tableLane (at0 s) 0 2 1 none]
    (decide (s.runs 0 [] (aRef .v 3) allM) && s.tablesFree [1] && s.mayCode l && decide (s.symbols l = [1])) = true := by decide +kernel
theorem test_CodingWords_decode :
    answers (exec (.rcdec ovc) (coder decSlot)) (fun t => lastVal t == some 1 && lastDue t == some 8 &&
      ((at0 t).slot 2).now.code == 0x10000800 && ((at0 t).slot 2).now.range == 0x7FFFF800) = true := by decide +kernel
theorem test_CodingWords_decode_lanes :
    answers (exec (.rcdecv { ovc with gm := 1, mode := 1, x := 4 }) (coder decSlot)) (fun t => lastLanes t 2 == [1, 0] &&
      ((at0 t).slot 2).now.code == 0x10000800) = true := by decide +kernel
/-- 10 R235: p = 1 of 4096: CODE lies in the second interval. -/
theorem test_CodingWords_binary :
    (answers (exec (.rcbinv { ovc with gm := 1 }) (coder decSlot)) (fun t => lastLanes t 1 == [1]) &&
      answers (exec (.rcbinvEnc { ovc with gm := 1 }) (coder encSlot)) (fun t => ((at0 t).slot 2).now.low == 0xFFFFF)) = true := by decide +kernel

/-- 10 R224: 0.5, 0.25, 0.25, 0 give 2048, 1024, 1024, 0. -/
theorem test_TableWords_quantize :
    let s := mk .v (withVs [(3, [vec4 [0x3F000000, 0x3E800000, 0x3E800000, 0]])])
    let rs := [(vRef 3, false)]
    let u := s.vRead 0 rs
    (decide (s.runs 0 rs .zero allM) && u.tablesFree [1] && u.outwardOk && agrees (exec (.pquant { ovc with mode := 3 }) s)
      ((u.changed fun c => { c with tables := [(1, { f := 2048 :: 1024 :: 1024 :: List.replicate 29 0, tv := true })] }).retired 1)) = true := by
  decide +kernel
theorem test_TableWords_memory :
    let s : State := (coder encSlot).changed fun c => { c with dq := [(35, qOf [0x40])] }
    let rs := [(aRef .v 3, false)]
    let u := s.vRead 0 rs
    let runs : List Run := [(0, 0x40, 64)]
    (decide (s.runs 0 rs .zero allM) && u.tablesFree [1] && u.mayName .ab && u.fits .ab 64 runs && u.mayLoad .ab runs [] &&
      decide (u.reached .ab .read runs = some ([], u)) && decide (u.reached .ab .write runs = some ([], u)) && u.outwardOk &&
      agrees (exec (.pldf ovc) s) ((((u.recorded (.tableLoad 1 .ab 0x40) (spanSeg .ab runs) [] []).fetches u.nextId runs []).endsAtOnce
        (u.strictNow []) u.nextId fun y c p => y.tableDone c p 1 .ab 0x40).retired 1) &&
      agrees (exec (.pstf ovc) s) ((u.saves .ab runs (BitVec.ofNat 2048 0x08000800) allM []).retired 1)) = true := by decide +kernel

/-- The 32 descriptor bytes of a stream at 0x10000 of 64 bytes; the byte 16 says whether it decodes. -/
def descBytes (dec : Nat) (code : List Nat) : Table (Byte × Bool) :=
  ((List.range 32).map fun k => (k, ((if k = 2 then 1 else if k = 8 then 64 else if k = 16 then BitVec.ofNat 8 dec else 0 : Byte), false))) ++
    (List.range code.length).map fun k => (32 + k, (BitVec.ofNat 8 (code.getD k 0), false))
def initState (r : InitRead) : State := (coder SlotState.init).changed fun c => { c with dq := [(35, qOf [0x2000])], initRead := some r }
theorem test_SlotWords_bindEncoder :
    let r : InitRead := { id := 5, addr := 0x2000, code := false, len := 32, got := descBytes 0 [] }
    let s := initState r
    let x := r.desc.slot 0x2000
    (r.full && !s.emissionOut s.cur 2 && decide (badUnits 0x2000 (r.bytes 0 32) = []) && decide (r.desc.v / 2 ^ 130 = 0) && decide (r.desc.decodes = false) &&
      agrees (exec (.rcinit ovc) s) (((s.took (aRef .v 3) false).changed fun c =>
        { c with initRead := none, slots := Table.set c.slots 2 { c.slot 2 with now := x.encodeInit, marked := false } }).retired 1)) = true := by
  decide +kernel
theorem test_SlotWords_bindDecoder :
    let r : InitRead := { id := 5, addr := 0x2000, code := true, len := 36, got := descBytes 1 [1, 2, 3, 4] }
    let s := initState r
    (r.full && r.desc.decodes && answers (exec (.rcinit ovc) s) (fun t => ((at0 t).slot 2).now.code == 0x01020304 &&
      ((at0 t).slot 2).now.range == 0xFFFFFFFF && ((at0 t).slot 2).now.pos == 4 && (at0 t).initRead.isNone)) = true := by decide +kernel
theorem test_SlotWords_mark :
    let s := coder encSlot
    let z := (at0 s).slot 2
    let t : State := s.changed fun c => { c with slots := Table.set c.slots 2 { z with marked := true, saved := { z.now with pos := 9 } } }
    ((s.lanes 0).isSome && !(at0 s).slotBusy 2 && (s.begun .v 0).outwardOk &&
      agrees (exec (.rcmark ovc) s) ((s.changed fun c => { c with slots := Table.set c.slots 2 { z with saved := z.now, marked := true } }).retired 1) &&
      agrees (exec (.rcback ovc) t) ((t.changed fun c => c.setSlot 2 { z.now with pos := 9 }).retired 1) &&
      agrees (exec (.rcstat ovc) s) ((s.pushed (.chan 3) (some (wide z.stat)) none).retired 1)) = true := by decide +kernel
/-- 10 R228, R236: the flush of an encoder that has coded nothing emits four bytes of 0 less the first, which has no CACHE. -/
theorem test_SlotWords_flush :
    let da : Word := 0x10100
    let x := { encSlot with daddr := 0x10100 }
    let s := coder x
    (match s.vmParts s.cur .v .write 0 (piecesOf 0x10000 (x.flush).out.length), s.vmParts s.cur s.curSt .write 0 (piecesOf (da + 12).toNat 4) with
      | .ok _, .ok ps =>
        let y := (x.flush.s.emit x.flush.out s.nextId (at0 s).sv.pc).encodeInit
        let w := { (s.fillFor s.cur s.curSt ps) with nextId := s.nextId + 1 }
        !x.flush.past && agrees (exec (.rcflush ovc) s) (((w.changed fun c => c.setSlot 2 y).recorded (.flush 2 da y.pos) [] [] ps).retired 1)
      | _, _ => false) = true := by decide +kernel

/-! ## The M stream -/

def oma : MA := { j := false, a := 1, b := 2, c := 3, k1 := false, k2 := false, k3 := false, g := 0, mode := 3 }
def sm (f act : BitVec 4) (l : List (Nat × List Nat)) : State := mk .m fun c => { withQs l c with issCf := f, issAct := act, tagAct := act }
theorem test_MatrixFormats :
    let s := sm 0 4 []
    (s.guardOpen 0 && s.mayName .ab && agrees (exec (.mfmt oma) s) (((s.entered 0).changed fun c => { c with cf := 3, issCf := 3 }).retired 1) &&
      agrees (exec (.mfmtT oma) s) (((s.entered 0).changed fun c => { c.retag 3 with cf := 3, issCf := 3, issAct := 3 }).retired 1) &&
      agrees (exec (.mfmtT { oma with mode := 1 }) s) (s.trapped .fmtmix 4) &&
      agrees (exec (.mswap oma) s) ((((s.entered 0).starts (.mswap 0 4) [] []).changed fun x =>
        { x with issAct := 0, issSh := 4, ldSince := false }).retired 1)) = true := by decide +kernel
theorem test_MatrixPlanes :
    let s := sm 3 0 [(49, [0x100]), (50, [2])]
    let rs := [(aRef .m 1, false), (aRef .m 2, false)]
    let u := s.maRead 0 rs
    let z := sm 3 0 [(49, [0x400]), (50, [2])]
    (s.maReady 0 rs && u.outwardOk && u.recordRoom (seg .wb 0x100 49152) &&
      agrees (exec (.mldw oma) s) (((u.starts (.mldw 3 0x100 2) (seg .wb 0x100 49152) []).changed fun c =>
        { c with issSh := 3, issAct := 0, ldSince := true }).retired 1) &&
      agrees (exec (.mzero oma) z) (((z.maRead 0 rs).starts .mzero [] (seg .cb 0x400 2048)).retired 1)) = true := by decide +kernel
/-- Two rows of MSTR with a pitch of 256 and KLEN 0, which means 192. -/
theorem test_MatrixStreams :
    let s := sm 3 3 [(49, [0x40]), (50, [0x400]), (51, [2 + 256 * 2 ^ 12])]
    let rs := maReads .m oma
    let u := s.maRead 0 rs
    (s.maReady 0 rs && u.outwardOk && u.recordRoom (seg .ab 0x40 448 ++ seg .cb 0x400 2048 ++ seg .cb 0x400 2048) &&
      agrees (exec (.mstr { oma with mode := 1 }) s) ((u.starts (.mstr true false 3 0x40 0x400 2 256 0 192)
        (seg .ab 0x40 448 ++ seg .cb 0x400 2048) (seg .cb 0x400 2048)).retired 1)) = true := by decide +kernel
theorem test_MatrixWindows :
    let s : State := (sm 3 3 [(49, [0x400]), (50, [1]), (51, [2])]).changed fun c => { c with wd := [(1, wd1 0)] }
    let u := s.maRead 0 (maReads .m oma)
    (s.windowFree 1 && decide ((wd1 0).fails (s.limit s.cur .ab) [0] 1 none = none) && decide ((wd1 0).empty = false) &&
      agrees (exec (.mwin { oma with mode := 2 }) s) (((u.starts (.mwin false false 3 1 (wd1 0) 0 2 0x400 1) (wd1 0).seg (seg .cb 0x400 2048)).changed
        fun c => { c with wd := [(1, (wd1 0).setPix 2)] }).retired 1)) = true := by decide +kernel
/-- MOUT of one row to E4M3: 256 bytes of AB at 0x40. -/
theorem test_MatrixOutput :
    let s := sm 0 0 [(49, [0x400]), (50, [0x40]), (51, [1 + 0x800 * 2 ^ 32])]
    let u := s.maRead 0 (maReads .m oma)
    (s.maReady 0 (maReads .m oma) && u.recordRoom (seg .cb 0x400 1024 ++ seg .cb 0x800 3072 ++ seg .ab 0x40 256) &&
      agrees (exec (.mout { oma with mode := 0x13 }) s) ((u.starts (.mout 3 1 0x400 0x40 (1 + 0x800 * 2 ^ 32)) (seg .cb 0x400 1024 ++ seg .cb 0x800 3072)
        (seg .ab 0x40 256)).retired 1)) = true := by decide +kernel
theorem test_MatrixSelfTest :
    let s := sm 0 0 [(49, [7])]
    let t : State := s.changed fun c => { c with ldSince := true }
    let rs := [(aRef .m 1, false)]
    (agrees (exec (.mkat oma 5) s) ((((s.maRead 0 rs).starts (.mkat 7 5) [] []).changed fun c => { c with issSh := 0 }).retired 2) &&
      agrees (exec (.mkat oma 5) t) (((t.maRead 0 rs).modCell 0 fun l => { l with katskip := 1 }).retired 2)) = true := by decide +kernel

/-! ## The X stream -/

def sx (l : List (Nat × List Nat)) : State := mk .x (withQs l)
def rsX : List (QRef × Bool) := maReads .x oma
/-- A copy of 64 bytes from AB to virtual memory; a converting one under RN. -/
theorem test_CopyWords :
    let s := sx [(65, [0x10000]), (66, [0x40]), (67, [64])]
    let u := s.maRead 0 rsX
    let r : CopyReq := { word := maWord 1 oma, ssp := .ab, sa := 0x40, dsp := .vm, da := 0x10000, len := 64, ce := false, cv := 0, rm := 0,
                         soff := 0, sp := 0, dp := 0, rows := 1 }
    (s.maReady 0 rsX && s.mayName .ab && u.mayCopy r && agrees (exec (.xcpy oma) s) ((u.copies r).retired 1)) = true := by decide +kernel
/-- An XCPY2 descriptor of two rows of 64 bytes from AB to AB, pitches 128. -/
def desc2 : Table (Byte × Bool) :=
  (List.range 64).map fun k => (k, ((if k = 9 then 4 else if k = 16 then 64 else if k = 20 then 2 else if k = 24 then 128 else if k = 28 then 128 else 0 : Byte), false))
theorem test_CopyWords_descriptor :
    let d : InitRead := { id := 9, addr := 0x2000, code := false, len := 64, got := desc2 }
    let s : State := (sx [(65, [0x2000])]).changed fun c => { c with xcpy2 := some d }
    let r := copyOfDesc (maWord 2 oma) (ofBytes ((d.bytes 0 64).map (·.1)))
    (d.full && decide (copyDescBad (ofBytes ((d.bytes 0 64).map (·.1))) = none) && decide (r.rows = 2) && decide (r.sa = 0x400) &&
      (s.entered 0).mayCopy r && agrees (exec (.xcpy2 oma) s) (((((s.entered 0).copies r).took (aRef .x 1) false).changed fun c =>
        { c with xcpy2 := none }).retired 1)) = true := by decide +kernel
theorem test_GatherScatterAndFill :
    let p := 0x100 + 2 ^ 27 + 3 * 2 ^ 32 + 16 * 2 ^ 48
    let o : MA := { oma with mode := 0 }
    let s := sx [(65, [0x1000]), (66, [0x2000]), (67, [p])]
    let u := s.maRead 0 rsX
    let list : Seg := { space := .ab, addr := 0x100, len := 12 }
    let src : Seg := { space := .ab, addr := 0x2000, len := 48 }
    let dst : Seg := { space := .ab, addr := 0x1000, len := 48 }
    let whole : Seg := { space := .ab, addr := 0, len := 0x200000 }
    let fill : Seg := { space := .ab, addr := 0x1000, len := 0x20 }
    let z := sx [(65, [0x1000]), (66, [0x2000]), (67, [0x20])]
    (agrees (exec (.xgath o) s) ((u.starts (.gather 3 16 list dst src) [list, whole] [dst]).retired 1) &&
      agrees (exec (.xscat o) s) ((u.starts (.scatter 3 16 list dst src) [list, src] [whole]).retired 1) &&
      agrees (exec (.xfill o) z) (((z.maRead 0 rsX).starts (.fill 0x2000 fill) [] [fill]).retired 1) &&
      s.rangesOk [(false, list), (false, src), (true, { dst with len := 0 })] && s.maReady 0 rsX) = true := by decide +kernel
/-- A member address: AB of cell 1 at 0x100; the context is in a team of two. -/
theorem test_Transfers :
    let m := 0x100 + 2 ^ 32
    let s : State := (sx [(65, [m]), (66, [0x40]), (67, [32])]).changed fun c => { c with domt := 2 * 2 ^ 32 + 7 }
    let o : MA := { oma with mode := 0 }
    let u := s.maRead 0 rsX
    let src : Seg := { space := .ab, addr := 0x40, len := 32 }
    (s.memberOk (some .t) (BitVec.ofNat 64 m) 32 && s.rangesOk [(false, src)] && u.recordRoom [src] &&
      agrees (exec (.xsend o) s) ((u.starts (.send .t (BitVec.ofNat 64 m) src) [src] []).retired 1) &&
      agrees (exec (.xpeer o) s) ((u.starts (.peer (BitVec.ofNat 64 m) src) [src] []).retired 1) &&
      agrees (exec (.xreds o) s) ((u.starts (.sendReduce .t 0 (BitVec.ofNat 64 m) src) [src] []).retired 1)) = true := by decide +kernel
theorem test_Reduction :
    let s := sx [(65, [0x100]), (66, [0x40]), (67, [32])]
    let o : MA := { oma with mode := 0 }
    let src : Seg := { space := .ab, addr := 0x40, len := 32 }
    let dst : Seg := { space := .ab, addr := 0x100, len := 32 }
    (s.rangesOk [(false, src), (false, dst)] &&
      agrees (exec (.xred o) s) (((s.maRead 0 rsX).starts (.reduce 0 dst src) [src, dst] [dst]).retired 1)) = true := by decide +kernel
theorem test_Letterboxes :
    let s : State := (sx [(65, [5]), (66, [5])]).modCell 0 fun l => { l with letters := [(5, 7)] }
    let rs := [(aRef .x 1, false), (aRef .x 2, false)]
    let u := s.maRead 0 rs
    let w : State := s.modCell 0 fun l => { l with letters := [(5, 4)] }
    (s.maReady 0 rs && agrees (exec (.xlbw oma) s) ((u.modCell 0 fun l => { l with letters := [(5, 2)] }).retired 1) &&
      agrees (exec (.xlbw oma) w) (w.waitsAt .outside) &&
      agrees (exec (.xlbc oma) s) (((((s.entered 0).took (aRef .x 2) false).pushed (aRef .x 1) (some (wide 7)) none).modCell 0 fun l =>
        { l with letters := [] }).retired 1) &&
      agrees (exec (.xpref oma) s) ((u.starts (.prefetch 5 5) [] []).retired 1) &&
      agrees (exec (.xstat { j := false, a := 3 }) s) ((s.pushed (.chan 3) (some (wide 0)) none).retired 1)) = true := by decide +kernel

end Sys2Proof.Tests
end

