-- ==== Sys2Proof/Tests/Events.lean ====
section
/-!
SUPPORT. Witnesses of the statements about the steps of results, traps, the memory machine, the engines and transfers.
-/
namespace Sys2Proof.Tests
open Sys2Proof.Machine
set_option Elab.async false

/-- Context A of cell 0. -/
def cA : CtxRef := { cell := 0, bank := .a }

/-! ## Results, passes, halts -/

def fl (due : Option Nat) : Flight := { tok := 4, st := .s, dest := .dq 3, val := some 7, due := due, it := none }
/-- A younger result of V with the same due cycle comes later: S is slot 0. -/
def flV : Flight := { tok := 3, st := .v, dest := .vq 1, val := some 9, due := some 0, it := none }
theorem test_ResultsPassesAndHalts_due :
    let f : Flight := { tok := 4, st := .s, dest := .dq 3, val := some 7, due := some 0, it := none }
    let s := mk .s fun c => { c with flights := [flV, f] }
    ((∀ g ∈ [flV, f], ∀ e ∈ g.due, (0 : Nat) ≤ e ∧ (e = 0 → slotNo Stream.s ≤ slotNo g.st ∧ (g.st = Stream.s → f.tok ≤ g.tok))) ∧
      ((at0 s).flights.find? fun g => g.tok == f.tok) = some f ∧
      agrees (exec (.resultDue cA 4) s) (s.modCtx cA fun y => ({ y with flights := [flV] }).land (.dq 3) 7 none) = true ∧
      agrees (exec (.resultDue cA 3) s) s = true) := by decide +kernel
theorem test_ResultsPassesAndHalts_early :
    let s := mk .s fun c => { c with flights := [fl (some 5)] }
    ((at0 s).flights.find? fun g => g.tok == 4) = some (fl (some 5)) ∧ agrees (exec (.resultDue cA 4) s) s = true := by decide +kernel
/-- A result with no exposed latency. -/
theorem test_ResultsPassesAndHalts_whenever :
    let s := mk .s fun c => { c with flights := [fl none, flV] }
    (agrees (exec (.resultDue cA 4) s) (s.modCtx cA fun y => ({ y with flights := [flV] }).land (.dq 3) 7 none) &&
      answers (exec (.resultDue cA 4) s) (fun t => (at0 t).dq == [(3, qOf [7])])) = true := by decide +kernel

/-- The four streams stand at the end of a pass of a loop at 0x100 .. 0x110: STG 1, PASS 2, N 9, LPW 5. -/
def passed (lc : Word) (restart : Bool) : State := mk .s fun c =>
  let r : StreamState := { StreamState.init with pc := 0x110, lc0 := lc, ls0 := 0x100, le0 := 0x10C, passEnd := true }
  { c with ss := r, sv := r, sm := r, sx := r, lpw := 5, lii := BitVec.ofNat 64 (0x110 + 0x200 * restart.toNat + 2 * 2 ^ 16 + 9 * 2 ^ 40) }
theorem test_ResultsPassesAndHalts_pass :
    let s := passed 3 false
    ((at0 s).passOver ∧ (at0 s).unheld) ∧ answers (exec (.moduloPassEnd cA) s) (fun t =>
      (at0 t).liiPass == 3 && bits (at0 t).lpw 0 8 == 11 && (at0 t).sm.pc == 0x100 && (at0 t).sx.lc0 == 2) = true := by decide +kernel
theorem test_ResultsPassesAndHalts_restart :
    let s := passed 1 true
    ((at0 s).passOver ∧ (at0 s).liiRestart = true) ∧ answers (exec (.moduloPassEnd cA) s) (fun t =>
      (at0 t).liiPass == 0 && (at0 t).lpw == 1 && (at0 t).sm.pc == 0x100 && (at0 t).sx.lc0 == 10) = true := by decide +kernel
theorem test_ResultsPassesAndHalts_end :
    let s := passed 1 false
    ((at0 s).passOver ∧ (at0 s).liiRestart = false) ∧ answers (exec (.moduloPassEnd cA) s) (fun t =>
      !(at0 t).liiAct && (at0 t).sm.pc == 0x110 && (at0 t).sx.lc0 == 0) = true := by decide +kernel
theorem test_ResultsPassesAndHalts_halt :
    let s := mk .s fun c => { c with halting := true }
    ((at0 s).unheld ∧ s.asyncBusy cA = false ∧ (at0 s).liiAct = false) ∧ answers (exec (.haltBundleRetire cA) s) (fun t =>
      (at0 t).hold == .finished && (at0 t).sx.seq == 1 && (at0 t).sv.pc == 4) = true := by decide +kernel

/-! ## Traps -/

def trapOf (c : Cause) : Trap := { cause := c, addr := 0x40, st := .x, async := true }
/-- An X operation of an empty copy, in a phase, with a fault or not. -/
def opX (p : Phase) (t : Option Trap) : EngineOp :=
  { id := 5, st := .x, kind := .fill 7 { space := .ab, addr := 0x100, len := 16 }, reads := [],
    writes := [{ space := .ab, addr := 0x100, len := 16 }], phase := p, parts := [], buf := [], done := 0, pos := 0, pending := t,
    owed := none, lost := [], it := none }
theorem test_TrapsAreTakenAndAnswered_late :
    let s := mk .s fun c => { c with late := [trapOf .prot] }
    (at0 s).unheld ∧ agrees (exec (.asyncFault cA 0) s) ((s.setCtx cA { at0 s with late := [] }).raise cA (trapOf .prot)) = true := by
  decide +kernel
theorem test_TrapsAreTakenAndAnswered_pending :
    let s := mk .s fun c => { c with ops := [opX .reading (some (trapOf .prot))] }
    (at0 s).unheld ∧ (at0 s).ops.findSome? (·.pending) = some (trapOf .prot) ∧ ((at0 s).op 5).any (fun o => o.pending.isSome) = true ∧
      agrees (exec (.asyncFault cA 5) s) (s.raise cA (trapOf .prot)) = true := by decide +kernel
theorem test_TrapsAreTakenAndAnswered_local :
    let s := mk .s fun c => { c with cut := some (trapOf .swtrap), tvec := 0x800, sx := { c.sx with pc := 0x48, seq := 9 } }
    (s.mayEnter cA = true ∧ (at0 s).hnd = false ∧ (trapOf .swtrap).cause.system = false ∧ codeAddr (at0 s).tvec ≠ 0) ∧
      answers (exec (.trapEntry cA) s) (fun t => (at0 t).hnd && (at0 t).ss.pc == 0x800 && (at0 t).sx.tpc == 0x48 && (at0 t).sx.tseq == 9 &&
        (at0 t).sx.pc == 0x48 && bits (at0 t).tcause 0 8 == 0x0C && bits (at0 t).tcause 10 2 == 3 && bitOf (at0 t).tcause 14 &&
        (at0 t).taddr == 0x40 && (at0 t).cut.isNone) = true := by decide +kernel
theorem test_TrapsAreTakenAndAnswered_system :
    let s := mk .s fun c => { c with cut := some (trapOf .pfault) }
    (s.mayEnter cA = true ∧ (trapOf .pfault).cause.system = true) ∧ answers (exec (.trapEntry cA) s) (fun t =>
      !(at0 t).hnd && (at0 t).hold == .firmware && t.hub.faults.map (fun r => (r.cause, r.addr)) == [(.pfault, 0x40)]) = true := by decide +kernel
/-- A read of S has not come: the cut waits (or, if it need not, the record is written). -/
theorem test_TrapsAreTakenAndAnswered_drains :
    let s := mk .s fun c => { c with cut := some (trapOf .swtrap), flights := [fl (some 8)] }
    s.mayEnter cA = false ∧ agrees (exec (.trapEntry cA) s) s = true := by decide +kernel
/-- A cut in a handler: the first record stays, firmware hears of the second cause. -/
theorem test_TrapsAreTakenAndAnswered_double :
    let s := mk .s fun c => { c with cut := some (trapOf .align), tcause := 0x8001, taddr := 9 }
    (s.mayEnter cA = true ∧ (at0 s).hnd = true) ∧ answers (exec (.trapEntry cA) s) (fun t => (at0 t).hold == .firmware && (at0 t).taddr == 9 &&
      (at0 t).cut.isNone && t.hub.faults.map (fun r => (r.cause, r.addr)) == [(.align, 0x40)]) = true := by decide +kernel
def waitsFw : State := mk .s fun c => { c with
  hold := .firmware, tcause := 0x80, taddr := 0x40, sm := { c.sm with pc := 8, tpc := 0x90 }
  running := some { node := { part := 0, launch := 1, node := 2 }, rank := 0, splice := none, consumer := none, scratch := none } }
theorem test_TrapsAreTakenAndAnswered_firmwareOff :
    let s : State := { waitsFw with cfg := { waitsFw.cfg with firmwareOk := false } }
    waitsFw.firmwareRuns = true ∧ s.firmwareRuns = false ∧ agrees (exec (.firmwareResume cA) s) s = true := by decide +kernel
theorem test_TrapsAreTakenAndAnswered_firmware :
    let s := waitsFw
    (answers (exec (.firmwareResume cA) s) (fun t => (at0 t).hold == .free && (at0 t).sm.pc == 0x90) &&
      answers (exec (.firmwareFail cA) s) (fun t => (at0 t).hold == .failed && t.hub.fails.map (fun f => (f.1.node, f.2.status, f.2.cause, f.2.detail)) ==
        [(2, 2, 0x80, 0x40)]) &&
      agrees (exec (.firmwareRerun cA) s) (s.runAgain { part := 0, launch := 1, node := 2 })) = true := by decide +kernel
theorem test_TrapsAreTakenAndAnswered_asked :
    let s := mk .s id
    (at0 s).hold ≠ .firmware ∧ agrees (exec (.firmwareFail cA) s) s = true := by decide +kernel

/-! ## The memory machine -/

/-- An access of S of context A to 4 bytes of HBM at 0x100. -/
def acc (id : Nat) (k : AccKind) (posted performed : Bool) : Access :=
  { id := id, agent := .stream cA .s, kind := k, home := .hbm, addr := 0x100, va := 0x100, data := [(1, false), (2, false), (3, false), (4, false)],
    mask := [true, false, true, true], page := .rc, acq := false, rel := false, obs := 0, sink := .none, rank := id, posted := posted,
    performed := performed, acked := false, got := false }
def sAcc (l : List Access) : State :=
  { mk .s id with accs := l, hbm := { base := 0, cells := [(0x101, 9), (0x103, 8)], marks := [] }, nextId := 9 }
theorem test_MemoryMachineSteps_post :
    let a := acc 4 .write false false
    let s := sAcc [acc 3 .read true false, a]
    s.postable a ∧ agrees (exec (.post 4) s) (s.setAcc { a with posted := true }) = true := by decide +kernel
/-- An acquire ahead, and a release behind an unfinished access. -/
theorem test_MemoryMachineSteps_order :
    let a := acc 4 .write false false
    let q : Access := { acc 3 .read true false with acq := true, obs := 1 }
    let r : Access := { a with rel := true, obs := 1 }
    (agrees (exec (.post 4) (sAcc [q, a])) (sAcc [q, a]) && agrees (exec (.post 4) (sAcc [acc 3 .read true true, r])) (sAcc [acc 3 .read true true, r]) &&
      visible a.home q.obs) = true := by decide +kernel
theorem test_MemoryMachineSteps_write :
    let a := acc 4 .write true false
    let s := sAcc [a]
    s.performable a ∧ answers (exec (.perform 4) s) (fun t => t.hbm.readN 0x100 5 == [1, 9, 3, 4, 0]) = true := by decide +kernel
theorem test_MemoryMachineSteps_read :
    let a := acc 4 .read true false
    let s := sAcc [a]
    s.performable a ∧ answers (exec (.perform 4) s) (fun t => t.accs.map (fun b => b.data.map (·.1)) == [[0, 9, 0, 8]]) = true := by decide +kernel
theorem test_MemoryMachineSteps_atomics :
    let a := acc 4 (.amo .add 0x10) true false
    let c := acc 4 (.cas 0x08000900 5) true false
    let s := sAcc [a]
    (s.performable a ∧ (s.hbm.readP 0x100 4).any (·.2) = false) ∧
      answers (exec (.perform 4) s) (fun t => t.hbm.readN 0x100 4 == [0x10, 9, 0, 8]) = true ∧
      answers (exec (.perform 4) (sAcc [c])) (fun t => t.hbm.readN 0x100 4 == [5, 0, 0, 0]) = true := by decide +kernel
/-- An atomic meets a poisoned unit: memory is not updated. -/
theorem test_MemoryMachineSteps_poisoned :
    let a := acc 4 (.amo .add 0x10) true false
    let s : State := { sAcc [a] with hbm := { base := 0, cells := [(0x101, 9)], marks := [32] } }
    let old := s.hbm.readP 0x100 4
    s.performable a ∧ old.any (·.2) = true ∧
      agrees (exec (.perform 4) s) ({ s with performs := 1 }.setAcc { a with performed := true, stamp := 1, data := old }) = true := by decide +kernel
/-- A part that a peer's HBM does not hold is refused there: it is lost at once (17 R332). -/
theorem test_MemoryMachineSteps_beyond :
    let a : Access := { acc 4 .read true false with home := .peer, addr := 2 ^ 40 + hbmSize }
    let s := sAcc [a]
    (s.performable a ∧ a.beyondPeer = true) ∧ agrees (exec (.perform 4) s) (s.modHub fun h => { h with lost := [(4, 0)] }) = true := by decide +kernel
theorem test_MemoryMachineSteps_done :
    let w := acc 4 .write true true
    let r := acc 4 .read true true
    (answers (exec (.ack 4) (sAcc [w])) (fun t => t.accs.isEmpty) && answers (exec (.read 4) (sAcc [r])) (fun t => t.accs.isEmpty) &&
      !(sAcc [w]).isLost w) = true := by decide +kernel
/-- Two leaves of 512 MB behind the root at 0; S has still to prefetch the page at an address. -/
def sPages (l : List TlbEntry) (ahead : List (Nat × Nat)) : State :=
  { mk .s fun c => { c with ss := { c.ss with tlb := l }, prefetch := ahead } with
    hbm := { base := 0, cells := [(0, 1), (2, 1), (0x10000, 0x13), (0x10008, 0x13), (0x1000B, 0x20)], marks := [] } }
def big (n : Nat) : TlbEntry :=
  { vpn := n, size := 2 ^ 29, phys := n * 2 ^ 29, home := 0, w := true, x := false, ac := false, page := .uo }
theorem test_MemoryMachineSteps_walks :
    let s := sPages [] []
    (s.walk 0 0x1234).hit = some (big 0) ∧ (s.walk 0 0x8000_0000).hit = none ∧
      agrees (exec (.pageWalk cA .s 0x1234) s) (s.modCtx cA fun x => x.tlbTakes .s (big 0)) = true ∧
      agrees (exec (.pageWalk cA .s 0x8000_0000) s) s = true := by decide +kernel
/-- The walk that S owes fills its TLB; one that faults is discarded. -/
theorem test_MemoryMachineSteps_prefetch :
    let s := sPages [big 0] [(1, 0x10000), (0, 2 ^ 29), (0, 2 ^ 31)]
    (((at0 s).prefetch.find? fun q => q.1 == slotNo Stream.s) = some (0, 2 ^ 29) ∧ (s.walk 0 (BitVec.ofNat 64 (2 ^ 29))).hit = some (big 1)) ∧
      answers (exec (.tlbPrefetchWalk cA .s) s) (fun t => (at0 t).ss.tlb == [big 1, big 0] && (at0 t).prefetch == [(1, 0x10000), (0, 2 ^ 31)]) = true ∧
      agrees (exec (.tlbPrefetchWalk cA .s) (sPages [big 0] [(0, 2 ^ 31)])) (sPages [big 0] []) = true := by decide +kernel
/-- The access 4 is lost; `f` changes it, `g` its context. -/
def sLost (f : Access → Access) (g : Ctx → Ctx) : State :=
  let n : NodeRef := { part := 0, launch := 0, node := 0 }
  ((sAcc [f { acc 4 .read true false with home := .peer }]).modHub fun h => { h with lost := [(4, 100)], time := 100 }).modCtx cA fun c =>
    g { c with running := some { node := n, rank := 0, splice := none, consumer := none, scratch := none } }
/-- The access as it stands after its loss, and the trap that reports it. -/
def unLost (f : Access → Access) (s : State) : State :=
  (s.modHub fun h => { h with lost := [] }).setAcc { f { acc 4 .read true false with home := .peer } with posted := false, performed := false, failed := true }
def lossTrap (s : State) (u : Use) : Trap :=
  { cause := .prot, addr := 0x100, st := .s, async := true, word := (at0 s).wordOf 4, syn := some (s.synOf cA u 0x100) }
theorem test_MemoryMachineSteps_loss :
    let s := sLost id id
    let e : State := s.modHub fun h => { h with time := 99 }
    (agrees (exec (.lsaLossTimeout 4) s) ((unLost id s).raiseLate cA (some (lossTrap s .read))) && agrees (exec (.lsaLossTimeout 4) e) e &&
      s.hub.lost.any fun p => p.1 == 4) = true := by decide +kernel
/-- In a handler the failure of its own access is a double trap; an access that its context has left is given up. -/
theorem test_MemoryMachineSteps_loss_handler :
    let s := sLost id fun c => { c with tcause := 0x8001 }
    let l := fun a : Access => { a with left := true }
    let z := sLost l id
    ((at0 s).hnd = true ∧ (at0 s).hndRank ≤ 4) ∧ agrees (exec (.lsaLossTimeout 4) s) ((unLost id s).raise cA (lossTrap s .read)) = true ∧
      agrees (exec (.lsaLossTimeout 4) z) ((unLost l z).dropAcc 4) = true := by decide +kernel
/-- A lost read of a descriptor, and of an operation. -/
theorem test_MemoryMachineSteps_loss_reads :
    let i := fun a : Access => { a with sink := .init 7 0 }
    let s := sLost i id
    let o : EngineOp := { opX .reading none with id := 4 }
    let z := sLost id fun c => { c with ops := [o] }
    agrees (exec (.lsaLossTimeout 4) s)
      ((((unLost i s).dropAcc 4).modCtx cA fun y => y.dropReader 7).raiseLate cA (some { lossTrap s .read with async := false })) = true ∧
      agrees (exec (.lsaLossTimeout 4) z)
        ((unLost id z).modCtx cA fun y => y.setOp { o with pending := some (lossTrap z .read) }) = true := by decide +kernel
/-- A lost read-ahead, and a lost write of a coder slot, which stops it. -/
theorem test_MemoryMachineSteps_loss_coder :
    let r := fun a : Access => { a with sink := .coder 2 0 }
    let w := fun a : Access => { a with sink := .coder 2 0, kind := .write }
    let s := sLost r id
    let z := sLost w id
    agrees (exec (.lsaLossTimeout 4) s) (((unLost r s).dropAcc 4).raiseLate cA (some { lossTrap s .read with async := false })) = true ∧
      agrees (exec (.lsaLossTimeout 4) z) ((unLost w z).modCtx cA fun y =>
        { y with slots := [(2, { Slot.init with stopped := some (lossTrap z .write) })] }) = true := by decide +kernel
/-- A read of the host takes its answer with it. -/
theorem test_MemoryMachineSteps_host :
    let a : Access := { acc 4 .read true false with agent := .host }
    let s := sAcc [a]
    (s.performable a ∧ a.beyondPeer = false) ∧ answers (exec (.perform 4) s) (fun t => t.accs.isEmpty &&
      t.hub.replies.reads.map (fun l => l.map (·.1)) == [[0, 9, 0, 8]]) = true := by decide +kernel

/-! ## Engines -/

def rec1 (o : EngineOp) : State := mk o.st fun c => { c with ops := [o] }
def opM (k : OpKind) (p : Phase) : EngineOp := { opX p none with st := .m, kind := k }
/-- A descriptor of a 2 × 2 image of 256 channels in one tap, with a mode. -/
def wdE (mode : Nat) : Wd :=
  BitVec.ofNat 512 (2 ^ 32 * 512 + 2 ^ 64 * 2 + 2 ^ 80 * 2 + 2 ^ 96 * 256 + 2 ^ 112 + 2 ^ 120 + 2 ^ 128 + 2 ^ 136 + 2 ^ 144 + 2 ^ 152 +
    2 ^ 200 * mode)
theorem test_EngineSteps_start :
    let o := opM .mzero .held
    let x := opX .held none
    ((at0 (rec1 o)).recordFreeFor false o ∧ (at0 (rec1 x)).recordFreeFor false x ∧ (at0 (rec1 o)).holdsOps = false ∧ (∀ p ∈ (at0 (rec1 x)).ops, p.id < 5 → (rec1 x).startable cA p = false)) ∧
      agrees (exec (.engineOpStart cA 5) (rec1 o)) ((rec1 o).modCtx cA fun c => c.setOp { o with phase := .reading }) = true ∧
      agrees (exec (.engineOpStart cA 5) (rec1 x)) ((rec1 x).xGo cA { x with phase := .reading }) = true ∧
      agrees (exec (.engineOpComplete cA 5) (rec1 o)) (rec1 o) = true := by decide +kernel
/-- An older operation that may start goes first. -/
theorem test_EngineSteps_oldest :
    let o : EngineOp := { opM (.mswap 3 4) .held with writes := [] }
    let p : EngineOp := { opX .held none with id := 4 }
    let s := mk .m fun c => { c with ops := [p, o] }
    s.startable cA p = true ∧ agrees (exec (.engineOpStart cA 5) s) s = true := by decide +kernel
/-- An older operation writes what this one writes: it waits. -/
theorem test_EngineSteps_blocked :
    let o := opM .mzero .held
    let s := mk .m fun c => { c with ops := [{ opX .reading none with id := 4 }, o] }
    ¬ (at0 s).recordFreeFor false o ∧ agrees (exec (.engineOpStart cA 5) s) s = true := by decide +kernel
theorem test_EngineSteps_row :
    let o := opX .reading none
    agrees (exec (.engineOpComplete cA 5) (rec1 o)) { { rec1 o with curPc := some 0 }.xStep cA o with curPc := none } = true := by decide +kernel
/-- MZERO clears its ranges; MSWAP exchanges the planes of a SOLO cell. -/
theorem test_EngineSteps_matrix :
    let o := opM .mzero .reading
    let w := opM (.mswap 3 4) .reading
    let s : State := (rec1 o).modCell 0 fun l => { l with ab := { base := 0, cells := [(0x104, 7), (0x110, 7)], marks := [] } }
    ((rec1 o).opBusy o = false) ∧ answers (exec (.engineOpComplete cA 5) s) (fun t => t.accs.isEmpty && (at0 t).ops.isEmpty) = true ∧
      answers (exec (.engineOpComplete cA 5) (rec1 w)) (fun t => (t.cell 0).active1 && (at0 t).tagAct == 3 && (at0 t).tagSh == 4) = true := by
  decide +kernel
theorem test_EngineSteps_vector :
    let w : EngineOp := { opX .reading none with st := .v, kind := .vwrite .ab [(0, 0x100, 4)] 0x04030201 0xB }
    let r : EngineOp := { opX .reading none with st := .v, kind := .vread .ab [(0, 0x102, 2)] 0xFF (some 4) }
    let s : State := (rec1 w).modCell 0 fun l => { l with ab := { base := 0, cells := [(0x102, 7)], marks := [] } }
    let q : State := s.modCtx cA fun c => { c with ops := [r], flights := [{ flV with tok := 4, val := none, due := none }] }
    answers (exec (.engineOpComplete cA 5) s) (fun t => (t.cell 0).ab.readN 0x100 4 == [1, 2, 7, 4]) = true ∧
      (∀ x ∈ (q.leavesRecord cA r).runBytes cA r .ab [(0, 0x102, 2)], badUnits x.2.1 x.2.2 = []) ∧
      answers (exec (.engineOpComplete cA 5) q) (fun t => (at0 t).ops.isEmpty) = true := by decide +kernel
/-- Operations that end with clean buffers, with the hypotheses of what each leaves (15 R286 to R301, 09 R217, 10 R231). -/
def ends (k : OpKind) (st : Stream) : Bool :=
  let o := { opM k .reading with st := st, reads := [], writes := [] }
  let s := rec1 o
  decide (s.cleanBuffers cA) && decide (((s.leavesRecord cA o).cleanBuffers cA)) && !s.opBusy o && ((at0 s).op 5).isSome
theorem test_EngineSteps_kinds :
    (ends (.mldw 3 0 0) .m && ends (.mstr false false 7 0 0x400 1 192 0 192) .m && ends (.mwin false false 7 1 (wdE 4) 0 1 0x400 0) .m &&
      ends (.mout 4 0 0x400 0 0) .m && ends (.mkat 1 0) .m && ends (.vwmac 2 1 (wdE 4) 0 0 0 none 0 0 none) .v &&
      ends (.vwpool 2 1 (wdE 4) 0 0 0 none) .v && ends (.tableLoad 1 .ab 0) .v) = true := by decide +kernel
/-- MOUT of no row has no effect. -/
theorem test_EngineSteps_mout :
    let o := { opM (.mout 4 0 0x400 0x40 0) .reading with writes := [] }
    answers (exec (.engineOpComplete cA 5) (rec1 o)) (fun t => (at0 t).ops.isEmpty && Table.get (t.cell 0).evNow 0 7 == 0) = true := by decide +kernel
/-- VWMAC of an empty image leaves its accumulator; a tap of 2.0 times 3.0 on 1.0 gives 7.0 in lane 0. -/
theorem test_EngineSteps_vwmac :
    let acc := vec4 [0x3F800000]
    let fl4 : Flight := { flV with tok := 4, val := none, due := none }
    let run (k : OpKind) : State := ((rec1 { opM k .reading with st := .v, writes := [] }).modCtx cA fun c => { c with flights := [fl4] }).modCell 0 fun l =>
      { l with ab := { base := 0, cells := [(3, 0x40)], marks := [] } }
    (answers (exec (.engineOpComplete cA 5) (run (.vwmac 2 1 0 0 vA acc none allM 0 (some 4)))) (fun t =>
        (at0 t).flights.map (·.val) == [some acc] && bits (Table.get (at0 t).wd 0 1) 319 1 == 1) &&
      answers (exec (.engineOpComplete cA 5) (run (.vwmac 2 1 (wdE 1) 0 (vec4 [0x40400000]) acc none 0xF 0 (some 4)))) (fun t =>
        (at0 t).flights.map (·.val) == [some (vec4 [0x40E00000])])) = true := by decide +kernel
/-- A table whose 32 entries do not sum to 4096: TV is 0, and RCSR says so. -/
theorem test_EngineSteps_table :
    let o := { opM (.tableLoad 1 .ab 0x40) .reading with st := .v, writes := [] }
    answers (exec (.engineOpComplete cA 5) (rec1 o)) (fun t => !((at0 t).table 1).tv && (at0 t).rcsr == 8) = true := by decide +kernel
/-- RCFLUSH waits for the bytes of its slot, writes POSITION, and ends. -/
theorem test_EngineSteps_flush :
    let o := { opM (.flush 2 0x10100 9) .reading with st := .v, writes := [] }
    let b : WinByte := { off := 0, byte := 5, bad := false, rank := 8, pc := 0x40 }
    let s := (rec1 o).modCtx cA fun c => { c with sv := { c.sv with tlb := [placePage] } }
    let z := s.modCtx cA fun c => { c with slots := [(2, { Slot.init with now := { SlotState.init with bound := true, win := [b] } })] }
    let w := rec1 { o with phase := .writing }
    ((s.vmParts cA .v .write 0 (piecesOf (0x10100 + 12) 4)).toOption.isSome && ((at0 z).slot 2).emits &&
      agrees (exec (.engineOpComplete cA 5) z) z &&
      answers (exec (.engineOpComplete cA 5) s) (fun t => t.accs.map (fun a => a.data.map (·.1)) == [[9, 0, 0, 0]] && (at0 t).ops.length == 1) &&
      answers (exec (.engineOpComplete cA 5) w) (fun t => (at0 t).ops.isEmpty)) = true := by decide +kernel
/-- Two bytes of an encoder wait at its front; the third lies elsewhere. -/
theorem test_EngineSteps_emission :
    let wb (k : Nat) : WinByte := { off := k, byte := 5, bad := false, rank := 8, pc := 0x40 }
    let x : SlotState := { SlotState.init with bound := true, base := 0x10000, capacity := 64, win := [wb 0, wb 1, wb 7] }
    let s := mk .v fun c => { c with slots := [(2, { Slot.init with now := x })], sv := { c.sv with tlb := [placePage] } }
    (((at0 s).slot 2).now = x ∧ ((at0 s).slot 2).emits = true ∧ ((at0 s).slot 2).stopped = none ∧ (at0 s).holdsOps = false ∧ s.emissionOut cA 2 = false ∧ frontRun x = [wb 0, wb 1] ∧
      (s.vmParts cA .v .write 0 (piecesOf (x.va 0).toNat 2)).toOption.map (·.length) = some 1) ∧
      answers (exec (.coderEmissionWrite cA 2) s) (fun t => ((at0 t).slot 2).now.win == [wb 7] &&
        t.accs.map (fun a => (a.addr, a.data)) == [((placePage.place 0x10000).2, [(5, false), (5, false)])]) = true := by decide +kernel
theorem test_EngineSteps_ahead :
    let x : SlotState := { SlotState.init with bound := true, decodes := true, base := 0x10030, capacity := 64 }
    let s := mk .v fun c => { c with slots := [(2, { Slot.init with now := x })], sv := { c.sv with tlb := [placePage] } }
    (s.aheadFrom cA 2 = some (0, 64) ∧ (at0 s).holdsOps = false) ∧ answers (exec (.coderReadAhead cA 2) s) (fun t =>
      t.accs.map (fun a => (a.va, a.mask.length)) == [(0x10030, 16)]) = true := by decide +kernel

/-! ## Transfers and links -/

/-- The grant of letterbox 5: packages 0 to 3 may write 0x1000 to 0x1FFF of AB of cell 7. -/
def grant1 : BitVec 128 := BitVec.ofNat 128 (0x1000 + 0x1FFF * 2 ^ 27 + 2 ^ 71 + 5 * 2 ^ 72 + 7 * 2 ^ 80 + 3 * 2 ^ 108)
def xfer (off : Nat) : PeerTransfer :=
  { srcPkg := 2, sender := cA, rank := 5, port := 1, cell := 7, space := 0, off := off, data := [1, 2, 3, 4], marks := [] }
def granted : State := (mk .x id).modHub fun h => { h with grants := [(0, grant1)] }
theorem test_TransferAndLinkSteps_queued :
    let s := granted
    let u := s.modHub fun h => { h with peerQ := List.replicate 64 (xfer 0) }
    ((xfer 0).lands ∧ (xfer 0).inTurn s ∧ s.flitFree 1 .peer ∧ ¬ (xfer 0x200000).lands) ∧
      answers (exec (.xpeerArrival (xfer 0)) s) (fun v => v.hub.peerQ == [xfer 0] && v.hub.peerLast == [(peerKey (xfer 0), 5)]) = true ∧
      agrees (exec (.xpeerArrival (xfer 0)) u) (u.portWaits 1 (some .peer)) = true ∧
      agrees (exec (.xpeerArrival (xfer 0x200000)) s) s = true := by decide +kernel
/-- A younger transfer of the sender has come, or a full token queue holds the port: it waits. -/
theorem test_TransferAndLinkSteps_turn :
    let s := granted.modHub fun h => { h with peerLast := [(peerKey (xfer 0), 5)] }
    let z := granted.portWaits 1 (some .token)
    (¬ (xfer 0).inTurn s ∧ ¬ z.flitFree 1 .peer) ∧ agrees (exec (.xpeerArrival (xfer 0)) s) s = true ∧
      agrees (exec (.xpeerArrival (xfer 0)) z) z = true := by decide +kernel
/-- A transfer to a cell of the own package: granted, and refused. -/
theorem test_TransferAndLinkSteps_own :
    let m : Word := BitVec.ofNat 64 (2 * 2 ^ 40 + 7 * 2 ^ 32 + 0x1000)
    let o : EngineOp := { opX .writing none with kind := .peer m { space := .ab, addr := 0, len := 2 }, buf := [(0, (5, false)), (1, (6, true))] }
    let z : State := { rec1 o with cfg := { (rec1 o).cfg with package := 2 } }
    let s := z.modHub fun h => { h with grants := [(0, grant1)] }
    (o.awaitsPeer = true ∧ (at0 s).peerWaits o m = false ∧ memberPkg m = s.cfg.package ∧ s.boxOpen (memberCell m) = true ∧
      s.grantOf (memberPkg m) (memberCell m) (memberSpace m) (memberOff m) 2 = some grant1) ∧
      answers (exec (.xpeerAcknowledge cA 5 false) s) (fun t => (t.cell 7).ab.readP 0x1000 2 == [(5, true), (6, true)] &&
        Table.get (t.cell 7).letters 0 5 == 1 && (at0 t).xerr == 0) = true ∧
      answers (exec (.xpeerAcknowledge cA 5 true) z) (fun t => t.hub.counts.grantDrops == 1 && (at0 t).xerr == 0x10001) = true := by decide +kernel
/-- A transfer at its turn. -/
def queued (off : Nat) : State := granted.modHub fun h => { h with peerQ := [xfer off] }
theorem test_TransferAndLinkSteps_granted :
    let s := queued 0x1FFC
    let t := xfer 0x1FFC
    let u := s.servePeers 1
    (s.boxOpen t.cell = true ∧ s.grantOf t.srcPkg t.cell t.space.toNat t.off t.data.length = some grant1) ∧
      ((u.cell 7).ab.readN 0x1FFC 4 = [1, 2, 3, 4] ∧ Table.get (u.cell 7).letters 0 5 = 1 ∧ u.hub.replies.grants = [(2, true)] ∧ u.hub.peerQ = []) ∧
      u = ((granted.peerWrite 7 0 0x1FFC t.bytes).ringBox 7 5).modReplies fun q => { q with grants := [(2, true)] } := by decide +kernel
/-- One byte past the window: refused and counted. -/
theorem test_TransferAndLinkSteps_refused :
    let s := queued 0x1FFD
    let t := xfer 0x1FFD
    let u := s.servePeers 1
    (s.boxOpen t.cell = true ∧ s.grantOf t.srcPkg t.cell t.space.toNat t.off t.data.length = none) ∧
      u.hub.counts.grantDrops = 1 ∧ u.hub.replies.grants = [(2, false)] ∧ u.cells = s.cells := by decide +kernel
/-- XPEER to package 1 that waits for its answer. -/
def opPeer : EngineOp := { opX .writing none with kind := .peer (BitVec.ofNat 64 (2 ^ 40)) { space := .ab, addr := 0, len := 4 } }
theorem test_TransferAndLinkSteps_answer :
    let s := rec1 opPeer
    (opPeer.awaitsPeer = true ∧ (at0 s).peerWaits opPeer (BitVec.ofNat 64 (2 ^ 40)) = false ∧ memberPkg (BitVec.ofNat 64 (2 ^ 40)) ≠ s.cfg.package) ∧
      agrees (exec (.xpeerAcknowledge cA 5 true) s) (s.xDone cA opPeer) = true ∧
      agrees (exec (.xpeerAcknowledge cA 5 false) s) ((s.modCtx cA fun x => x.dropped 0 5).xDone cA opPeer) = true := by decide +kernel
def tok7 (k : BarrierCargo) : BarrierToken := { pkg := 3, port := 1, part := 0, dom := 7, step := 4, cargo := k }
def dom7 : DomRec := { part := 0, id := 7, parent := none, members := [(0, cA), (3, cA)], step := 4, halted := [] }
theorem test_TransferAndLinkSteps_tokens :
    let k := tok7 (.arrived 2)
    let s : State := (mk .s id).modHub fun h => { h with tokens := List.replicate 511 k }
    let u : State := s.modHub fun h => { h with tokens := List.replicate 512 k }
    let z := s.portWaits 1 (some .reward)
    (s.flitFree 1 .token ∧ ¬ z.flitFree 1 .token) ∧ (agrees (exec (.barrierTokenArrival k) s) (u.portWaits 1 none) &&
      agrees (exec (.barrierTokenArrival k) u) (u.portWaits 1 (some .token)) && agrees (exec (.barrierTokenArrival k) z) z) = true := by
  decide +kernel
def posted7 : Posted :=
  { part := 0, dom := 7, sender := cA, pkg := 3, rank := 9, target := 0x40, red := none, data := [(1, false), (2, true)], step := 4 }
/-- A transfer from another package waits for its barrier; without its domain it is dropped, and its sender's hub hears of it. -/
theorem test_TransferAndLinkSteps_transfers :
    let x : MemberTransfer := { sender := cA, rank := 9, target := 0x40, red := none, data := [1, 2], marks := [1] }
    let k := tok7 (.transfer x)
    let s : State := (mk .s id).modHub fun h => { h with domains := [dom7] }
    (s.domRec 0 7 = some dom7 ∧ (mk .s id).domRec 0 7 = none) ∧
      answers (exec (.barrierTokenArrival k) s) (fun u => u.hub.posted == [posted7]) = true ∧
      answers (exec (.barrierTokenArrival k) (mk .s id)) (fun u => u.hub.posted.isEmpty && u.hub.outbox == [.dropped 3 0 7 cA 9 false] &&
        u.hub.counts.dropped == 1) = true := by decide +kernel
/-- A drop elsewhere, and a member that halts. -/
theorem test_TransferAndLinkSteps_told :
    let s : State := (mk .s id).modHub fun h => { h with domains := [dom7] }
    answers (exec (.barrierTokenArrival (tok7 (.dropped cA 9 true))) s) (fun u => (at0 u).xerr == 0x10004) = true ∧
      answers (exec (.barrierTokenArrival (tok7 (.dropped cA 9 false))) s) (fun u => (at0 u).xerr == 0x10002) = true ∧
      answers (exec (.barrierTokenArrival (tok7 (.halted cA true))) s) (fun u => u.hub.domains == [{ dom7 with halted := [(3, cA)] }]) = true := by
  decide +kernel
theorem test_TransferAndLinkSteps_flits :
    let a : Access := { acc 4 .read true false with home := .peer }
    let s : State := { rec1 opPeer with accs := [a] }
    let l : FlitEvent := { port := 7, tries := 9, cargo := .lsa 4 }
    let x : FlitEvent := { port := 7, tries := 9, cargo := .xpeer cA 5 }
    let r : FlitEvent := { port := 7, tries := 8, cargo := .reward }
    (agrees (exec (.flitRetry r) s) (s.flitCounted r) && agrees (exec (.flitRetry { r with tries := 9 }) s) (s.flitCounted { r with tries := 9 }) &&
      answers (exec (.flitRetry l) s) (fun t => t.hub.lost == [(4, 12000)] && (Table.get t.hub.ports Port.init 7).drops == 1) &&
      agrees (exec (.flitRetry x) s) (((s.flitCounted x).modCtx cA fun y => y.dropped 3 5).xDone cA opPeer)) = true := by decide +kernel
theorem test_TransferAndLinkSteps_training :
    answers (exec (.giuthPortTraining 7 true) (mk .s id)) (fun t => t.hub.ports == [(7, { Port.init with up := true })]) = true := by decide +kernel
theorem test_TransferAndLinkSteps_grants :
    let s : State := (mk .s id).modCell 7 fun l => { l with letters := [(5, 3)] }
    grant1.extractLsb' 54 17 = 0 ∧ grant1.getLsbD 71 = true ∧ answers (exec (.grantTableLoad [grant1]) s) (fun t => t.hub.grants == [(0, grant1)] &&
      (t.cell 7).letters.isEmpty) = true := by decide +kernel

end Sys2Proof.Tests
end

