-- ==== Sys2Proof/Tests/Office.lean ====
section
/-!
SUPPORT. Witnesses of the statements about the hub, the join unit, launch queues, nodes, partitions and the device.
-/
namespace Sys2Proof.Tests
open Sys2Proof.Machine
set_option Elab.async false

/-! ## The hub -/

/-- Context A of cell 0 has arrived at domain 7 of one member, or of two, the other in package 3. -/
def atBarrier (n : Nat) : State := (mk .s fun c =>
  { c with domt := BitVec.ofNat 64 (7 + n * 2 ^ 32), barrier := some .t, arrived := true, barrierRank := 4 }).modHub fun h =>
    { h with domains := [{ dom7 with members := dom7.members.take n }] }
theorem test_HubSteps_barrier :
    let s := atBarrier 1
    s.barrierFull 0 7 = true ∧ cA ∈ s.membersOf 0 7 ∧ (at0 s).arrivedAt 7 = true ∧ (atBarrier 2).barrierFull 0 7 = false ∧
      answers (exec (.barrierRelease 0 7) s) (fun t => (at0 t).barrier.isNone && (at0 t).released && (at0 t).sstept == 1 && t.domStep 0 7 == 5) = true ∧
      agrees (exec (.barrierRelease 0 7) (atBarrier 2)) (atBarrier 2) = true := by decide +kernel
/-- A token of another package completes the domain: its transfer for a member here is written, the one of the next superstep stays. -/
theorem test_HubSteps_token :
    let p (step : Nat) : Posted := { posted7 with target := BitVec.ofNat 64 0, step := step }
    let s : State := (atBarrier 2).modHub fun h => { h with tokens := [tok7 (.arrived 1), { tok7 (.arrived 1) with step := 5 }], posted := [p 4, p 5] }
    s.dueTransfers 0 7 = [p 4] ∧ answers (exec (.barrierRelease 0 7) s) (fun t => (at0 t).released && t.hub.posted == [p 5] &&
      t.hub.tokens.map (·.step) == [5] && (t.cell 0).ab.readP 0 2 == [(1, true), (2, true)]) = true := by decide +kernel
theorem test_HubSteps_domains :
    let s := mk .s fun c => { c with sstepd := 5, domd := 7 + 2 * 2 ^ 32 }
    let e : DomainEntry := { parent := some 9, members := [(0, cA), (3, cA)] }
    (answers (exec (.domainRegisterWrite cA .d ⟨0xC000_0003_0000_0007, some e⟩) s) (fun t => (at0 t).domd == 0x3_0000_0007 && (at0 t).sstepd == 5 &&
        (t.domRec 0 7).map (fun d => (d.members, d.parent)) == some (e.members, some 9)) &&
      answers (exec (.domainRegisterWrite cA .d ⟨0x3_0000_0008, none⟩) s) (fun t => (at0 t).sstepd == 0) &&
      agrees (exec (.domainRegisterWrite cA .t ⟨8, none⟩) s) s && decide (domId 0xC000_0003_0000_0007 ≠ domId (at0 s).domt)) = true := by decide +kernel
/-- A store of 4 bytes over a border of 64-byte units makes two accesses; the last byte of HBM is the limit; without a domain nothing comes. -/
theorem test_HubSteps_peers :
    let s0 := sAcc [acc 4 .read true false]
    let s : State := { s0 with cfg := { s0.cfg with domain := 3 } }
    let a (addr : Nat) (op : PeerOp) : PeerAccess := { pkg := 3, agent := 5, page := .rc, addr := addr, op := op }
    (∀ a ∈ s.accs, a.id < s.nextId) ∧ s.namesPackage 3 = true ∧ s0.namesPackage 3 = false ∧
      answers (exec (.peerAccess (a 0x7E (.store [(1, false), (2, true), (3, false), (4, false)]))) s) (fun t => (t.accs.drop 1).map (fun a => (a.addr, a.data)) ==
        [(0x7E, [(1, false), (2, true)]), (0x80, [(3, false), (4, false)])] && (t.accs.drop 1).all (fun a => a.posted && a.agent == .peerPkg 3 5 && a.page == .rc)) = true ∧
      answers (exec (.peerAccess (a (hbmSize - 4) (.load 4))) s) (fun t => t.accs.length == 2) = true ∧
      answers (exec (.peerAccess (a (hbmSize - 3) (.load 4))) s) (fun t => t.accs.length == 1 && t.hub.replies.errors == [.peerAccess 3 (hbmSize - 3)]) = true ∧
      answers (exec (.peerAccess (a 0x80 (.cas 4 1 2))) s) (fun t => t.accs.getLast?.map (·.kind) == some (.cas 1 2)) = true ∧
      agrees (exec (.peerAccess (a 0x80 (.load 4))) s0) s0 = true := by decide +kernel
theorem test_HubSteps_host :
    let s := sAcc []
    s.cfg.recordOk = true ∧ (∀ a ∈ s.accs, a.id < s.nextId) ∧ 0x102 + 2 ≤ hbmSize ∧
      answers (exec (.hostMemRead 0x13E 4) s) (fun t => t.accs.map (fun a => (a.addr, a.mask.length)) == [(0x13E, 2), (0x140, 2)] &&
        t.accs.all fun a => a.agent == .host && a.posted) = true ∧
      answers (exec (.firmwareStore 0x100 0x0807060504030201) s) (fun t => t.hbm.readN 0x100 9 == [1, 2, 3, 4, 5, 6, 7, 8, 0]) = true := by decide +kernel
/-- Where a tenant exists, a read that firmware refuses gives the host nothing. -/
def tenantHost : State := (sAcc []).modPart 1 fun p => { p with defined := true, tenant := true }
theorem test_HubSteps_hostRefused :
    tenantHost.anyTenant = true ∧ (tenantHost.readRefused 0x100 2 = true →
      exec (.hostMemRead 0x100 2) tenantHost = .next { tenantHost with freeCount := 1 }) :=
  ⟨by decide +kernel, fun h => congrArg Host.Outcome.next ((if_neg (by decide +kernel)).trans (if_pos h))⟩
/-- A page of 65 bytes: it starts, it reads 64, it writes what it has read, it goes on with the last byte, it ends. -/
theorem test_HubSteps_migration :
    let r (row : Nat) (busy writing : Bool) (buf : Table (Byte × Bool)) : CopyRun :=
      { job := .page 0x100 0x200 65, row := row, busy := busy, writing := writing, buf := buf, draw := 0 }
    let s (c : Option CopyRun) : State := (sAcc []).migrates c
    let go (t : State) := exec (.pageMigrationCopy 0x100 0x200 65) t
    agrees (go (s none)) (s (some (r 0 false false []))) = true ∧
      answers (go (s (some (r 0 false false [])))) (fun t => t.accs.map (fun a => (a.addr, a.mask.length, a.kind)) == [(0x100, 64, .read)] &&
        t.hub.copy == some (r 0 true false []) && !t.unitQuiet unitCopy) = true ∧
      answers (go (s (some (r 0 true false [(3, (9, true))])))) (fun t => t.accs.map (fun a => (a.addr, a.kind, a.data.getD 3 (0, false))) ==
        [(0x200, .write, (9, true))] && t.hub.copy == some (r 0 true true [(3, (9, true))])) = true ∧
      agrees (go (s (some (r 0 true true [])))) (s (some (r 1 false false []))) = true ∧
      answers (go (s (some (r 1 false false [])))) (fun t => t.accs.map (fun a => (a.addr, a.mask.length)) == [(0x140, 1)]) = true ∧
      agrees (go (s (some (r 2 false false [])))) (s none) = true := by decide +kernel
theorem test_HubSteps_invalidation :
    let s : State := (sPages [big 0, big 1] []).modHub fun h => { h with
      tlbs := [(0, [big 1])], tlbinv := { h.tlbinv with va := 0x20000000, pages := 1 } }
    let b : State := s.modHub fun h => { h with tlbinv := { h.tlbinv with busy := some (0, 0x2000, 1) } }
    let q : State := { b with accs := [{ acc 4 .read true false with va := 0x30000004, span := (0x20000000, 0x20000000) }] }
    (agrees (exec (.tlbinvGo 0 0x100) s) b && agrees (exec (.tlbinvGo 0 0x100) b) (b.modHub fun h => { h with tlbinv := { h.tlbinv with rej := true } }) &&
      b.rangeQuiet 0 0x2000 1 && !q.rangeQuiet 0 0x2000 1 && agrees (exec (.tlbinvComplete 0) q) q &&
      answers (exec (.tlbinvComplete 0) b) (fun t => t.hub.tlbinv.busy.isNone && (at0 t).ss.tlb == [big 0] && (t.hubTlb 0).isEmpty)) = true := by
  decide +kernel

/-! ## The join unit -/

/-- A reward of 3.0 for step 1 of episode 0x77, whose window begins at entry 0x77. -/
def msg (id step resv : Nat) : BitVec 256 := BitVec.ofNat 256 (id + step * 2 ^ 64 + 0x40400000 * 2 ^ 96 + resv * 2 ^ 192)
def ent (st : JoinState) : JoinEntry :=
  { JoinEntry.init with state := st, id := 0x77, addr := 0x10000, t := 2, deadline := some 50, ctime := 9, version := 4 }
/-- Partition 0 owns the join, the hub has translated 0x10000, and entry 0x77 is in a state. -/
def sJoin (st : JoinState) (f : Join → Join) : State := (mk .s id).modHub fun h => { h with
  tlbs := [(0, [placePage])], time := 60, join := f { Join.init with owner := 8, entries := [(0x77, ent st)] } }
theorem test_JoinSteps_arrival :
    let s := sJoin .opened fun j => { j with rewards := List.replicate 1023 (0, 0), lastPort := some 2 }
    let u := sJoin .opened fun j => { j with rewards := List.replicate 1024 (0, 0) }
    (s.hub.join.lastPost = none ∧ s.hub.join.lastPort.all (fun p => decide (p ≤ 5)) = true) ∧
      answers (exec (.rewardMessageArrival ⟨5, msg 0x77 1 0⟩) s) (fun t => t.hub.join.rewards.getLast? == some (60, msg 0x77 1 0) &&
        t.hub.join.rewards.length == 1024 && t.hub.join.lastPort == some 5) = true ∧
      agrees (exec (.rewardMessageArrival ⟨1, msg 0x77 1 0⟩) s) s = true ∧
      agrees (exec (.rewardMessageArrival ⟨5, 0⟩) u) (u.portWaits 5 (some .reward)) = true ∧
      agrees (exec (.rewardMessageArrival ⟨5, 0⟩) (s.portWaits 5 (some .token))) (s.portWaits 5 (some .token)) = true := by decide +kernel
def taking (st : JoinState) (m : BitVec 256) : State := sJoin st fun j => { j with rewards := [(55, m)] }
theorem test_JoinSteps_intake :
    let s := taking .opened (msg 0x77 1 0)
    let c := taking .closed (msg 0x77 1 0)
    (s.hub.join.intake ≠ some s.hub.time ∧ s.heldMessage (msg 0x77 1 0) = false ∧ (s.tookMessage []).findLive (msgId (msg 0x77 1 0)) = some 0x77) ∧
      answers (exec (.joinMessageIntake 0) s) (fun t => t.hub.join.pool == [(55, msg 0x77 1 0)] && t.hub.join.rewards.isEmpty) = true ∧
      agrees (exec (.joinMessageIntake 0) c) ((c.tookMessage []).applyReward 0x77 (55, msg 0x77 1 0)) = true ∧
      answers (exec (.joinMessageIntake 0) c) (fun t => (t.entry 0x77).nrec == 1 && t.jcounter 2 == 1) = true := by decide +kernel
/-- Reserved bits, an unknown episode, and one that was released. -/
theorem test_JoinSteps_orphans :
    let b := taking .opened (msg 0x77 1 1)
    let u := taking .opened (msg 0x78 1 0)
    let r := taking .released (msg 0x77 1 0)
    (agrees (exec (.joinMessageIntake 0) b) ((b.tookMessage []).jcount 12 1) &&
      agrees (exec (.joinMessageIntake 0) u) ((u.tookMessage []).orphan (55, msg 0x78 1 0) 1) &&
      agrees (exec (.joinMessageIntake 0) r) ((r.tookMessage []).orphan (55, msg 0x77 1 0) 3)) = true := by decide +kernel
/-- A step of 4,096 is no step of an episode; 0xFFFF_FFFF is the terminal one. -/
theorem test_JoinSteps_step :
    let s := taking .opened (msg 0x77 4096 0)
    let e := taking .opened (msg 0x77 0xFFFFFFFF 0)
    (agrees (exec (.joinMessageIntake 0) s) ((s.tookMessage []).orphan (55, msg 0x77 4096 0) 2) &&
      answers (exec (.joinMessageIntake 0) e) (fun t => t.hub.join.pool.length == 1)) = true := by decide +kernel
/-- A full pool holds the message of an OPEN entry at the head of the queue. -/
theorem test_JoinSteps_held :
    let m := msg 0x77 1 0
    let s := sJoin .opened fun j => { j with rewards := [(55, m)], pool := List.replicate 16384 (3, msg 0x99 1 0) }
    (s.intakeDue = true ∧ s.heldMessage m = true) ∧
      answers (exec (.joinMessageIntake 0) s) (fun t => t.hub.join.rewards == [(55, m)] && t.hub.join.held && !t.intakeDue) = true := by decide +kernel
theorem test_JoinSteps_deadlines :
    let o := sJoin .opened fun j => { j with pool := [(3, msg 0x77 1 0), (4, msg 0x99 1 0)] }
    let f := sJoin .closed fun j => { j with mode := 2, fill := 5 }
    (o.testsNow 0x77 ∧ (sJoin .closed id).testsNow 0x77) ∧
      answers (exec (.openDeadline 0x77) o) (fun t => (t.entry 0x77).state == .released && (t.entry 0x77).gone && t.jcounter 9 == 1 &&
        t.hub.join.pool.length == 1 && t.hub.join.dlwr == 1) = true ∧
      answers (exec (.closeDeadlineDrop 0x77) (sJoin .closed id)) (fun t => (t.entry 0x77).state == .released && t.jcounter 7 == 1) = true ∧
      answers (exec (.closeDeadlineFill 0x77) f) (fun t => (t.entry 0x77).state == .complete && (t.entry 0x77).filled && t.jcounter 8 == 1 &&
        (t.entry 0x77).nrec == 2) = true := by decide +kernel
theorem test_JoinSteps_hold :
    let s (h : Nat) := sJoin .released fun j => { j with hold := 1, entries := [(0x77, { ent .released with since := h })] }
    let u (h : Nat) : State := (s h).modHub fun x => { x with time := 1210 }
    (answers (exec (.jholdExpiry 0x77) (u 10)) (fun t => (t.entry 0x77).state == .free) && agrees (exec (.jholdExpiry 0x77) (u 11)) (u 11)) = true := by
  decide +kernel
theorem test_JoinSteps_scan :
    let s := sJoin .complete fun j => { j with lv := 6, maxlag := 2 }
    let d := sJoin .complete fun j => { j with lv := 7, maxlag := 2 }
    (s.episodeWaits = some 0x77 ∧ s.nextJob = none ∧ ((s.atPhase 4).scan (s.episodeJob 0x77)).2 = none) ∧
      answers (exec (.scanTake 0) s) (fun t => t.hub.join.scan == some (0x77, 2)) = true ∧
      answers (exec (.scanTake 0) d) (fun t => (t.entry 0x77).state == .released && t.jcounter 10 == 1) = true := by decide +kernel
/-- The record lies in a page that does not translate: the episode is dropped, and the fault counts. -/
theorem test_JoinSteps_scanFault :
    let s := sJoin .complete fun j => { j with entries := [(0x77, { ent .complete with addr := 0x9000_0000, version := 0 })] }
    ((s.atPhase 4).scan (s.episodeJob 0x77)).2.isSome = true ∧ answers (exec (.scanTake 0) s) (fun t => (t.entry 0x77).gone && t.jcounter 14 == 1) = true := by
  decide +kernel
theorem test_JoinSteps_release :
    let s := sJoin .complete fun j => { j with scan := some (0x77, 3) }
    answers (exec (.releaseRecordEntry 0) s) (fun t => t.hub.join.learner == [BitVec.ofNat 128 (0x10000 + 2 * 2 ^ 64 + 3 * 2 ^ 96)] &&
      t.hub.join.scan.isNone && (t.entry 0x77).state == .released && t.jcounter 11 == 1) = true := by decide +kernel
/-- The registers of the join take what is written at the end of the hub cycle. -/
theorem test_JoinSteps_owner :
    let s := sJoin .opened fun j => { j with stbase := 0x20000, dlwr := 4 }
    let done (v : Word) := (s.writeLater offJowner v).applyLater
    (s.hub.later = [] ∧ s.cfg.recordOk = true) ∧ agrees (exec (.jownerWrite 9) s) (s.writeLater offJowner 9) = true ∧
      done 8 = (s.modJoin fun j => { j with stnow := 0x20000 }) ∧ (done 9).hub.join.owner = 9 ∧ (done 9).hub.join.entries = [] ∧
      (done 9).jcounter 21 = 1 ∧ agrees (exec (.deadLetterAck 3) s) (s.writeLater offDlrd 3) = true ∧
      (s.writeLater offDlrd 3).applyLater = (s.modJoin fun j => { j with dlrd := 3 }) ∧
      answers (exec .deadLetterClear s) (fun t => decide (t.applyLater = s.modJoin fun j => { j with dlwr := 0, dlrd := 0 })) = true := by decide +kernel
/-! ## Launch queues -/

/-- Queue 3 of partition 0 with a ring of words, the tail behind the last. -/
def sQueue (ws : List Nat) (live : Nat) : State := (mk .s id).modHub fun h => { h with
  tlbs := [(0, [placePage])]
  parts := [(0, { Partition.init with defined := true, queues := [(3, { LaunchQueue.init with
    tail := BitVec.ofNat 32 ws.length, live := live, ring := (List.range ws.length).map fun k => (k, BitVec.ofNat 64 (ws.getD k 0)) })] })] }
theorem test_LaunchQueueSteps_registers :
    let s := sQueue [] 0
    let m (f : LaunchQueue → LaunchQueue) : State := s.modQueue 0 3 f
    s.cfg.recordOk = true ∧ agrees (exec (.lqtailWrite 0 3 4096) s) (m fun x => { x with tail := 4096 }) = true ∧
      agrees (exec (.lqtailWrite 0 3 4097) s) (m fun x => { x with ovr := true }) = true ∧
      agrees (exec (.lqstatOvrClear 0 3 2) (m fun x => { x with ovr := true })) (m fun x => { x with ovr := false }) = true ∧
      agrees (exec (.lqerrWrite 0 3) (m fun x => { x with halt := true, reason := 2, errWord := 5 })) (m id) = true := by decide +kernel
/-- 20 R372: a header whose LENGTH is not the number of mask bits is rejected with reason 2, and the head moves past it. -/
theorem test_LaunchQueueSteps_rejected :
    let s := sQueue [0x0103_0000_0000_010F, 0, 0, 0] 0
    let r := s.readPacket 0 3 (s.queue 0 3)
    (s.served 0 3 = true ∧ r.packetReason 0 (s.queue 0 3) = 2 ∧ hdrOp (s.queue 0 3).header = 1) ∧
      agrees (exec (.launch 0 3) s) (r.packetRejected 0 3 (s.queue 0 3) 2) = true ∧ agrees (exec (.setonly 0 3) s) s = true ∧
      answers (exec (.launch 0 3) s) (fun t => (t.queue 0 3).head == 4 && (t.queue 0 3).halt && t.hub.replies.vectors == [3]) = true := by decide +kernel
/-- SETONLY of SH1, and SIGNAL of 7 to 0x10010. -/
theorem test_LaunchQueueSteps_plain :
    let s := sQueue [0x0201_0000_0000_0002, 0x99] 0
    let g := sQueue [0x0402_0000_0000_0060, 0x10010, 7] 0
    (s.served 0 3 = true ∧ s.packetReason 0 (s.queue 0 3) = 0 ∧ g.packetReason 0 (g.queue 0 3) = 0) ∧
      agrees (exec (.setonly 0 3) s) ((s.readPacket 0 3 (s.queue 0 3)).packetTaken 0 3 (s.queue 0 3)) = true ∧
      answers (exec (.setonly 0 3) s) (fun t => Table.get (t.queue 0 3).sh 0 1 == 0x99 && (t.queue 0 3).head == 2) = true ∧
      answers (exec (.signal 0 3) g) (fun t => t.hbm.read (placePage.place 0x10010).2 == 7) = true := by decide +kernel
/-- A SIGNAL to a unit of HBM that has gone bad. -/
theorem test_LaunchQueueSteps_signalFails :
    let h : State := { sQueue [0x0402_0000_0000_0060, 0x10010, 7] 0 with
      upsets := [{ mem := .hbm, unit := (placePage.place 0x10010).2 / 8, double := true }] }
    (h.packetReason 0 (h.queue 0 3) = 0 ∧ (((h.readPacket 0 3 (h.queue 0 3)).packetTaken 0 3 (h.queue 0 3)).officeWrite 0 0x10010 7).2 = false) ∧
      answers (exec (.signal 0 3) h) (fun t => t.hub.replies.errors == [.signalWrite 0 0x10010] && t.hub.replies.vectors == [512] && t.hbm == h.hbm) = true := by
  decide +kernel
theorem test_LaunchQueueSteps_fence :
    let s := sQueue [0x0300_0000_0000_0000] 0
    let w : State := (sQueue [0x0201_0000_0000_0002, 0x99] 1).modQueue 0 3 fun x => { x with fence := true }
    let z : State := s.modHub fun h => { h with shut := true }
    (s.served 0 3 = true ∧ (w.queue 0 3).fence = true ∧ (w.queue 0 3).live ≠ 0) ∧
      agrees (exec (.packetFence 0 3) s) ((s.readPacket 0 3 (s.queue 0 3)).packetTaken 0 3 (s.queue 0 3)) = true ∧
      answers (exec (.packetFence 0 3) s) (fun t => (t.queue 0 3).fence && (t.queue 0 3).head == 1) = true ∧
      agrees (exec (.setonly 0 3) w) w = true ∧ agrees (exec (.packetFence 0 3) z) z = true := by decide +kernel
/-- A LAUNCH of one node: SH0 the graph, SH1 the nodes, SH2 the completion word; MASK 7. -/
theorem test_LaunchQueueSteps_launch :
    let s := sQueue [0x0103_0000_0000_0007, 0x10000, 0x10000, 0x10008] 0
    (s.served 0 3 = true ∧ s.packetReason 0 (s.queue 0 3) = 0) ∧ answers (exec (.launch 0 3) s) (fun t => (t.queue 0 3).live == 1 &&
      (t.part 0).launches.map (fun p => (p.1, p.2.graph, p.2.nodes)) == [(0, 0x10000, 1)]) = true := by decide +kernel

/-! ## Nodes -/

/-- A node record of a kind with slots 0 to 2; `more` adds the other fields. -/
def recOf (kind a b c more : Nat) : BitVec 1024 :=
  BitVec.ofNat 1024 (kind + a * 2 ^ 704 + b * 2 ^ 720 + c * 2 ^ 736 + 0xFFFFFFFFFFFFFFFFFFFF * 2 ^ 752 + more)
def n0 : NodeRef := { part := 0, launch := 1, node := 0 }
def nd (st : NodeStatus) (r : BitVec 1024) : NodeInfo := { NodeInfo.init with status := st, record := r }
def lau (ns : List NodeInfo) : Launch :=
  { queue := 3, number := 6, graph := 0x10000, entry := 0, nodes := ns.length, done := 0x10100, value := 5, irq := true, cap := 2,
    args := [], hint := 0, table := (List.range ns.length).zip ns, ended := false, failed := false }
/-- Launch 1 of partition 0 with some nodes; device HBM holds bytes from 0x10000 of the space on. -/
def sNode (ns : List NodeInfo) (bytes : List (Nat × Nat)) (f : Ctx → Ctx) : State :=
  { (mk .s f).modHub fun h => { h with tlbs := [(0, [placePage])], parts := [(0, { Partition.init with
      defined := true, launches := [(1, lau ns)], nextLaunch := 2, queues := [(3, { LaunchQueue.init with live := 1 })] })] } with
    hbm := bytes.foldl (fun m p => m.write ((placePage.place (BitVec.ofNat 64 p.1)).2) (BitVec.ofNat 8 p.2)) (Memory.blank 0)
    cells := [(0, { Cell.init with part := some 0 })] }
def kernel1 : BitVec 1024 := recOf 0 0xFFFF 0xFFFF 0xFFFF (0x10800 * 2 ^ 64)
/-- The prologue of an image, and one word in each stream. -/
def image1 : List (Nat × Nat) := [(0x10800, 1), (0x10828, 1), (0x10830, 1), (0x10838, 1), (0x10840, 1)]
/-- A SCAN job starts in its turn, goes on until its accesses have ended, and ends. -/
theorem test_JoinSteps_job :
    let r : BitVec 1024 := recOf 4 0xFFFF 0xFFFF 0xFFFF (0x10240 * 2 ^ 64)
    let s := sNode [nd .ready r] [] id
    let w : State := { s.modJoin fun j => { j with job := some n0 } with accs := [{ acc 4 .write true false with agent := .hub unitScan 0 }] }
    let e : State := { w with accs := [] }
    (s.phaseOpen 4 = true ∧ (s.nextJob).map (·.1) = some n0 ∧ s.episodeWaits = none ∧ w.unitQuiet unitScan = false ∧ e.unitQuiet unitScan = true) ∧
      agrees (exec (.scanJob n0) s) (((s.atPhase 4).runScanJob n0).servedKind true) = true ∧ agrees (exec (.scanJob n0) w) w = true ∧
      agrees (exec (.scanJob n0) e) ((e.atPhase 4).endJob n0) = true ∧ answers (exec (.scanJob n0) e) (fun t => t.hub.join.job.isNone) = true := by
  decide +kernel
theorem test_NodeSteps_placement :
    let s := sNode [nd .ready kernel1] image1 id
    let p : Placement := { members := [cA], second := [], domain := 5 }
    (s.placesNext n0 ∧ s.teamsFor n0 = some [[cA]] ∧ s.domainFresh 0 5 = true ∧ s.domainFresh 0 6 = true) ∧
      answers (exec (.nodePlacement n0 p) s) (fun t => (t.nodeInfo n0).status == .running && (at0 t).running.map (·.node) == some n0 &&
        (at0 t).domt == 0x1_0000_0005 && (at0 t).param.length == 8) = true := by decide +kernel
theorem test_NodeSteps_badImage :
    let s := sNode [nd .ready kernel1] [] id
    let p : Placement := { members := [cA], second := [], domain := 5 }
    (s.placesNext n0 ∧ (match s.program n0 with | .bad st c _ => (st, c) == (5, 0) | _ => false) = true) ∧
      agrees (exec (.nodePlacement n0 p) s) (s.nodeFails n0 5 0 0) = true ∧ ¬ (sNode [nd .running kernel1] [] id).placesNext n0 := by decide +kernel
def onA (h : Hold) (c : Ctx) : Ctx :=
  { c with hold := h, running := some { node := n0, rank := 0, splice := none, consumer := none, scratch := none } }
def runs1 (h : Hold) : State := sNode [{ nd .running kernel1 with teams := [[cA]] }] [] (onA h)
/-- The end of the only node: its record, the completion word, and the interrupt. -/
theorem test_NodeSteps_kernel :
    ((runs1 .finished).stands n0 .running kKernel ∧ (runs1 .finished).kernelDone n0 = true ∧ (runs1 .free).kernelDone n0 = false) ∧
      answers (exec (.nodeCompletion n0) (runs1 .finished)) (fun t => (t.part 0).launches.isEmpty && t.hub.replies.vectors == [3] &&
        t.hbm.read (placePage.place 0x10100).2 == 5 && (at0 t).running.isNone) = true ∧
      answers (exec (.nodeCompletion n0) (runs1 .free)) (fun t => (at0 t).running.isSome && (t.nodeInfo n0).status == .running) = true := by decide +kernel
/-- COND with a decision word of 0 releases slot 1; node 2 of the graph becomes ready. -/
theorem test_NodeSteps_decisions :
    let c := recOf 1 1 2 0xFFFF (0x10200 * 2 ^ 896)
    let w := recOf 2 1 2 0xFFFF (0x10200 * 2 ^ 896)
    let two := [{ NodeInfo.init with count := 1 }, { NodeInfo.init with count := 1 }]
    let s := sNode (nd .ready c :: two) [] id
    let q := sNode (nd .ready w :: two) [(0x10200, 2)] id
    (s.stands n0 .ready kCond ∧ (s.officeRead 0 (recCaddr c) 8).toOption = some 0 ∧ q.stands n0 .ready kSwitch ∧
      (q.officeRead 0 (recCaddr w) 8).toOption = some 2) ∧
      answers (exec (.nodeCompletion n0) s) (fun t => (t.nodeInfo { n0 with node := 2 }).count == 0 && (t.nodeInfo { n0 with node := 1 }).count == 1) = true ∧
      answers (exec (.nodeCompletion n0) q) (fun t => (t.part 0).launches.isEmpty) = true := by decide +kernel
/-- A decision word that does not translate fails its node. -/
theorem test_NodeSteps_unread :
    let c := recOf 1 0xFFFF 0xFFFF 0xFFFF (0x40000000 * 2 ^ 896)
    let s := sNode [nd .ready c] [] id
    (s.stands n0 .ready kCond ∧ (s.officeRead 0 (recCaddr c) 8).toOption = none) ∧
      answers (exec (.nodeCompletion n0) s) (fun t => (t.part 0).launches.isEmpty && t.hub.replies.vectors == [3]) = true := by decide +kernel
/-- A spliced pair ends with both nodes; a dual run ends where its signatures agree. -/
theorem test_NodeSteps_pair :
    let p : NodeInfo := { nd .running kernel1 with teams := [[cA]], partner := some 1, splice := some 1 }
    let s := sNode [p, { nd .running kernel1 with consumer := true, partner := some 0 }] [] (onA .finished)
    let d : NodeInfo := { nd .running (recOf 0 0xFFFF 0xFFFF 0xFFFF (0x10800 * 2 ^ 64 + 2 ^ 10)) with teams := [[cA]], scratches := [0] }
    let u := sNode [d] [] (onA .finished)
    (s.stands n0 .running kKernel ∧ s.kernelDone n0 = true ∧ u.stands n0 .running kKernel ∧ recDual (u.nodeInfo n0).record = true ∧
      u.kernelDone n0 = true ∧ (u.signature n0 none).toOption = (u.signature n0 (some 0)).toOption) ∧
      answers (exec (.nodeCompletion n0) s) (fun t => (t.part 0).launches.isEmpty && (at0 t).running.isNone) = true ∧
      answers (exec (.nodeCompletion n0) u) (fun t => (t.part 0).launches.isEmpty && (at0 t).running.isNone) = true := by decide +kernel
/-- A dual run that has run; `sigs` holds what its first two signatures were. Without a signed region a signature is 0. -/
def dualNode (sigs : List Word) (h : Hold) : State :=
  sNode [{ nd .running (recOf 0 0xFFFF 0xFFFF 0xFFFF (0x10800 * 2 ^ 64 + 2 ^ 10)) with teams := [[cA], [cA]], scratches := [0, 1], sigs := sigs }] []
    (onA h)
/-- The third run decides between two signatures; where it agrees with none, the node fails with status 4. -/
theorem test_NodeSteps_thirdRun :
    let s (l : List Word) := dualNode l .finished
    ((s [0, 6]).kernelDone n0 = true ∧ ((s [0, 6]).signature n0 (some 1)).toOption = some 0 ∧ (s [0, 6]).stands n0 .running kKernel) ∧
      answers (exec (.nodeCompletion n0) (s [0, 6])) (fun t => (t.cell 0).score == 64 && (t.part 0).launches.isEmpty) = true ∧
      answers (exec (.nodeCompletion n0) (s [5, 0])) (fun t => (t.cell 0).score == 64) = true ∧
      answers (exec (.nodeCompletion n0) (s [5, 6])) (fun t => (t.cell 0).score == 32) = true := by decide +kernel
/-- Two signatures that differ: the node waits for its third run. -/
theorem test_NodeSteps_dualMiss :
    let g : Region := { space := 0, base := 0x10300, len := 8, reads := false, writes := true, retained := false, transient := false, id := 0 }
    let s0 := sNode [{ nd .running (recOf 0 0xFFFF 0xFFFF 0xFFFF (0x10800 * 2 ^ 64 + 2 ^ 10)) with teams := [[cA], [cA]], scratches := [0, 1], regions := [g] }]
      [(0x10300, 7)] (onA .finished)
    let s : State := { s0 with scratch := [(0, Memory.blank 0)] }
    (s.stands n0 .running kKernel ∧ s.kernelDone n0 = true ∧ (s.signature n0 none).toOption.isSome = true ∧
      (s.signature n0 none).toOption ≠ (s.signature n0 (some 0)).toOption) ∧
      answers (exec (.nodeCompletion n0) s) (fun t => (t.nodeInfo n0).status == .ready && (t.nodeInfo n0).sigs.length == 2 && t.hub.counts.dualMiss == 1) =
        true := by decide +kernel
theorem test_NodeSteps_loop :
    let l := recOf 3 1 1 0xFFFF (0x10200 * 2 ^ 896 + 3 * 2 ^ 960)
    let s (st : NodeStatus) (it : Nat) := sNode [{ nd st l with iter := it }, { NodeInfo.init with status := .ended, count := 1 }] [(0x10200, 9)] id
    ((s .ready 0).stands n0 .ready kLoop ∧ (s .running 3).stands n0 .running kLoop ∧ (s .running 3).iterationOver n0 l = true ∧
      (s .ready 0).badNest n0 l = false ∧ ((s .ready 0).officeRead 0 (recCaddr l) 8).toOption = some 9) ∧
      answers (exec (.nodeCompletion n0) (s .ready 0)) (fun t => (t.nodeInfo n0).iter == 1 && (t.nodeInfo n0).status == .running) = true ∧
      answers (exec (.nodeCompletion n0) (s .running 3)) (fun t => (t.part 0).launches.isEmpty) = true := by decide +kernel
theorem test_NodeSteps_failed :
    let f : Failure := { status := 1, cause := 0x0B, detail := 4, orig := none }
    let s : State := (sNode [nd .ready kernel1] [] id).modHub fun h => { h with fails := [(n0, f)] }
    let r : State := (sNode [{ nd .running kernel1 with teams := [[cA]], splice := some 1 }] [] (onA .failed)).modHub fun h => { h with fails := [(n0, f)] }
    (s.failureOf n0 = some f ∧ s.running n0 = [] ∧ (s.nodeInfo n0).live = true ∧ (r.nodeInfo n0).splice.isSome = true) ∧
      answers (exec (.nodeCompletion n0) s) (fun t => (t.part 0).launches.isEmpty) = true ∧
      answers (exec (.unsplicedRerun n0) r) (fun t => (t.nodeInfo n0).status == .ready && t.hub.fails.isEmpty && (at0 t).running.isNone) = true := by decide +kernel
theorem test_NodeSteps_end :
    let s := sNode [nd .ready (recOf 6 0xFFFF 0xFFFF 0xFFFF 0)] [] id
    s.stands n0 .ready kEnd ∧ answers (exec (.nodeCompletion n0) s) (fun t => (t.part 0).launches.isEmpty) = true := by decide +kernel
/-- A COPY of 4 bytes from 0x10300 to 0x10310 of virtual memory by the descriptor at 0x10240. -/
def copyNode (bytes : List (Nat × Nat)) : State := sNode [nd .ready (recOf 5 0xFFFF 0xFFFF 0xFFFF (0x10240 * 2 ^ 64))] bytes id
def copyDesc (sp len : Nat) : List (Nat × Nat) :=
  [(0x10240, 0x10), (0x10241, 3), (0x10242, 1), (0x10249, 3), (0x1024A, 1), (0x10250, len), (0x10254, 1), (0x10260, sp), (0x10300, 7), (0x10303, 8)]
/-- The row of the copy: it starts, it reads, it writes what it has read, it goes on, it ends. -/
theorem test_NodeSteps_copy :
    let s := copyNode (copyDesc 0xF 4)
    let v := ((s.officeRead 0 0x10240 64).toOption).getD 0
    let q := copyOfDesc 0 v
    let r (row : Nat) (busy writing : Bool) (buf : Table (Byte × Bool)) : CopyRun :=
      { job := .node n0 v, row := row, busy := busy, writing := writing, buf := buf, draw := 0 }
    let at_ (row : Nat) (busy writing : Bool) (buf : Table (Byte × Bool)) : State :=
      (s.modNode n0 fun y => { y with status := .running }).setCopy (some (r row busy writing buf))
    (copyDescBad v = none ∧ copyReach q.ssp = true ∧ copyReach q.dsp = true ∧ q.count = 1 ∧ (List.range 1).findSome? (s.copyFaultHub q) = none) ∧
      answers (exec (.copyNode n0) s) (fun t => t.hub.copy == some (r 0 false false []) && (t.nodeInfo n0).status == .running) = true ∧
      answers (exec (.copyNode n0) (at_ 0 false false [])) (fun t => t.hub.copy == some (r 0 true false []) &&
        t.accs.map (fun a => (a.addr, a.kind)) == [((placePage.place 0x10300).2, .read)]) = true ∧
      answers (exec (.copyNode n0) (at_ 0 true false [(0, (7, false)), (3, (8, true))])) (fun t => t.hub.copy == some (r 0 true true [(0, (7, false)), (3, (8, true))]) &&
        t.accs.map (fun a => (a.addr, a.kind, a.data)) == [((placePage.place 0x10310).2, .write, [(7, false), (0, false), (0, false), (8, true)])]) = true ∧
      answers (exec (.copyNode n0) (at_ 0 true true [])) (fun t => t.hub.copy == some (r 1 false false [])) = true ∧
      answers (exec (.copyNode n0) (at_ 1 false false [])) (fun t => (t.part 0).launches.isEmpty && t.hub.copy.isNone) = true := by decide +kernel
/-- Once the submissions of the hub cycle are made a node ends in the next; a node of a pre-empted launch takes no copy; a stopped run whose
writes are out keeps its record back. -/
theorem test_NodeSteps_later :
    let s : State := (runs1 .finished).modHub fun h => { h with shut := true }
    let c : State := (copyNode (copyDesc 0xF 4)).modPart 0 fun p => { p with preempted := some 2 }
    let f : Failure := { status := 1, cause := 0x0B, detail := 4, orig := none }
    let w : State := (sNode [{ nd .ready kernel1 with left := [(cA, 9)] }] [] id).modHub fun h => { h with fails := [(n0, f)] }
    let q : State := { w with accs := [{ acc 4 .write true false with left := true }] }
    let r : State := (runs1 .free).modHub fun h => { h with fails := [(n0, f)] }
    (s.kernelDone n0 = true ∧ c.barred n0 = true ∧ q.leftQuiet n0 = false ∧ (w.nodeInfo n0).live = true ∧ (r.member n0 cA).atWork = true) ∧
      agrees (exec (.nodeCompletion n0) s) s = true ∧ agrees (exec (.copyNode n0) c) c = true ∧ agrees (exec (.nodeCompletion n0) q) q = true ∧
      agrees (exec (.nodeCompletion n0) r) ((r.running n0).foldl (fun t c => t.stopMember n0 c) r) = true := by decide +kernel
/-- A descriptor of no length, one of a space that the copy engine does not reach, one that cannot be read, a conversion that does not exist, a
source that does not translate, and a failure that has come while the copy ran. -/
theorem test_NodeSteps_copyFaults :
    let e := copyNode (copyDesc 0xF 0)
    let x := copyNode (copyDesc 0 4)
    let u := sNode [nd .ready (recOf 5 0xFFFF 0xFFFF 0xFFFF (0x40000000 * 2 ^ 64))] [] id
    let s := copyNode (copyDesc 0x9F 4 ++ [(0x10261, 3)])
    let w := copyNode (copyDesc 0xF 4 ++ [(0x1024B, 0x40)])
    let v (s : State) := ((s.officeRead 0 0x10240 64).toOption).getD 0
    let f : Failure := { status := 2, cause := 0x81, detail := 4, orig := none }
    let on (s : State) : State := s.setCopy (some { job := .node n0 (v s), row := 0, busy := false, writing := false, buf := [], draw := 0 })
    let g : State := (on w).modHub fun h => { h with fails := [(n0, f)] }
    let ended (o : Host.Outcome State Fault Refusal) : Bool := answers o fun t => (t.part 0).launches.isEmpty && t.hub.copy.isNone
    (((e.officeRead 0 0x10240 64).toOption.bind copyDescBad).isSome = true ∧ (u.officeRead 0 0x40000000 64).toOption = none ∧ s.failureOf n0 = none ∧
      (List.range 1).findSome? (s.copyFaultHub (copyOfDesc 0 (v s))) = some (.illop, 0) ∧
      ((w.copyParts 0 .read 0 ((copyOfDesc 0 (v w)).side 0 false)).toOption).isNone = true ∧ g.failureOf n0 = some f) ∧
      (ended (exec (.copyNode n0) e) && ended (exec (.copyNode n0) x) && ended (exec (.copyNode n0) u) && ended (exec (.copyNode n0) s) &&
        ended (exec (.copyNode n0) (on w)) && ended (exec (.copyNode n0) g)) = true := by decide +kernel
/-- A node ready at 0 rises at 1,000 microseconds, and has waited too long after 10,000. -/
theorem test_NodeSteps_waiting :
    let s (t : Nat) : State := (sNode [nd .ready kernel1] image1 id).modHub fun h => { h with time := t }
    (agrees (exec (.agePromotion n0) (s 1199999)) (s 1199999) && answers (exec (.agePromotion n0) (s 1200000)) (fun t => (t.nodeInfo n0).raised == 1) &&
      (s 12000001).wantsTeam n0 ((s 0).nodeInfo n0) && ((s 12000001).reservation 0).isNone &&
      answers (exec (.reservation n0) (s 12000001)) (fun t => (t.part 0).reserved == some n0) && agrees (exec (.reservation n0) (s 12000000)) (s 12000000)) =
      true := by decide +kernel
def kernelC1 : BitVec 1024 := recOf 0 0xFFFF 0xFFFF 0xFFFF (0x10800 * 2 ^ 64 + 2 ^ 11)
theorem test_NodeSteps_requests :
    let a := sNode [nd .running kernel1] [] id
    let b := sNode [nd .running kernelC1] [] (onA .free)
    let u (t : Nat) : State := (b.modPart 0 fun p => { p with urgent := some 5 }).modHub fun h => { h with time := t }
    ((b.cellsOf 0).any (fun n => !b.cellHeld n) && a.runsClass0 0 && !b.runsClass0 0 && (b.cellsOf 0).all (fun n => !(b.cell n).holdsImage) &&
      answers (exec (.nodeBoundaryPreemption 0) a) (fun t => (t.part 0).preempted == some 2) &&
      answers (exec (.urgentPreemption 0) a) (fun t => (t.part 0).preempted == some 2 && (t.part 0).urgent.isNone) &&
      answers (exec (.urgentPreemption 0) b) (fun t => (t.part 0).preempted.isNone && (t.part 0).urgent == some 0) &&
      answers (exec (.urgentLimitExpiry 0) (u 120005)) (fun t => (t.part 0).preempted == some 2) &&
      agrees (exec (.urgentLimitExpiry 0) (u 120004)) (u 120004)) = true := by decide +kernel
/-- Context A stands at a generation fence; its image goes to shadow storage and comes back. -/
def fenced1 : State := (sNode [{ nd .running kernelC1 with teams := [[cA]] }] [] (fun c => { onA .free c with atFence := true, param := [(2, 9)] })).modPart 0
  fun p => { p with urgent := some 5 }
theorem test_NodeSteps_exchange :
    ((fenced1.cellsOf 0) = [0] ∧ fenced1.cellHeld 0 = true ∧ (fenced1.cell 0).shadow = none) ∧
      answers (exec (.shadowExchange 0) fenced1) (fun t => (t.part 0).parked && (t.part 0).urgent.isNone && (at0 t).running.isNone &&
        ((t.cell 0).shadow.map fun i => i.a.param) == some [(2, 9)]) = true := by decide +kernel
theorem test_NodeSteps_resume :
    let i : Image := { a := { Ctx.init with param := [(2, 9)] }, b := Ctx.init, cb := { base := 0, cells := [(4, 7)], marks := [] }, kept := [], power := false }
    let s : State := ((mk .s id).modPart 0 fun p => { p with preempted := some 2, parked := true }).modCell 0 fun l => { l with part := some 0, shadow := some i }
    (s.cellsOf 0).all s.cellFree = true ∧ (s.cell 0).holdsImage = true ∧ answers (exec (.preemptResume 0) s) (fun t => (at0 t).param == [(2, 9)] &&
      (t.cell 0).cb.read 4 == 7 && (t.cell 0).ab.read 4 == 0xFF && (t.part 0).preempted.isNone && (t.cell 0).shadow.isNone) = true := by decide +kernel

/-! ## The register window, partitions -/

def busyCell : State := mk .s (onA .free)
theorem test_NodeSteps_resume_testing :
    let i : Image := { a := Ctx.init, b := Ctx.init, cb := Memory.blank 0, kept := [], power := false }
    let s : State := ((mk .s id).modPart 0 fun p => { p with preempted := some 2, parked := true }).modCell 0 fun l =>
      { l with part := some 0, shadow := some i, testing := true }
    (s.cell 0).testing = true ∧ agrees (exec (.preemptResume 0) s) s = true ∧ (s.firmwareRuns = true ∧ s.upsets = [] ∧ i.kept = []) ∧
      (s.unpark 0).ctx cA = i.a := by decide +kernel
theorem test_RegisterAndPartitionSteps_mode :
    let h (s : State) : State := s.modCell 0 fun l => { l with modeHeld := some 1 }
    ((mk .s id).cellIdle 0 && !busyCell.cellIdle 0 && answers (exec (.cellmodeWrite 0 1) (mk .s id)) (fun t => (t.cell 0).mode == 1) &&
      answers (exec (.cellmodeWrite 0 2) (mk .s id)) (fun t => (t.cell 0).mode == 0) &&
      answers (exec (.cellmodeWrite 0 1) busyCell) (fun t => (t.cell 0).mode == 0 && (t.cell 0).modeHeld == some 1) &&
      agrees (exec (.cellmodeWrite 0 2) (h busyCell)) (h busyCell) &&
      answers (exec (.cellmodeHeldApply 0) (h (mk .s id))) (fun t => (t.cell 0).mode == 1 && (t.cell 0).modeHeld.isNone) &&
      agrees (exec (.cellmodeHeldApply 0) (h busyCell)) (h busyCell)) = true := by decide +kernel
theorem test_RegisterAndPartitionSteps_record :
    let s : State := (mk .s id).modCell 255 fun l => { l with state := 2, security := .fenced, score := 99 }
    (answers (exec (.reliabilityStateWrite 255 0x7_0000_0055) s) (fun t => (t.cell 255).state == 0 && (t.cell 255).score == 0 && (t.cell 255).tests == 7) &&
      answers (exec (.reliabilityStateWrite 0 0x7_0002_0055) s) (fun t => (t.cell 0).state == 2 && (t.cell 0).score == 0x55 && (t.cell 0).security == .fenced) &&
      answers (exec (.reliabilityStateWrite 0 0x3_0000) s) (fun t => (t.cell 0).state == 0)) = true := by decide +kernel
/-- The last registers of their ranges: partition 7, ring word 4,095 of queue 63. -/
theorem test_RegisterAndPartitionSteps_window :
    let s := mk .s id
    let w (off v : Nat) (h : Bool) : Instr := .registerWrite { off := off, val := BitVec.ofNat 64 v, host := h }
    ((placeOf 0x170000).hostMay = false ∧ s.cfg.recordOk = true) ∧ agrees (exec (w 0x170000 0x12345 true) s) s = true ∧
      answers (exec (w 0x170000 0x12345 false) s) (fun t => Table.get t.hub.ptroot 0 7 == 0x10000) = true ∧
      agrees (exec (w 0x170010 9 false) s) (s.writeLater 0x170010 9) = true ∧ ((s.writeLater 0x170010 9).applyLater.part 7).ageLimit = 10 ∧
      ((s.writeLater 0x170048 0x10000).applyLater.part 7).crsize = 0x10000 ∧
      agrees (exec (w 0x10048 9 false) s) (s.writeLater 0x10048 9) = true ∧ (s.writeLater 0x10048 9).applyLater.hub.join.hold = 9 ∧
      answers (exec (w 0x170058 9 true) s) (fun t => (t.part 7).crrd == 9) = true ∧
      answers (exec (w 0x3FFFFF8 5 true) s) (fun t => Table.get (t.queue 7 63).ring 0 4095 == 5) = true := by decide +kernel
theorem test_RegisterAndPartitionSteps_reset :
    let s : State := ((mk .s fun c => { withQs [(1, [7])] c with flights := [flV] }).modCell 0 fun l => { l with part := some 0 }).modPart 0
      fun p => { p with urgent := some 5 }
    s.runningNodes 0 = [] ∧ cA ∈ s.contextsOf 0 ∧ answers (exec (.partitionReset 0) s) (fun t => (t.part 0).urgent.isNone && (at0 t).hold == .finished &&
      (at0 t).dq.isEmpty && (at0 t).flights.isEmpty) = true ∧
      answers (exec (.capabilityFault 0) s) (fun t => t.hub.replies.errors == [.capability 0] && t.hub.replies.vectors == [512]) = true := by decide +kernel
theorem test_RegisterAndPartitionSteps_partitions :
    let s : State := (mk .s fun c => { c with slots := [(1, Slot.init)], ss := { c.ss with tlb := [placePage] } }).modPart 2 fun p => { p with defined := true }
    let n : PartitionSpec := { part := 7, tenant := true, cells := [0, 255], imageOk := true }
    ((s.part 2).defined = true ∧ s.mayMove 0 = true ∧ s.mayMove 255 = true ∧ (s.part 7).defined = false) ∧
      answers (exec (.cellRepartition 0 2) s) (fun t => (t.cell 0).part == some 2 && (at0 t).part == 2 && (at0 t).slots.isEmpty && (at0 t).ss.tlb.isEmpty) = true ∧
      answers (exec (.partitionCreation n) s) (fun t => (t.part 7).defined && (t.part 7).tenant && (t.cell 255).part == some 7 &&
        (t.cell 0).security == .tenant) = true := by decide +kernel
theorem test_RegisterAndPartitionSteps_tenant :
    let i : Image := { a := onA .free Ctx.init, b := Ctx.init, cb := Memory.blank 0, kept := [], power := false }
    let s : State := ((mk .s id).modPart 2 fun p => { p with defined := true, tenant := true }).modCell 0 fun l =>
      { l with security := .tenant, part := some 2, shadow := some i, ab := { base := 0, cells := [(4, 7)], marks := [] } }
    (s.tenantCell 0 = true ∧ s.cellFree 0 = true) ∧ answers (exec (.leaveTenant 0) s) (fun t => (t.cell 0).security == .openState &&
      (t.cell 0).part.isNone && (t.cell 0).ab == Memory.blank 0 && (t.failureOf n0).isSome) = true := by decide +kernel
/-- A package whose firmware does not verify takes none of firmware's steps; a counter of the window is cleared by a write of 0. -/
theorem test_RegisterAndPartitionSteps_firmwareOff :
    let s : State := { mk .s id with cfg := { defaultConfig with firmwareOk := false } }
    (s.firmwareRuns = false ∧ FirmwareStep (.cellmodeWrite 0 1)) ∧ agrees (exec (.cellmodeWrite 0 1) s) s = true ∧
      agrees (exec (.partitionReset 0) s) s = true := ⟨⟨by decide, .mode 0 1⟩, by decide +kernel, by decide +kernel⟩
theorem test_RegisterAndPartitionSteps_counters :
    let s : State := (mk .s id).modCell 0 fun l => { l with evc := [(3, 9)] }
    (s.firmwareRuns && (placeOf 0x900000).unlisted && !(placeOf 0x900000).nextCycle &&
      Table.get ((s.clearCounter (.event 0 3)).cell 0).evc 9 3 == 0) = true := by decide +kernel
/-- A reset: the image of a cell in C2 keeps CB with its contexts stopped; a parked image goes. -/
theorem test_RegisterAndPartitionSteps_images :
    let i (p : Bool) : Image := { a := onA .free Ctx.init, b := Ctx.init, cb := { base := 0, cells := [(4, 7)], marks := [] }, kept := [], power := p }
    let s (p : Bool) : State := (mk .s id).modCell 0 fun l => { l with part := some 0, power := if p then .c2 else .p0, shadow := some (i p) }
    ((s true).cellsOf 0 = [0] ∧ (s false).cellFree 0 = true) ∧
      answers (exec (.partitionReset 0) (s true)) (fun t => (t.cell 0).shadow.any fun j => j.cb.read 4 == 7 && j.a.hold == .finished) = true ∧
      answers (exec (.partitionReset 0) (s false)) (fun t => (t.cell 0).shadow.isNone && (t.cell 0).cb.read 4 == 7) = true := by decide +kernel
theorem test_RegisterAndPartitionSteps_device :
    let s := sAcc [acc 4 .read true false]
    (answers (exec (.deviceReset { defaultConfig with disabled := [3], keepHbm := true }) s) (fun t => t.accs.isEmpty && t.hbm == s.hbm &&
      (t.cell 3).state == 3 && (t.cell 4).state == 0) &&
      answers (exec (.deviceReset { defaultConfig with recordOk := false }) s) (fun t => t.hbm == Memory.blank 0 && (t.cell 4).state == 2) &&
      answers (exec (.hubLinkChecksumRetry 255) s) (fun t => (t.cell 255).score == 16)) = true := by decide +kernel

/-! ## The device -/

theorem test_DeviceSteps_debug :
    let s := mk .s id
    let t : State := s.modPart 1 fun p => { p with tenant := true }
    let d : State := (s.modHub fun h => { h with debug := [(0, 2)] }).modCell 0 fun l => { l with part := some 0, power := .c1 }
    let h : State := ((mk .s fun c => { c with hold := .debug, sx := { c.sx with tpc := 0x40 } }).modCell 0 fun l =>
      { l with halted := true, part := some 0 }).modHub fun h => { h with debug := [(0, 2)] }
    let q : State := h.modHub fun h => { h with debug := [(0, 1)] }
    ((t.part 1).tenant = true ∧ s.debugGranted 0 = false ∧ d.debugGranted 0 = true) ∧
      answers (exec (.debugStateSet 7 2) s) (fun u => Table.get u.hub.debug 0 7 == 2) = true ∧
      agrees (exec (.debugStateSet 1 2) t) t = true ∧ agrees (exec (.debugHaltRequest 0) s) s = true ∧
      answers (exec (.debugHaltRequest 0) d) (fun u => (u.cell 0).halted && (u.cell 0).power == .p0) = true ∧
      answers (exec (.debugResume 0 true) h) (fun u => (u.cell 0).halted && (u.cell 0).stepping) = true ∧
      agrees (exec (.debugResume 0 true) q) q = true ∧
      answers (exec (.debugResume 0 false) h) (fun u => !(u.cell 0).halted && (at0 u).hold == .free && (at0 u).sx.pc == 0x40) = true := by
  decide +kernel
/-- Counters and trace by right: NONINVASIVE reads the counters of its cell, not of a tenant's; C2 and C3 give their error codes. -/
theorem test_DeviceSteps_counters :
    let s : State := ((mk .s id).modCell 0 fun l => { l with part := some 0, evc := [(3, 9)], security := .fenced }).modHub fun h => { h with debug := [(0, 1), (1, 1)] }
    let t : State := s.modPart 1 fun p => { p with tenant := true }
    let z : State := s.modCell 0 fun l => { l with power := .c2 }
    (s.countersGranted 0 0 && !t.countersGranted 1 0 && !s.traceGranted 0 0 && !s.countersGranted 2 0 && s.debugCounter 0 0 3 == some (.inr 9) &&
      z.debugCounter 0 0 3 == some (.inl 0xDEADC002) && (s.modHub fun h => { h with sleep := true }).debugCounter 0 0 3 == some (.inl 0xDEADC003)) =
      true := by decide +kernel
theorem test_DeviceSteps_power :
    let s := mk .s id
    let h : State := s.modCell 0 fun l => { l with halted := true }
    let i : Image := { a := { Ctx.init with param := [(2, 9)] }, b := Ctx.init, cb := Memory.blank 0, kept := [], power := true }
    let c : State := (s.modCell 0 fun l => { l with power := .c2, shadow := some i }).modHub fun x => { x with sleep := true }
    ((∀ x ∈ ctxsOf 0, s.atRest x = true) ∧ busyCell.cellFree 0 = false ∧ busyCell.atRest cA = false) ∧
      answers (exec (.powerC1 0) h) (fun t => (t.cell 0).powerReq == some .c1) = true ∧ answers (exec (.powerP1 0) s) (fun t => (t.cell 0).power == .p1) = true ∧
      answers (exec (.powerC1 0) s) (fun t => (t.cell 0).power == .c1) = true ∧ agrees (exec (.powerC1 0) busyCell) busyCell = true ∧
      answers (exec (.powerC2 0) s) (fun t => (t.cell 0).power == .c2 && (t.cell 0).shadow.isSome) = true ∧ agrees (exec (.powerC2 0) busyCell) busyCell = true ∧
      answers (exec (.powerWake 0) c) (fun t => (t.cell 0).power == .p0 && (at0 t).param == [(2, 9)] && !t.hub.sleep) = true := by decide +kernel
theorem test_DeviceSteps_sleep :
    let s := mk .s id
    let z : State := { s with cells := (List.range 256).map fun n => (n, { Cell.init with power := if n = 255 then .c2 else .c1 }) }
    (∀ n < 256, (z.cell n).power = .c1 ∨ (z.cell n).power = .c2) ∧ agrees (exec .powerC3 s) s = true ∧
      answers (exec .powerC3 z) (fun t => t.hub.sleep) = true := by decide +kernel
theorem test_DeviceSteps_time :
    let s : State := ((mk .s id).modCell 0 fun l => { l with score := 9 }).modHub fun h => { h with tstamp := 600000 }
    let e : State := s.modHub fun h => { h with tstamp := 599999 }
    (agrees (exec .tstampTick (mk .s id)) (mk .s id) && answers (exec .tstampTick e) (fun t => t.hub.tstamp == 600000) && answers (exec .suspicionDecay s) (fun t => t.hub.decay && t.decayDue == false &&
        (t.applyDecay.cell 0).score == 8 && t.applyDecay.hub.decays == 1) && decide (s.applyDecay = s) && agrees (exec .suspicionDecay e) e) = true := by decide +kernel
theorem test_DeviceSteps_droop :
    let s := mk .s id
    let h : State := s.modCell 0 fun l => { l with halfRate := 1 }
    let w : State := s.modCell 0 fun l => { l with state := 1 }
    let d : State := s.modDie 0 fun x => { x with droopEn := false }
    ((s.die (dieOf 255)).droopEn = true ∧ (d.die (dieOf 0)).droopEn = false) ∧
      answers (exec (.droopAlarm [255]) s) (fun t => (t.cell 255).stretch == 6 && (t.cell 255).halfRate == 65) = true ∧
      agrees (exec (.droopAlarm [0]) d) d = true ∧ answers (exec (.droopHalfRateEnd 0) h) (fun t => (t.cell 0).halfRate == 0) = true ∧
      answers (exec (.targetedTestStart 0) w) (fun t => (t.cell 0).testing) = true := by decide +kernel
theorem test_DeviceSteps_tests :
    let s : State := (mk .s id).modCell 0 fun l => { l with testing := true, score := 600, state := 1 }
    (answers (exec (.targetedTestEnd 0 [false, false]) s) (fun t => (t.cell 0).score == 300 && (t.cell 0).state == 1 && (t.cell 0).tests == 1) &&
      answers (exec (.targetedTestEnd 0 [false]) (s.modCell 0 fun l => { l with state := 2, security := .fenced })) (fun t => (t.cell 0).state == 2) &&
      answers (exec (.targetedTestEnd 0 [true]) s) (fun t => (t.cell 0).state == 2 && (t.cell 0).security == .fenced && t.hub.counts.testFails == 1)) = true := by
  decide +kernel
/-- The last unit of HBM goes bad by one bit, by two, or not at all. -/
theorem test_DeviceSteps_scrub :
    let n := hbmSize / 8 - 1
    let s (l : List Bool) : State := { mk .s id with upsets := l.map fun b => { mem := .hbm, unit := n, double := b } }
    (8 * n < hbmSize ∧ (s []).hub.sleep = false) ∧ agrees (exec (.scrubPatrol n) (s [])) (s []) = true ∧
      answers (exec (.scrubPatrol n) (s [false])) (fun t => t.hub.counts.corrected == 1 && t.upsets.isEmpty && t.hbm == Memory.blank 0) = true ∧
      answers (exec (.scrubPatrol n) (s [true])) (fun t => t.hub.counts.uncorrected == 1 && t.upsets.isEmpty && t.hbm.marks == [n]) = true := by
  decide +kernel
/-- An image with an uncorrectable unit: the cell wakes idle, and the node of its context fails. -/
theorem test_DeviceSteps_badImage :
    let i : Image := { a := onA .free Ctx.init, b := Ctx.init, cb := Memory.blank 0, kept := [], power := true }
    let s : State := { (mk .s id).modCell 0 fun l => { l with power := .c2, shadow := some i } with upsets := [{ mem := .shadow 0, unit := 5, double := true }] }
    s.imageBad 0 = true ∧ answers (exec (.powerWake 0) s) (fun t => (t.failureOf n0).isSome && (at0 t).running.isNone && (t.cell 0).shadow.isNone &&
      (t.cell 0).power == .p0) = true := by decide +kernel

end Sys2Proof.Tests
end

