-- ==== Sys2Proof/Tests/Scalar.lean ====
section
/-!
SUPPORT. Witnesses of the statements about the S stream, and values from 07.
-/
namespace Sys2Proof.Tests
open Sys2Proof.Machine
set_option Elab.async false

def o12 : SR := { j := false, d := 3, a := 1, b := 2, ka := false, kb := true, g := 0 }
def s12 : State := mk .s (withQs [(1, [7]), (2, [5])])
def rs12 : List (QRef × Bool) := [(.loc 1, false), (.loc 2, true)]

theorem witness_ScalarArithmetic : AluRow (.sub o12) o12 1 (fun a b => a - b) := .sub o12
theorem test_ScalarArithmetic :
    (s12.goes 0 rs12 (.loc 3) && agrees (exec (.sub o12) s12) (s12.pushes 0 rs12 (.loc 3) (wide 2) (some 1))) = true := by decide +kernel
/-- A guard ps0 in a modulo loop that rolls back: the pop is kept with its iteration. -/
theorem test_ScalarArithmetic_modulo :
    let s := mk .s fun c => { withQs [(1, [7]), (2, [5])] c with lpw := 1, lii := 0x180 }
    (s.goes 8 rs12 (.loc 3) && agrees (exec (.add { o12 with g := 8 }) s) (s.pushes 8 rs12 (.loc 3) (wide 12) (some 1))) = true := by
  decide +kernel
/-- Register 0 reads 0 and discards. -/
theorem test_ScalarArithmetic_zero :
    let o : SR := { o12 with d := 0, a := 0, ka := true }
    let s := mk .s (withQs [(2, [5])])
    (s.goes 0 [(.zero, true), (.loc 2, true)] .zero &&
      agrees (exec (.or o) s) (s.pushes 0 [(.zero, true), (.loc 2, true)] .zero (wide 5) (some 1))) = true := by decide +kernel
/-- 07 R146: SRA keeps the sign, MULH of −1 and −1 is 0, ADDW wraps at 32 bits. -/
theorem test_alu_values :
    let s := mk .s (withQs [(1, [0xFFFFFFFFFFFFFFFF]), (2, [0xFFFFFFFFFFFFFFFF])])
    (answers (exec (.mulh o12) s) (fun t => lastVal t == some 0) && answers (exec (.mulhu o12) s) (fun t => lastVal t == some 0xFFFFFFFFFFFFFFFE) &&
      answers (exec (.sra o12) s) (fun t => lastVal t == some 0xFFFFFFFFFFFFFFFF) && answers (exec (.slt o12) s) (fun t => lastVal t == some 0)) = true := by
  decide +kernel

/-- 07 R147: a zero divisor pushes all ones and sets DZ. -/
theorem test_ScalarDivides :
    let s := mk .s (withQs [(1, [9]), (2, [0])])
    let t := ((s.entered 0).tookAll rs12).pushed (.loc 3) (some (wide 0xFFFFFFFFFFFFFFFF#64)) (some 24)
    (s.goes 0 rs12 (.loc 3) && agrees (exec (.div o12) s) ((t.changed fun c => { c with status := c.status ||| 1#64 }).retired 1)) =
      true := by decide +kernel
theorem witness_ScalarDivides : DivRow (.remu o12) o12 (fun a b => if b = 0 then a else a.umod b) := .remu o12
/-- 07 R147: −7 divided by 2 truncates toward zero; the most negative number by −1 wraps. -/
theorem test_divide_values :
    let s := mk .s (withQs [(1, [0xFFFFFFFFFFFFFFF9]), (2, [2])])
    let r := mk .s (withQs [(1, [0x8000000000000000]), (2, [0xFFFFFFFFFFFFFFFF])])
    (answers (exec (.div o12) s) (fun t => lastVal t == some 0xFFFFFFFFFFFFFFFD) && answers (exec (.rem o12) s) (fun t => lastVal t == some 0xFFFFFFFFFFFFFFFF) &&
      answers (exec (.div o12) r) (fun t => lastVal t == some 0x8000000000000000) && answers (exec (.rem o12) r) (fun t => lastVal t == some 0)) = true := by
  decide +kernel

theorem witness_ScalarUnary : UnaryRow (.popc o12) o12 (fun a => BitVec.ofNat 64 ((List.range 64).countP fun k => a.getLsbD k)) :=
  .popc o12
theorem test_ScalarUnary :
    (s12.goes 0 [(.loc 1, false)] (.loc 3) &&
      agrees (exec (.popc o12) s12) (s12.pushes 0 [(.loc 1, false)] (.loc 3) (wide 3) (some 1))) = true := by decide +kernel
/-- 07 R146: CLZ and CTZ of 0 give 64. -/
theorem test_clz_zero :
    let s := mk .s (withQs [(1, [0])])
    (answers (exec (.clz o12) s) (fun t => lastVal t == some 64) && answers (exec (.ctz o12) s) (fun t => lastVal t == some 64)) = true := by decide +kernel
def oi : SI := { j := false, d := 2, a := 1, ka := false, g := 0, imm := 0x3FF }
theorem witness_ScalarImmediate : ImmRow (.addi oi) oi 1 (fun a i => a + i.signExtend 64) := .addi oi
theorem test_ScalarImmediate :
    (s12.goes 0 [(.loc 1, false)] (.loc 2) &&
      agrees (exec (.addi oi) s12) (s12.pushes 0 [(.loc 1, false)] (.loc 2) (wide 6) (some 1))) = true := by decide +kernel
def ol : SL := { j := false, d := 1, g := 0, imm := 0x1234 }
theorem witness_ScalarConstant : ConstRow (.lix ol) ol (fun i => i ++ 0#48) := .lix ol
theorem test_ScalarConstant :
    (s12.goes 0 [] (.loc 1) && agrees (exec (.lix ol) s12) (s12.pushes 0 [] (.loc 1) (wide 0x1234000000000000#64) (some 1)) &&
      answers (exec (.li { ol with imm := 0xFFFE }) s12) (fun t => lastVal t == some 0xFFFFFFFFFFFFFFFE)) = true := by decide +kernel

/-- SEL under a false predicate takes B, and both operands are read. -/
theorem test_SelectReadsBoth :
    (s12.predKnown 2 && (s12.ctx s12.cur).readable rs12 && ((s12.tookAll rs12).ctx s12.cur).room (.loc 3) &&
      s12.queuesOk [.loc 1, .loc 2, .loc 3] &&
      agrees (exec (.sel { o12 with g := 2 }) s12) (((s12.tookAll rs12).pushed (.loc 3) (some (wide 5)) (some 1)).retired 1)) = true := by
  decide +kernel

theorem witness_ScalarCompare : CmpRow (.cmpLt o12) o12 (fun a b => decide (a.toInt < b.toInt)) := .cmpLt o12
theorem test_ScalarCompare :
    (s12.goes 0 rs12 .zero && agrees (exec (.cmpGe o12) s12) ((((s12.entered 0).tookAll rs12).setsPred 3 true).retired 1)) = true := by
  decide +kernel
theorem witness_ScalarPredicateLogic : PredRow (.pandn o12) o12 (fun a b => a && !b) := .pandn o12
theorem test_ScalarPredicateLogic :
    (s12.guardOpen 0 && s12.predKnown 1 && s12.predKnown 2 &&
      agrees (exec (.pnot o12) s12) (((s12.entered 0).setsPred 3 true).retired 1)) = true := by decide +kernel

def ob : SB := { j := false, g := 0, off := 0x1FFFFC }
def s100 : State := mk .s fun c => { withQs [(1, [0x200])] c with ss := { c.ss with pc := 0x100 } }
/-- 07 R153: the offset counts words and is signed. -/
theorem test_ScalarBranches :
    (s100.mayBranch && agrees (exec (.br ob) s100) (s100.branched 0xF0 false) &&
      agrees (exec (.bp ob) s100) (s100.branched 0xF0 false) && agrees (exec (.bnp ob) s100) (s100.retired 1)) = true := by decide +kernel
def obz : SBZ := { j := false, a := 1, ka := true, off := 2 }
theorem test_ScalarBranchOnZero :
    ((s100.ctx s100.cur).readable [(.loc 1, true)] && s100.queuesOk [.loc 1] &&
      agrees (exec (.bz obz) s100) ((s100.took (.loc 1) true).retired 1) &&
      agrees (exec (.bnz obz) s100) ((s100.took (.loc 1) true).branched 0x108 false)) = true := by decide +kernel
theorem test_ScalarCall :
    (s100.guardOpen 0 && (s100.ctx s100.cur).room (.loc 23) &&
      agrees (exec (.call ob) s100) (((s100.entered 0).pushed (.loc 23) (some (wide 0x104)) (some 1)).branched 0xF0 true)) = true := by
  decide +kernel
theorem test_ScalarJumps :
    (s100.goes 0 [(.loc 1, false)] (.loc 3) && decide ((s100.frontWord (.loc 1)).extractLsb' 0 2 = 0) &&
      agrees (exec (.jr { o12 with d := 0, b := 0, kb := false }) s100) (((s100.entered 0).took (.loc 1) false).branched 0x200 false) &&
      agrees (exec (.jrl { o12 with b := 0, kb := false }) s100)
        ((((s100.entered 0).took (.loc 1) false).pushed (.loc 3) (some (wide 0x104)) (some 1)).branched 0x200 true)) = true := by decide +kernel

/-! ## Memory words -/

def om : SM := { j := false, d := 3, a := 1, ka := false, kd := false, sz := 3, ord := 1, obs := 1, g := 0 }
/-- An address of the shared store, and one of virtual memory under a TLB entry. -/
def sSs : State := mk .s (withQs [(1, [0xC000000000000040]), (2, [9])])
def sVm : State := mk .s fun c => { withQs [(1, [0x10010]), (2, [9])] c with ss := { c.ss with tlb := [placePage] } }
def psSs : List Part := ssParts 0 0x40 8
def psVm : List Part := [{ pos := 0, len := 8, home := .hbm, addr := 0x10010, va := 0x10010, page := .uo, span := (0x10000, 0x10000) }]
theorem test_ScalarLoadsIssue_sharedStore :
    let s1 := (sSs.entered 0).tookAll [(.loc 1, false)]
    let s2 := s1.pushed (.loc 3) none none
    (sSs.goes 0 [(.loc 1, false)] (.loc 3) && alignedIf true 0xC000000000000040#64 8 &&
      decide (s2.located .read 0xC000000000000040#64 8 = some (some 0x40, psSs)) && s2.poisonFree .read (some 0x40) psSs 8 true false 1 &&
      s2.recordRoom (ssRange (some 0x40) 8 true) && agrees (exec (.ld om) sSs) (((s2.accessed (.load 8 false (some 0)) .read
        0xC000000000000040#64 (some 0x40) psSs 8 true false 1 0).readAtOnce (s2.strictNow psSs) s2.nextId).retired 1)) =
      true := by decide +kernel
theorem test_ScalarLoadsIssue_virtual :
    let s1 := (sVm.entered 0).tookAll [(.loc 1, false)]
    let s2 := s1.pushed (.loc 3) none none
    (sVm.goes 0 [(.loc 1, false)] (.loc 3) && decide (s2.located .read 0x10010#64 8 = some (none, psVm)) &&
      (s2.walked none psVm).poisonFree .read none psVm 8 true false 1 &&
      agrees (exec (.lds om) sVm) ((((s2.walked none psVm).accessed (.load 8 true (some 0)) .read 0x10010#64 none psVm 8 true false 1
        0).readAtOnce (s2.strictNow psVm) s2.nextId).retired 1)) = true := by decide +kernel
def ost : SM := { om with d := 2, ord := 2 }
theorem test_ScalarStoreIssues :
    let rs : List (QRef × Bool) := [(.loc 1, false), (.loc 2, false)]
    let s1 := (sVm.entered 0).tookAll rs
    let u1 := (sSs.entered 0).tookAll rs
    (sVm.goes 0 rs .zero && decide (s1.located .write 0x10010#64 8 = some (none, psVm)) && (s1.walked none psVm).vmOk none &&
      agrees (exec (.st ost) sVm) (((s1.walked none psVm).accessed .store .write 0x10010#64 none psVm 8 false true 1 9).retired 1) &&
      sSs.goes 0 rs .zero && decide (u1.located .write 0xC000000000000040#64 8 = some (some 0x40, psSs)) &&
      u1.recordRoom (ssRange (some 0x40) 8 true) &&
      agrees (exec (.st ost) sSs) ((u1.accessed .store .write 0xC000000000000040#64 (some 0x40) psSs 8 false true 1 9).retired 1)) = true := by
  decide +kernel
def oe : Ext := { obs := 1, ord := 3, c := 1, kc := false }
theorem witness_ScalarAtomics : AmoRow (.amoAdd o12 oe) o12 oe .add := .add o12 oe
theorem test_ScalarAtomicsIssue :
    let s1 := (sSs.entered 0).tookAll rs12
    let s2 := s1.pushed (.loc 3) none none
    (sSs.goes 0 rs12 (.loc 3) && alignedIf true 0xC000000000000040#64 8 &&
      decide (s2.located .atomic 0xC000000000000040#64 8 = some (some 0x40, psSs)) && s2.vmOk (some 0x40) &&
      s2.poisonFree (.amo .add 9) (some 0x40) psSs 8 true true 1 && s2.recordRoom (ssRange (some 0x40) 8 true) &&
      agrees (exec (.amoAdd o12 oe) sSs) (((s2.accessed (.amo 8 (some 0)) (.amo .add 9) 0xC000000000000040#64 (some 0x40) psSs 8 true true 1
        0).readAtOnce (s2.strictNow psSs) s2.nextId).retired 2)) = true := by decide +kernel
theorem test_ScalarCasIssues :
    let rs : List (QRef × Bool) := rs12 ++ [(.loc 2, true)]
    let x : Ext := { oe with c := 2, kc := true }
    let s1 := (sSs.entered 0).tookAll rs
    let s2 := s1.pushed (.loc 3) none none
    (sSs.goes 0 rs (.loc 3) && agrees (exec (.cas true o12 x) sSs)
        (((s2.accessed (.amo 8 (some 0)) (.cas 9 9) 0xC000000000000040#64 (some 0x40) psSs 8 true true 1 0).readAtOnce (s2.strictNow psSs)
          s2.nextId).retired 2)) = true := by decide +kernel
theorem witness_Fences : FenceRow (.fenceEng { j := false, obs := 3 }) { j := false, obs := 3 } 3 := .eng _
theorem test_FencesAndDescriptorLoad :
    let w : SX := { j := false, d := 0, a := 1, b := 1, ka := true, kb := false }
    let ps := ssParts 0 0x40 64
    ((sSs.ctx sSs.cur).readable [(.loc 1, true)] && !(sSs.ctx sSs.cur).wdPending 1 &&
      decide (sSs.located .read 0xC000000000000040#64 64 = some (some 0x40, ps)) && sSs.poisonFree .read (some 0x40) ps 64 false false 0 &&
      agrees (exec (.wdld w) sSs) (((sSs.accessed (.wdld 1) .read 0xC000000000000040#64 (some 0x40) ps 64 false false 0 0).readAtOnce
        (sSs.strictNow ps) sSs.nextId).retired 1)) = true := by
  decide +kernel

/-! ## Queues, tokens, loops -/

/-- Index 2 names s2. -/
def sIdx : State := mk .s (withQs [(1, [2]), (2, [9, 8])])
theorem test_QueueWords_move :
    let s1 := (sIdx.entered 0).took (.loc 1) false
    (sIdx.guardOpen 0 && (s1.ctx s1.cur).readable [(queueAt 2, false)] && ((s1.took (.loc 2) false).ctx s1.cur).room (.loc 3) &&
      s1.queuesOk [.loc 1, .loc 2, .loc 3] &&
      agrees (exec (.movxr { o12 with b := 0, kb := false }) sIdx) (((s1.took (.loc 2) false).pushed (.loc 3) (some 9) none).retired 1) &&
      agrees (exec (.movxk { o12 with b := 0, kb := false }) sIdx) ((s1.pushed (.loc 3) (some 9) none).retired 1) &&
      agrees (exec (.movxw { o12 with d := 0 }) sIdx) ((s1.pushed (.loc 2) (some 9) none).retired 1)) = true := by decide +kernel
theorem test_QueueWords_count :
    (sIdx.goes 0 [] (.loc 3) && sIdx.goes 0 [(.loc 2, false)] .zero &&
      agrees (exec (.qcnt { o12 with a := 0, kb := false }) sIdx) (sIdx.pushes 0 [] (.loc 3) (wide 2) none) &&
      agrees (exec (.qdrop { o12 with a := 0, d := 0, kb := false }) sIdx) (((sIdx.entered 0).took (.loc 2) false).retired 1) &&
      agrees (exec (.qclr { o12 with a := 0, d := 0, kb := false }) sIdx)
        (((((sIdx.entered 0).took (.loc 2) false)).took (.loc 2) false).retired 1)) = true := by decide +kernel
def sTok : State := mk .s fun c => { c with tokens := (c.tokens.set 5 3).set 6 15 }
theorem witness_TokenWords : SignalRow (.tsig { o12 with b := 5 }) .s 0 5 ∧ AwaitRow (.xTwait { j := false, a := 5 }) .x 0 5 :=
  ⟨.s _, .x _⟩
theorem test_TokenWords :
    (sTok.opens .s 0 && agrees (exec (.tsig { o12 with b := 5 }) sTok) (((sTok.begun .s 0).withToken 5 4).retired 1) &&
      agrees (exec (.tsig { o12 with b := 6 }) sTok) (sTok.trapped .qovf 134) &&
      agrees (exec (.xTwait { j := false, a := 5 }) sTok) (((sTok.begun .x 0).withToken 5 2).retired 1) &&
      agrees (exec (.mTwait { j := false, a := 4 }) sTok) (sTok.waitsAt .outside)) = true := by decide +kernel
theorem test_TokenPoll :
    let o : VR := { j := false, d := 3, a := 5, b := 0, ka := false, kb := false, gm := 0, et := 0 }
    (sTok.opens .v 0 && agrees (exec (.tpoll { o12 with b := 5 }) sTok) (sTok.pushes 0 [] (.loc 3) (wide 3) none) &&
      agrees (exec (.vTpoll o) sTok) (((sTok.begun .v 0).pushed (.loc 35) (some (wide 3)) none).retired 1)) = true := by decide +kernel
def sLoop : State := mk .s fun c => { withQs [(1, [4])] c with ss := { c.ss with pc := 0x10010, tlb := [placePage] } }
theorem test_LoopWordsArm :
    let o : SLP := { j := false, lv := true, a := 1, ka := false, last := 3 }
    let z : SLI := { j := false, lv := false, count := 0, last := 3 }
    (sLoop.mayLoop true 3 3 4 && agrees (exec (.loop o) sLoop) ((sLoop.took (.loc 1) false).looped true 3 4) &&
      sLoop.mayLoop false 3 3 0 && agrees (exec (.loopi z) sLoop) (sLoop.looped false 3 0) &&
      answers (exec (.loopi z) sLoop) (fun t => (at0 t).ss.pc == 0x10020)) = true := by decide +kernel
theorem test_LoopWordsArm_modulo :
    let o : SLM := { j := true, ii := 1, stages := 2, rb := true, a := 1, ka := false }
    let s := { sLoop with inBundle := true, nops := true }
    (s.mayLoopm o 4 && agrees (exec (.loopm o) s) (((s.took (.loc 1) false).changed fun c => c.startModulo o 4).issuedOnly) &&
      answers (exec (.loopm o) s) (fun t => (at0 t).lii == 0x40000000002A1 + 0 || (at0 t).liiN == 4 && (at0 t).liiStg == 2)) = true := by decide +kernel

/-! ## Control registers and system words -/

def oc : SC := { j := false, d := 3, a := 1, ka := false, csr := 0x60 }
theorem witness_ControlRegisterWords : CsrRow (.csrw oc) oc .write (fun _ a => a) := .write oc
theorem test_ControlRegisterWords :
    let s := mk .s fun c => { withQs [(1, [0x1FF])] c with param := [(0, 77)], lpw := 5 }
    ((s.ctx s.cur).room (.loc 3) && s.outwardOk &&
      agrees (exec (.csrr { oc with a := 0 }) s) ((s.pushed (.loc 3) (some (wide 77)) none).retired 1) &&
      agrees (exec (.csrw { oc with csr := 0x40 }) s)
        ((((s.took (.loc 1) false).pushed (.loc 3) (some (wide 5)) none).wroteCsr 0x40 .write 0x1FF 0x1FF).retired 1)) = true := by decide +kernel
theorem test_NopHaltAndTrapWords :
    (s12.opens .s 0 && agrees (exec (.nop false 0) s12) (s12.retired 1) && !s12.asyncBusy s12.cur &&
      agrees (exec .halt s12) ((s12.changed fun c => c.modStr .s fun r => { r with halted := true }).retired 1) &&
      agrees (exec (.illegalWord 0x5) s12) (s12.trapped .illop 5) &&
      agrees (exec (.brk { j := false, d := 0, a := 0, b := 5, ka := false, kb := false }) s12) (s12.trapped .brkpt 5)) = true := by decide +kernel
def sHnd : State := mk .s fun c => { c with tcause := 0x8001, ss := { c.ss with tpc := 0x40 }, sv := { c.sv with tpc := 0x80 } }
def oxd : SX := { j := false, d := 3, a := 1, b := 2, ka := false, kb := false }
theorem test_TrapReturn :
    ((at0 sHnd).hnd && answers (exec (.tret oxd) sHnd) (fun t => !(at0 t).hnd && (at0 t).sv.pc == 0x80) &&
      !(at0 s12).hnd && agrees (exec (.tret oxd) s12) (s12.trapped .illop 0x18)) = true := by decide +kernel
theorem witness_GenerationFence : GfenceRow (.gfence oxd) .s 0 := .s oxd
theorem test_GenerationFence :
    let u := s12.changed fun c => c.modStr .s raiseFence
    let s2 := mk .s fun c => { c with sv := { c.sv with gf := 1, gfw := true }, sm := { c.sm with gf := 1 }, sx := { c.sx with gf := 1 } }
    let u2 := s2.changed fun c => c.modStr .s raiseFence
    (s12.outwardOk && !(u.ctx s12.cur).fencesEqual && agrees (exec (.gfence oxd) s12) u.waits &&
      (u2.ctx s2.cur).fencesEqual && agrees (exec (.gfence oxd) s2) ((u2.changed Ctx.leaveFences).issuedOnly)) = true := by decide +kernel
theorem test_GenerationFence_bundle :
    let s2 := { (mk .s fun c => { c with ss := { c.ss with gf := 1, gfw := true }, sv := { c.sv with gf := 1 }, sm := { c.sm with gf := 1 }, sx := { c.sx with gf := 1 } }) with inBundle := true }
    let u2 := s2.changed fun c => c.modStr .s raiseFence
    ((u2.ctx s2.cur).fencesEqual && answers (exec (.gfence oxd) s2) (fun t => (at0 t).gen == 1 && (at0 t).ss.pc == 4)) = true := by decide +kernel
theorem test_BarrierWord :
    let s1 := mk .s fun c => { c with released := true, domd := 0x100000007 }
    let s2 := mk .s fun c => { c with barrier := some .p, domp := 0x100000007 }
    let o : SX := { oxd with b := 2 }
    (s1.outwardOk && agrees (exec (.bsync o) s1) ((s1.changed fun c => { c with released := false }).retired 1) &&
      s2.mayArrive s2.cur .p && answers (exec (.bsync o) s2) (fun t => (at0 t).arrived && t.lastIssue == .waiting) &&
      agrees (exec (.bsync o) s12) (s12.trapped .domerr 2)) = true := by decide +kernel
theorem test_TimeCounterAndDraw :
    ((s12.ctx s12.cur).room (.loc 3) && decide (bits (at0 s12).rngpos 0 24 < 0xFFFFFF) &&
      agrees (exec (.tstamp oxd) s12) ((s12.pushed (.loc 3) (some 0) none).retired 1) &&
      answers (exec (.rngd oxd) s12) (fun t => (at0 t).rngpos == 1 && lastVal t == some (rng 0 0 0).toNat)) = true := by decide +kernel

/-! ## Words of the hub -/

/-- Cell 0 belongs to partition 0, which owns the join. -/
def owned (s : State) : State := s.modJoin fun j => { j with owner := 8, learner := [0x5000000000000000A] }
def sHub : State := owned (mk .s (withQs [(1, [0x1000]), (2, [3])]))
theorem test_HubWords_lqpop :
    ((at0 sHub).twoPlaces (.loc 3) && sHub.ownsJoin (sHub.partOf sHub.cur) && sHub.hubTakes 5 && !sHub.lqBehind sHub.cur &&
      agrees (exec (.lqpop oxd) sHub) (((sHub.atHub 5).takeRecord.1.popsRecord (.loc 3) (10, 5)).retired 1)) = true := by decide +kernel
theorem test_HubWords_lvset :
    (sHub.hubTakes 2 && agrees (exec (.lvset oxd) sHub) ((((sHub.took (.loc 1) false).atHub 2).modJoin fun j =>
      { j with lv := 0x1000 }).retired 1) &&
      agrees (exec (.jstat { oxd with b := 18 }) sHub) ((sHub.pushed (.loc 3) (some (wide 1)) none).retired 1)) = true := by decide +kernel
theorem test_HubWords_episode :
    let rs : List (QRef × Bool) := [(.loc 1, false), (.loc 2, false)]
    let u := sHub.hubRanked.1.tookAll rs
    let r := State.openEpisode (u.atHub 2) 0 0x1000 3
    let q := State.closeEpisode (u.atHub 2) 0 0x1000 3
    ((at0 sHub).readable rs && sHub.earlierDone sHub.hubRanked.2 && (at0 u).room (.loc 3) && (at0 r.1).room (.loc 3) &&
      agrees (exec (.epopen oxd) sHub) (((r.1.pushed (.loc 3) (some (wide r.2)) none).changed fun c => { c with hubRank := none }).retired 1) &&
      agrees (exec (.epclose oxd) sHub) (((q.1.pushed (.loc 3) (some (wide q.2)) none).changed fun c => { c with hubRank := none }).retired 1)) =
      true := by decide +kernel
/-- An empty learner queue: the word waits, and the context is noted. -/
theorem test_HubWords_lqpop_empty :
    let s := sHub.modJoin fun j => { j with learner := [] }
    let g : State := sHub.changed fun c => { c with lqGot := some (10, 5) }
    ((at0 s).lqGot.isNone && s.ownsJoin (s.partOf s.cur) &&
      agrees (exec (.lqpop oxd) s) (s.changed fun c => { c.noteWait .s .outside with lqWait := true }).waits &&
      agrees (exec (.lqpopNb oxd) g) ((g.popsRecord (.loc 3) (10, 5)).retired 1)) = true := by decide +kernel
def sPost : State := owned (mk .s (withQs [(1, [0xC000000000000040])]))
/-- RWPOST asks for the four dwords of its message and waits. -/
theorem test_HubWords_rwpost_asks :
    let s := sPost
    (match s.dwordsAt 0xC000000000000040#64 [0, 8, 16, 24] with
      | some (off, ps, t) => decide (off = some 0x40) && decide (ps.length = 4) && t.earlierDone t.hubRanked.2 &&
          t.hubRanked.1.recordRoom (ssRange off 32 true) &&
          agrees (exec (.rwpost { oxd with d := 0, b := 0 }) s) ((t.hubRanked.1.asksMessage 0xC000000000000040#64 off ps).noted .waiting)
      | none => false) = true := by decide +kernel
/-- An access of S is in progress: it only waits. -/
theorem test_HubWords_rwpost_behind :
    let a : Access := { id := 1, agent := .stream sPost.cur .s, kind := .write, home := .ss 0, addr := 0, va := 0, data := [(1, false)], mask := [true],
                        page := .uo, acq := false, rel := false, obs := 0, sink := .none, rank := 0, posted := false, performed := false,
                        acked := false, got := false }
    let s : State := { sPost with accs := [a], nextId := 9 }
    (match s.dwordsAt 0xC000000000000040#64 [0, 8, 16, 24] with
      | some (_, _, t) => !t.earlierDone t.hubRanked.2 &&
          agrees (exec (.rwpost { oxd with d := 0, b := 0 }) s) (t.hubRanked.1.noted .waiting)
      | none => false) = true := by decide +kernel
/-- The bytes have come: the message enters the queue; without the join the word only counts. -/
theorem test_HubWords_rwpost_posts :
    let r : InitRead := { id := 5, addr := 0xC000000000000040, code := false, len := 32, got := (List.range 32).map fun k => (k, (BitVec.ofNat 8 k, false)) }
    let s : State := sPost.changed fun c => { c with rwpost := some r }
    let z : State := s.modJoin fun j => { j with owner := 0 }
    (r.full && !s.rewardsFull && s.hub.join.lastPost.isNone && !z.ownsJoin (z.partOf z.cur) &&
      answers (exec (.rwpost { oxd with d := 0, b := 0 }) s) (fun t => t.hub.join.rewards == [(0, postMessage (r.bytes 0 32))] &&
        (at0 t).rwpost.isNone && t.lastIssue == .retired) &&
      answers (exec (.rwpost { oxd with d := 0, b := 0 }) z) (fun t => t.hub.join.rewards == [] && t.jstat 12 == 1 &&
        t.lastIssue == .retired)) = true := by decide +kernel
/-- A launch with one node, and a context that runs it. -/
def aLaunch : Launch :=
  { queue := 0, number := 0, graph := 0, entry := 0, nodes := 4, done := 0, value := 0, irq := false, cap := 0, args := []
    hint := 0, table := [(1, NodeInfo.init)], ended := false, failed := false }
def node1 : NodeRef := { part := 0, launch := 0, node := 1 }
def sNl : State :=
  (mk .s fun c => { c with running := some { placeNode with node := node1 } }).modPart 0 fun p => { p with launches := [(0, aLaunch)] }
theorem test_HubWords_nlaunch :
    let u := { sNl with nextId := sNl.nextId + 1 }
    (u.launcher u.cur == some node1 && !u.nlaunchIgnored node1 2 &&
      answers (exec (.nlaunch oxd) sNl) (fun t => t.hub.early == [{ node := node1, slot := 2, c := t.cur, rank := 0 }])) =
      true := by decide +kernel

end Sys2Proof.Tests
end

