-- ==== Sys2Proof/Tests/Whole.lean ====
section
/-!
SUPPORT. Witnesses of the statements about all words, about decoding, stepping and the form of the memories.
-/
namespace Sys2Proof.Tests
open Sys2Proof.Machine
set_option Elab.async false

/-! ## Guards and operands -/

theorem test_FalseGuardsRetire :
    let o : SR := { o12 with g := 3 }
    let v : VR := { j := false, d := 3, a := 1, ka := false, b := 2, kb := false, gm := 8, et := 2 }
    let x : Ext := { obs := 1, ord := 3, c := 1, kc := false }
    let s := mk .s id
    let sv := mk .v id
    (s.predKnown 3 = true ∧ (at0 s).cond 3 = false ∧ sv.predKnown 8 = true ∧ (at0 sv).cond 8 = false) ∧
      agrees (exec (.add o) s) (s.retired 1) = true ∧ agrees (exec (.amoAdd o x) s) (s.retired 2) = true ∧
      agrees (exec (.vadd v) sv) (sv.retired 1) = true ∧ agrees (exec (.fadd v) sv) ((sv.countedEvent 8).retired 1) = true ∧
      agrees (exec (.nop false 8) sv) (sv.retired 1) = true ∧ agrees (exec (.nop false 3) s) (s.retired 1) = true := by decide +kernel
theorem witness_FalseGuardsRetire : GuardRow (.add o12) .s o12.g 1 ∧ GuardRow (.nop true 8) .x 8 1 ∧ ¬ CountedRow (.add o12) :=
  ⟨.add o12, .nop true 8 .x, nofun⟩
theorem witness_FalseGuardsRetire_counted (v : VR) : CountedRow (.fadd v) := .fadd v
/-- s2 is empty: a pending push makes the word wait, else it traps. -/
theorem test_OperandChecks :
    let s := mk .s (withQs [(1, [7])])
    let p := mk .s fun c => { withQs [(1, [7])] c with flights := [{ flV with dest := .dq 2 }] }
    let e := mk .s (withQs [(2, [7])])
    let f := mk .s (withQs [(1, [7]), (2, [5]), (3, [1, 2, 3, 4, 5, 6, 7, 8])])
    (s.guardOpen o12.g && (at0 s).holds rs12 (.loc 1) && decide (needOf (.loc 2) 0 rs12 = 1) && (at0 f).readable rs12 &&
      agrees (exec (.sub o12) s) (s.trapped .qund (QRef.loc 2).code) && agrees (exec (.sub o12) p) (p.waitsAt .lock) &&
      agrees (exec (.sub o12) e) (e.trapped .qund (QRef.loc 1).code) && agrees (exec (.sub o12) f) (f.trapped .qovf (QRef.loc 3).code)) = true := by
  decide +kernel
theorem test_OperandChecks_locks :
    let s := mk .s fun c => { withQs [(2, [7])] c with flights := [{ flV with dest := .dq 1 }] }
    agrees (exec (.sub o12) s) (s.waitsAt .lock) = true := by decide +kernel
theorem test_RegisterWordsFrame :
    (at0 s12).hnd = false ∧ answers (exec (.sub o12) s12) (fun t => t.lastIssue == .retired && t.accs.isEmpty && (at0 t).preds == (at0 s12).preds) = true := by
  decide +kernel
theorem witness_RegisterWordsFrame : RegisterRow (.sub o12) [sRef o12.a, sRef o12.b] := .alu _ _ _ _ (.sub o12)

/-! ## Decoding -/

theorem test_WordsOfTheSpecDecode : Obligations.WordsOfTheSpecDecode := by unfold Obligations.WordsOfTheSpecDecode; decide +kernel
theorem test_DecodeGivesBackEncode :
    let i : Instr := .add { j := false, d := 3, a := 1, ka := false, b := 2, kb := true, g := 2 }
    i.wf = true ∧ encode .s i = some [0x02308920] ∧ i.words = 1 := by decide +kernel

/-! ## Steps -/

/-- `(p2) ADD s3,s1,s2.k` stands at the pc of S, and S tries it next. -/
noncomputable def adds : State := { (State.reset.withFetchWord 32 0x02308920).modCtx cA (withQs [(1, [7]), (2, [5])]) with agenda := [.issue cA .s] }
theorem test_StepRunsTheDecodedWord :
    let u : State := { adds with agenda := [] }
    let v := u.touchCode cA .s
    (u.mayIssue cA = true ∧ (u.ctx cA).hasPending = false ∧ u.streamOpen cA .s = true ∧ (u.ctx cA).hnd = false ∧
      (v.codeAt cA .s ((v.ctx cA).str .s).pc).toOption = some 0x02308920) ∧ isPair .s 0x02308920 = false ∧
      answers (step adds) (fun t => t.lastIssue == .retired && (at0 t).ss.seq == 1) = true := by decide +kernel
/-- The same word in a handler; a word with J = 1 there is a double trap. -/
theorem test_StepRunsTheDecodedWord_handler :
    let h (w : Nat) : State := { (State.reset.withFetchWord 32 w).modCtx cA (fun c => { withQs [(1, [7]), (2, [5])] c with tcause := 0x8001 }) with
      agenda := [.issue cA .s] }
    ((at0 (h 0)).hnd && barredInHandler 0x82308920#32 (decodeWords .s 0x82308920 0) && !barredInHandler 0x02308920#32 (decodeWords .s 0x02308920 0) &&
      answers (step (h 0x02308920)) (fun t => t.lastIssue == .retired && (at0 t).hnd) &&
      answers (step (h 0x82308920)) (fun t => (at0 t).hold == .failed && t.hub.faults.map (fun r => (r.cause, r.addr)) == [(.illop, 0x82308920)])) = true := by decide +kernel
/-- NOP in V, M and X and a word with J = 1 in S: a bundle, which issues as a whole; without the other three the word waits. -/
noncomputable def bundled (w : Nat) : State := { (State.reset.withFetchWord 32 w).modCtx cA (withQs [(1, [7]), (2, [5])]) with agenda := [.issue cA .s] }
theorem test_StepRunsTheDecodedWord_bundle :
    let v := { bundled 0x82308920 with agenda := [] }.touchCode cA .s
    (v.bundleOf cA).map (fun l => l.map fun p => (p.1, p.2.code)) = some [(.s, 0x82308920), (.v, 0x80000000), (.m, 0x80000000), (.x, 0x80000000)] ∧
      answers (step (bundled 0x82308920)) (fun t => (at0 t).ss.seq == 1 && (at0 t).sx.seq == 1 && (at0 t).slots0 == 15 &&
        Table.get (t.cell 0).evNow 0 3 == 1) = true := by decide +kernel
theorem test_StepRunsTheDecodedWord_alone :
    let s : State := (bundled 0x82308920).modCtx cA fun c => { c with sx := { c.sx with passEnd := true }, lii := 0x100 }
    let v := { s with agenda := [] }.touchCode cA .s
    ((at0 s).liiAct = true ∧ (v.bundleOf cA).isNone = true) ∧ agrees (step s) (v.noted .waiting) = true := by decide +kernel
/-- An operand is missing: QUND of one word of the bundle, and none of them issues. -/
theorem test_StepRunsTheDecodedWord_bundleTraps :
    let s : State := { (State.reset.withFetchWord 32 0x82308900).modCtx cA (withQs [(1, [7])]) with agenda := [.issue cA .s] }
    answers (step s) (fun t => bits (at0 t).tcause 0 8 == Cause.qund.code && (at0 t).ss.seq == 0 && (at0 t).sx.seq == 0) = true := by decide +kernel
/-- A LOOPM beside NOPs arms the four streams. -/
theorem test_StepRunsTheDecodedWord_loopm :
    answers (step { (State.reset.withFetchWord 32 0xC4001000).modCtx cA (withQs [(1, [7])]) with agenda := [.issue cA .s] })
      (fun t => (at0 t).liiAct && (at0 t).liiN == 7 && (at0 t).slots0 == 15) = true := by decide +kernel
/-- No translation: the fetch traps. -/
theorem test_StepRunsTheDecodedWord_fetch :
    let s : State := { (bundled 0x82308920).modCtx cA (fun c => { c with ss := { c.ss with pc := 0x40000000 } }) with agenda := [.issue cA .s] }
    answers (step s) (fun t => bits (at0 t).tcause 0 8 == Cause.pfault.code && (at0 t).taddr == 0x40000000) = true := by decide +kernel
theorem test_StepRunsTheDecodedWord_event :
    let s : State := { State.reset with agenda := [.happen (.firmwareStore 8 7), .clock] }
    (Instr.firmwareStore 8 7).isEvent = true ∧ answers (step s) (fun t => t.hbm.read 8 == 7 && t.agenda == [.clock]) = true := by decide +kernel
/-- A unit of HBM goes bad. -/
theorem test_StepRunsTheDecodedWord_upset :
    let e : Upset := { mem := .hbm, unit := 3, double := true }
    answers (step { State.reset with agenda := [.upset e, .clock] }) (fun t => t.upsets == [e] && t.agenda == [.clock]) = true := by decide +kernel
theorem test_ResetKeepsTheForm : State.reset.memWf = true := by decide +kernel
theorem test_StepKeepsTheForm :
    let s : State := { State.reset with agenda := [.happen (.firmwareStore 8 0x090007)] }
    s.memWf = true ∧ answers (step s) (fun t => t.memWf && t.hbm.cells == [(8, 7), (10, 9)]) = true := by decide +kernel

end Sys2Proof.Tests
end

