-- ==== Sys2Proof/Tests/Slice0.lean ====
section
/-!
SUPPORT. Tests of well-formedness, and of decoding by words that the spec writes out (04 R81 to R96, 07 R167, 08 R178, 10, 15, 16).
The witnesses of the statements stand in the other files of this folder.
-/
namespace Sys2Proof.Tests
open Sys2Proof Sys2Proof.Machine
set_option Elab.async false

/-! ## Well-formed terms: for each check a term that it refuses -/

def zr : SR := { j := false, d := 0, a := 0, b := 0, ka := false, kb := false, g := 0 }
def zx : SX := { j := false, d := 0, a := 0, b := 0, ka := false, kb := false }
def zm : SM := { j := false, d := 0, a := 0, ka := false, kd := false, sz := 0, ord := 0, obs := 0, g := 0 }
def zv : VR := { j := false, d := 0, a := 0, b := 0, ka := false, kb := false, gm := 0, et := 0 }
def zc : VC := { j := false, e := 0, fr := 0, x := 0, kx := false, gm := 0, mode := 0 }
def zw : VW := { j := false, d := 0, a := 0, ka := false, wd := 0, gm := 0, et := 0, mode := 0 }
def za : MA := { j := false, a := 0, b := 0, c := 0, k1 := false, k2 := false, k3 := false, g := 0, mode := 0 }
def ze : Ext := { obs := 0, ord := 0, c := 0, kc := false }
/-- A guard of 1 in a V word names a lane mask (R83, R84). -/
theorem test_wf_guard : [Instr.nop false 1, .mfmt { za with g := 1, mode := 3 }, .rcinit { zc with gm := 7 }, .vGfence { zv with gm := 1 },
    .br { j := false, g := 1, off := 0 }].any (·.wf) = false := by decide +kernel
/-- Fields that a word leaves unused are zero (R96). -/
theorem test_wf_unused : [Instr.trap { zx with d := 1 }, .tret { zx with b := 1 }, .tstamp { zx with ka := true }, .clz { zr with b := 1 },
    .jr { zr with d := 1 }, .qcnt { zr with a := 1 }, .vabs { zv with b := 1 }, .afrom { j := false, d := 0, a := 1, ka := false, imm := 1 },
    .ali { j := false, d := 1, a := 1, ka := false, imm := 0 }, .mswap { za with a := 1 }, .xlbc { za with k1 := true }, .vwpool { zw with a := 1 },
    .pldf { zc with e := 1 }, .xGfence { j := false, a := 1 }, .ld { zm with kd := true }, .mkat { za with b := 1 } 0].any (·.wf) = false := by decide +kernel
/-- A queue, mask or slot number within its file; a destination predicate or mask is not 0 (R87, R91). -/
theorem test_wf_numbers : [Instr.cmpEq zr, .cmpEq { zr with d := 8 }, .pand { zr with d := 1, a := 8 }, .vcmpEq zv, .mand { zv with d := 8 }, .mset zv,
    .bsync { zx with b := 4 }, .nlaunch { zx with b := 8 }, .wdld { zx with b := 4 }, .jstat { zx with b := 22 }, .cntr { zx with b := 16 },
    .tsig { zr with b := 16 }, .xstat { j := false, a := 8 }, .rcencv { zc with e := 17 }, .rcbinv { zc with e := 31, mode := 1 }].any (·.wf) = false := by
  decide +kernel
/-- Element widths: no integer form of ET 3, no floating-point form of ET 0 (R91). -/
theorem test_wf_elements : [Instr.vadd { zv with et := 3 }, .fadd zv, .vcmpFlt { zv with d := 1 }, .mpop { zv with et := 1 }, .cvt { zv with et := 1 } 0,
    .cvt zv 28, .vstb { j := false, d := 0, a := 0, ka := false, kd := false, gm := 0, et := 1, sp := 0, off := 0 }].any (·.wf) = false := by decide +kernel
/-- ORD and OBS go together; LD acquires, ST releases; a FENCE names an observer (R87). -/
theorem test_wf_order : [Instr.ld { zm with ord := 1 }, .ld { zm with obs := 1 }, .ld { zm with ord := 2, obs := 1 }, .st { zm with ord := 1, obs := 1 },
    .fenceEng { j := false, obs := 0 }, .amoAdd zr { ze with c := 2 }, .amoFadd zr { ze with c := 1 }, .cas false zr { ze with ord := 1 }].any (·.wf) = false := by
  decide +kernel
/-- The values of immediates: shift amounts, loop ends, formats, register numbers (R87, R93, R140, R285, R299). -/
theorem test_wf_values : [Instr.shli { j := false, d := 0, a := 0, ka := false, g := 0, imm := 64 },
    .vshli { j := false, d := 0, a := 0, ka := false, gm := 0, et := 2, imm := 32 },
    .vshri { j := false, d := 0, a := 0, ka := false, gm := 0, et := 1, imm := 16 }, .loopi { j := false, lv := false, count := 1, last := 0 },
    .mfmt za, .mfmt { za with mode := 8 }, .mout { za with mode := 9 }, .mout { za with mode := 0x31 }, .xred { za with mode := 12 },
    .csrw { j := false, d := 0, a := 0, ka := false, csr := 1 }, .csrr { j := false, d := 0, a := 0, ka := false, csr := 5 }].any (·.wf) = false := by
  decide +kernel
/-- The nearest terms that pass: the checks refuse no more than that. -/
theorem test_wf_passes : [Instr.nop false 8, .cmpEq { zr with d := 7 }, .ld { zm with ord := 1, obs := 1 }, .st { zm with ord := 2, obs := 31 },
    .vadd { zv with et := 2 }, .fadd { zv with et := 3 }, .jstat { zx with b := 21 }, .rcencv { zc with e := 16 }, .rcbinv { zc with e := 31 },
    .mout { za with mode := 0x28 }, .mfmt { za with mode := 7 }, .csrr { j := false, d := 0, a := 0, ka := false, csr := 0xF0 },
    .loopi { j := false, lv := false, count := 1, last := 1 }].all (·.wf) = true := by decide +kernel

/-! ## Words of the spec -/

/-- 07: DIV s6,s4,s5; CMP.LT p3,s1,s2; ADDI s2,s2,−1. -/
theorem test_decode_scalar : decodeWords .s 0x04621403 0 = .div { zr with d := 6, a := 4, b := 5 } ∧
    decodeWords .s 0x06308802 0 = .cmpLt { zr with d := 3, a := 1, b := 2 } ∧
    decodeWords .s 0x0A2103FF 0 = .addi { j := false, d := 2, a := 2, ka := false, g := 0, imm := 0x3FF } ∧
    decodeWords .s 0x22101234 0 = .lix { j := false, d := 1, g := 0, imm := 0x1234 } := by decide +kernel
/-- CALL $+16; RET is JR s23; LD.d.acq.oCP s5,[s3]; ST.d.rel.oCP [s3],s4; FENCE.eng.oCM. -/
theorem test_decode_control : decodeWords .s 0x2A000010 0 = .call { j := false, g := 0, off := 16 } ∧
    decodeWords .s 0x300B8000 0 = .jr { zr with a := 23 } ∧
    decodeWords .s 0x32519A90 0 = .ld { zm with d := 5, a := 3, sz := 3, ord := 1, obs := 9 } ∧
    decodeWords .s 0x36419C90 0 = .st { zm with d := 4, a := 3, sz := 3, ord := 2, obs := 9 } ∧
    decodeWords .s 0x3C00002B 0 = .fenceEng { j := false, obs := 5 } := by decide +kernel
/-- QCNT s4,c2; MOVXR s5,s2; LOOPI 1,2; LOOPM.rb 2,3,s4 with J; CSRR s1,PARAM0; CSRW s0,s7,LPW. -/
theorem test_decode_queues : decodeWords .s 0x3E510000 0 = .movxr { zr with d := 5, a := 2 } ∧
    decodeWords .s 0x43008002 0 = .loopi { j := false, lv := true, count := 2, last := 2 } ∧
    decodeWords .s 0xC42A4000 0 = .loopm { j := true, ii := 1, stages := 2, rb := true, a := 4, ka := false } ∧
    decodeWords .s 0x46100060 0 = .csrr { j := false, d := 1, a := 0, ka := false, csr := 0x060 } ∧
    decodeWords .s 0x48038040 0 = .csrw { j := false, d := 0, a := 7, ka := false, csr := 0x040 } := by decide +kernel
/-- The SYS words: TSTAMP s3; TRAP 5; TRET; BSYNC DOMP; WDLD wd1,[s4]; CNTR s4,3; NLAUNCH 2; LQPOP.nb s5; HALT. -/
theorem test_decode_system : decodeWords .s 0x00300030 0 = .tstamp { zx with d := 3 } ∧ decodeWords .s 0x00001410 0 = .trap { zx with b := 5 } ∧
    decodeWords .s 0x18 0 = .tret zx ∧ decodeWords .s 0x00000828 0 = .bsync { zx with b := 2 } ∧
    decodeWords .s 0x00020480 0 = .wdld { zx with a := 4, b := 1 } ∧ decodeWords .s 0x00400C40 0 = .cntr { zx with d := 4, b := 3 } ∧
    decodeWords .s 0x00000848 0 = .nlaunch { zx with b := 2 } ∧ decodeWords .s 0x00500450 0 = .lqpopNb { zx with d := 5, b := 1 } ∧
    decodeWords .s 0x80000008 0 = .halt := by decide +kernel
/-- EPOPEN s5,s3,s4; EPCLOSE s6,s3,s4; RWPOST s7; JSTAT s8,3; LVSET s4; BRK 5. -/
theorem test_decode_join : decodeWords .s 0x00519060 0 = .epopen { zx with d := 5, a := 3, b := 4 } ∧
    decodeWords .s 0x00619068 0 = .epclose { zx with d := 6, a := 3, b := 4 } ∧ decodeWords .s 0x00038070 0 = .rwpost { zx with a := 7 } ∧
    decodeWords .s 0x00800C78 0 = .jstat { zx with d := 8, b := 3 } ∧ decodeWords .s 0x00020058 0 = .lvset { zx with a := 4 } ∧
    decodeWords .s 0x00001488 0 = .brk { zx with b := 5 } := by decide +kernel
/-- VADD.w v3,v1,v2; VLD.ab.w v2,[a3],0x200; PQUANT f1,v2,4; RCENC e2,f1,a3; RCSTAT c2,e3; HALT of V. -/
theorem test_decode_vector : decodeWords .v 0x02624040 0 = .vadd { zv with d := 3, a := 1, b := 2, et := 2 } ∧
    decodeWords .v 0x14460402 0 = .vld { j := false, d := 2, a := 3, ka := false, kd := false, gm := 0, et := 2, sp := 0, off := 2 } ∧
    decodeWords .v 0x30012003 0 = .pquant { zc with fr := 1, x := 2, mode := 3 } ∧
    decodeWords .v 0x38213000 0 = .rcenc { zc with e := 2, fr := 1, x := 3 } ∧ decodeWords .v 0x48302000 0 = .rcstat { zc with e := 3, x := 2 } ∧
    decodeWords .v 0x80000001 0 = .vHalt := by decide +kernel
/-- MSTR.acc a1,a2,a3; MOUT.e4m3.relu a1,a2,a3; MKAT a1,0x5A3C0F1E; XCPY.ab.vm a1,a2,a3; XSTAT c3. -/
theorem test_decode_engines : decodeWords .m 0x08246001 0 = .mstr { za with a := 1, b := 2, c := 3, mode := 1 } ∧
    decodeWords .m 0x0E246013 0 = .mout { za with a := 1, b := 2, c := 3, mode := 0x13 } ∧
    decodeWords .m 0x10200000 0x5A3C0F1E = .mkat { za with a := 1 } 0x5A3C0F1E ∧
    decodeWords .x 0x0224600C 0 = .xcpy { za with a := 1, b := 2, c := 3, mode := 12 } ∧ decodeWords .x 0x00600006 0 = .xstat { j := false, a := 3 } := by
  decide +kernel
/-- A word with a reserved field or no row is the illegal word, not its neighbour. -/
theorem test_decode_refused : decodeWords .s 0x00001001 0 = .illegalWord 0x00001001 ∧ decodeWords .x 0x00700006 0 ≠ .xstat { j := false, a := 4 } ∧
    decodeWords .m 0x02000000 0 = .illegalWord 0x02000000 := by decide +kernel
/-- `decodeTableWord` reads bytes in the order of the table: the second word of a pair from bit 32 on. -/
theorem test_decode_table : decodeTableWord 64 0x0E10000038519000 = some (.amoAdd { zr with d := 5, a := 3, b := 4 } { ze with obs := 1, ord := 3, c := 1 }) := by
  decide +kernel

end Sys2Proof.Tests
end

/-!
SUPPORT. The synchronisation words of 02 and 07: what a GFENCE and a BSYNC do on each of their paths.
-/
namespace Sys2Proof.Machine

/-! ## GFENCE (02 R47, 07 R171) -/

/-- The state of a GFENCE after it has raised its stream's count. -/
def State.fenceRaised (s : State) : State := s.changed fun c => c.modStr s.curSt raiseFence

/-- The common start of the paths of a GFENCE. -/
theorem fenceFlow_run {s : State} (h : s.outwardOk = true) :
    fenceFlow s = (if !(s.fenceRaised.ctx s.cur).fencesEqual then do
        leaveFence
        pure .stay
      else if s.inBundle then do
        modCx fun c => { c.modStr s.curSt fun x => { x with gfw := false } with gen := c.ss.gf }
        pure .seq
      else do
        modCx Ctx.leaveFences
        pure .done : Act Flow) s.fenceRaised := by
  unfold fenceFlow
  rw [Act.bind_ok (curStream_run s), Act.bind_ok (outward_run h), Act.bind_ok (modCx_run _ s), Act.bind_ok (cx_run _)]
  rfl

theorem finish_fenceFlow_unequal {s : State} (h : s.outwardOk = true) (he : (s.fenceRaised.ctx s.cur).fencesEqual = false) :
    finish 1 false fenceFlow s = .next s.fenceRaised.waits := by
  refine finish_stay (t := s.fenceRaised.changed fun c => { c with atFence := false }) ?_
  rw [fenceFlow_run h, he]
  rfl

theorem finish_fenceFlow_alone {s : State} (h : s.outwardOk = true) (he : (s.fenceRaised.ctx s.cur).fencesEqual = true)
    (hb : s.inBundle = false) : finish 1 false fenceFlow s = .next (s.fenceRaised.changed Ctx.leaveFences).issuedOnly := by
  refine finish_done ?_
  rw [fenceFlow_run h, he, hb]
  rfl

theorem finish_fenceFlow_bundle {s : State} (h : s.outwardOk = true) (he : (s.fenceRaised.ctx s.cur).fencesEqual = true)
    (hb : s.inBundle = true) : finish 1 false fenceFlow s = .next ((s.fenceRaised.changed fun c =>
        { c.modStr s.curSt (fun r => { r with gfw := false }) with gen := c.ss.gf }).retired 1) := by
  refine finish_seq ?_ rfl rfl
  rw [fenceFlow_run h, he, hb]
  rfl

theorem maskReady_run {n : Nat} {s : State} (h : s.maskKnown n = true) : maskReady n s = .ok ((), s) := by
  have e : (n != 0 && (s.ctx s.cur).pending (.mask n) != 0) = false := by
    by_cases hn : n = 0
    · simp [hn]
    · simpa [State.maskKnown, hn] using h
  unfold maskReady
  rw [Act.bind_ok (cx_run s), e]
  rfl

/-- The lane mask of a V word that is known: its body runs in the iteration of its guard (04 R84). -/
theorem vMask_run {gm : BitVec 4} {m : Mask} {s : State} (h : s.lanes gm = some m) :
    vMask gm s = .ok (some m, s.begun .v gm) := by
  unfold State.lanes at h
  unfold vMask State.begun
  by_cases hg : gm.toNat < 8
  · simp only [hg, if_true] at h ⊢
    split at h
    · next hk =>
      rw [Act.bind_ok (maskReady_run hk), Act.bind_ok (cx_run s), ← h]
      rfl
    · cases h
  · simp only [hg, if_false] at h ⊢
    split at h
    · next hp =>
      rw [Act.bind_ok (cx_run s), if_pos hp, ← h]
      rfl
    · cases h

/-- Two bodies that end well in the same way give the same outcome. -/
theorem finish_congr {len : Nat} {call : Bool} {b b' : Act Flow} {s s' : State} {r : Flow × State} (h : b s = .ok r)
    (h' : b' s' = .ok r) (hc : s'.cur = s.cur) (hs : s'.curSt = s.curSt) : finish len call b s = finish len call b' s' := by
  unfold finish
  rw [h, h', hc, hs]
  rcases r with ⟨_ | _ | _ | _, t⟩ <;> rfl

/-- The body of a GFENCE runs in the state before it, or under its stage predicate. -/
theorem State.atFenceWord_eq (s : State) (st : Stream) (g : BitVec 4) : s.atFenceWord st g = s ∨ s.atFenceWord st g = s.entered g := by
  unfold State.atFenceWord
  by_cases hv : st = .v
  · by_cases hg : g.toNat < 8 <;> simp [hv, hg, State.begun]
  · simp [hv]

@[simp] theorem State.atFenceWord_cur (s : State) (st : Stream) (g : BitVec 4) : (s.atFenceWord st g).cur = s.cur := by
  rcases s.atFenceWord_eq st g with h | h <;> simp [h, State.entered]

@[simp] theorem State.atFenceWord_curSt (s : State) (st : Stream) (g : BitVec 4) : (s.atFenceWord st g).curSt = s.curSt := by
  rcases s.atFenceWord_eq st g with h | h <;> simp [h, State.entered]

@[simp] theorem State.atFenceWord_inBundle (s : State) (st : Stream) (g : BitVec 4) :
    (s.atFenceWord st g).inBundle = s.inBundle := by
  rcases s.atFenceWord_eq st g with h | h <;> simp [h, State.entered]

/-- A GFENCE that may have its outward effect does not stop. -/
theorem fenceFlow_ok {s : State} (h : s.outwardOk = true) : ∃ r, fenceFlow s = .ok r := by
  rw [fenceFlow_run h]
  split
  · exact ⟨_, rfl⟩
  · split <;> exact ⟨_, rfl⟩

/-- Every GFENCE word whose mask is known is the same flow, in the state that its guard gives. -/
theorem exec_gfenceRow {i : Instr} {st : Stream} {g : BitVec 4} {s : State} (hr : GfenceRow i st g)
    (hv : st = .v → (s.lanes g).isSome = true) (ho : (s.atFenceWord st g).outwardOk = true) :
    exec i s = finish 1 false fenceFlow (s.atFenceWord st g) := by
  cases hr with
  | s o => rfl
  | m o => rfl
  | x o => rfl
  | v o =>
    obtain ⟨m, hm⟩ := Option.isSome_iff_exists.mp (hv rfl)
    obtain ⟨r, hf⟩ := fenceFlow_ok ho
    refine finish_congr ?_ hf (by simp) (by simp)
    rw [Act.bind_ok (vMask_run hm)]
    exact hf

theorem gfence_paths (i : Instr) (st : Stream) (g : BitVec 4) (s : State) (hr : GfenceRow i st g) (hs : s.curSt = st)
    (hv : st = .v → (s.lanes g).isSome = true) :
    let b := s.atFenceWord st g
    let u := b.changed fun c => c.modStr st raiseFence
    b.outwardOk = true →
    ((u.ctx s.cur).fencesEqual = true → s.inBundle = false → exec i s = .next ((u.changed Ctx.leaveFences).issuedOnly)) ∧
    ((u.ctx s.cur).fencesEqual = true → s.inBundle = true →
      exec i s = .next ((u.changed fun c =>
        { c.modStr st (fun r => { r with gfw := false }) with gen := c.ss.gf }).retired 1)) ∧
    ((u.ctx s.cur).fencesEqual = false → exec i s = .next u.waits) := by
  intro b u ho
  have hcur : b.cur = s.cur := s.atFenceWord_cur st g
  have hst : b.curSt = st := (s.atFenceWord_curSt st g).trans hs
  have hin : b.inBundle = s.inBundle := s.atFenceWord_inBundle st g
  have hx : exec i s = finish 1 false fenceFlow b := exec_gfenceRow hr hv ho
  have hu : b.fenceRaised = u := by simp only [u, State.fenceRaised, hst]
  rw [hx, ← hcur, ← hin, ← hu]
  refine ⟨finish_fenceFlow_alone ho, ?_, finish_fenceFlow_unequal ho⟩
  have h := finish_fenceFlow_bundle ho
  rw [hst] at h
  exact h

/-! ## BSYNC (02 R36, R37, R40; 18 R359) -/

theorem scopeOf_extractLsb' (b : BitVec 5) : scopeOf (b.extractLsb' 0 2).toNat = scopeOf (b.toNat % 4) := by
  simp [BitVec.extractLsb'_toNat]

/-- What a BSYNC does that is at its barrier: it signals its arrival once it may, and stays. -/
def bsyncTry (sc : DomScope) : Act Flow := do
  let go ← (fun s => .ok (s.mayArrive s.cur sc, s) : Act Bool)
  let c ← cx
  (if go && !c.arrived then
    (fun s => .ok ((), s.tokenOut s.cur (domId (c.dom sc)) c.barrierRank) : Act Unit) else pure ())
  modCx fun c => { c with arrived := c.arrived || go, waitSlots := putBits c.waitSlots 0 1 1 }
  leaveFence
  pure .stay

/-- The first try of a BSYNC: the checks of 02 R36, and its rank. -/
def bsyncBegin (sc : DomScope) : Act Unit := do
  domCheck sc
  outward
  let r ← freshId
  modCx fun c => { c with barrier := some sc, barrierRank := r, arrived := false }

/-- A BSYNC goes on where its barrier has been released, and otherwise tries it, for the first time or again. -/
theorem exec_bsync_eq (o : SX) (s : State) : exec (.bsync o) s =
    finish 1 false (do
      let c ← cx
      if c.released then
        modCx fun c => { c with released := false }
        pure .seq
      else
        (match c.barrier with
          | some _ => pure ()
          | none => bsyncBegin (scopeOf (o.b.toNat % 4)))
        bsyncTry (scopeOf (o.b.toNat % 4))) s := rfl

theorem bsync_released {o : SX} {s : State} (h : (s.ctx s.cur).released = true) :
    exec (.bsync o) s = .next ((s.changed fun c => { c with released := false }).retired 1) := by
  rw [exec_bsync_eq]
  refine finish_seq ?_ rfl rfl
  rw [Act.bind_ok (cx_run s), if_pos h]
  rfl

/-- A try stays, and leaves `barrierTried`. -/
theorem bsyncTry_run (sc : DomScope) (s : State) :
    ∃ t, bsyncTry sc s = .ok (.stay, t) ∧ t.noted .waiting = s.barrierTried sc := by
  unfold bsyncTry
  have hgo : (fun s => .ok (s.mayArrive s.cur sc, s) : Act Bool) s = .ok (s.mayArrive s.cur sc, s) := rfl
  rw [Act.bind_ok hgo, Act.bind_ok (cx_run s)]
  unfold State.barrierTried
  by_cases hg : (s.mayArrive s.cur sc && !(s.ctx s.cur).arrived) = true
  · simp only [hg, if_true]
    exact ⟨_, rfl, rfl⟩
  · simp only [hg]
    exact ⟨_, rfl, rfl⟩

theorem bsync_again {o : SX} {s : State} (hr : (s.ctx s.cur).released = false) (hb : (s.ctx s.cur).barrier.isSome = true) :
    exec (.bsync o) s = .next (s.barrierTried (scopeOf (o.b.toNat % 4))) := by
  obtain ⟨b, hb⟩ := Option.isSome_iff_exists.mp hb
  obtain ⟨t, ht, hw⟩ := bsyncTry_run (scopeOf (o.b.toNat % 4)) s
  rw [exec_bsync_eq, ← hw]
  refine finish_stay ?_
  rw [Act.bind_ok (cx_run s), if_neg (by simp [hr]), hb]
  exact ht

/-- A set domain register of a smaller scope whose domain the hub does not record as contained in that of the scope (02 R36). -/
def State.unnested (s : State) (sc : DomScope) : Bool :=
  let c := s.ctx s.cur
  scopes.any fun e => decide (scopeNo e < scopeNo sc) && domCount (c.dom e) != 0 &&
    !s.domNested (s.partOf s.cur) (domId (c.dom e)) (domId (c.dom sc))

theorem domCheck_eq (sc : DomScope) (s : State) : domCheck sc s =
    if domCount ((s.ctx s.cur).dom sc) = 0 then trapNow .domerr (BitVec.ofNat 64 (scopeNo sc)) s
    else if s.unnested sc then trapNow .domerr (BitVec.ofNat 64 (4 + scopeNo sc)) s else .ok ((), s) := rfl

theorem State.domOk_eq (s : State) (sc : DomScope) :
    s.domOk sc = (domCount ((s.ctx s.cur).dom sc) != 0 && !s.unnested sc) := by
  simp [State.domOk, State.unnested, List.any_eq_not_all_not, Bool.not_and]

theorem domCheck_run {sc : DomScope} {s : State} (h : s.domOk sc = true) : domCheck sc s = .ok ((), s) := by
  rw [State.domOk_eq, Bool.and_eq_true, bne_iff_ne, Bool.not_eq_true'] at h
  rw [domCheck_eq, if_neg h.1, h.2]
  rfl

theorem domCheck_unnested {sc : DomScope} {s : State} (hc : domCount ((s.ctx s.cur).dom sc) ≠ 0) (h : s.domOk sc = false) :
    domCheck sc s = trapNow .domerr (BitVec.ofNat 64 (4 + scopeNo sc)) s := by
  have hu : s.unnested sc = true := by simpa [State.domOk_eq, hc] using h
  rw [domCheck_eq, if_neg hc, if_pos hu]

theorem bsyncBegin_run {sc : DomScope} {s : State} (hd : s.domOk sc = true) (ho : s.outwardOk = true) :
    bsyncBegin sc s = .ok ((), s.barrierBegun sc) := by
  unfold bsyncBegin
  rw [Act.bind_ok (domCheck_run hd), Act.bind_ok (outward_run ho)]
  rfl

theorem bsync_first {o : SX} {s : State} (hr : (s.ctx s.cur).released = false) (hb : (s.ctx s.cur).barrier = none)
    (hd : s.domOk (scopeOf (o.b.toNat % 4)) = true) (ho : s.outwardOk = true) :
    exec (.bsync o) s =
      .next ((s.barrierBegun (scopeOf (o.b.toNat % 4))).barrierTried (scopeOf (o.b.toNat % 4))) := by
  obtain ⟨t, ht, hw⟩ := bsyncTry_run (scopeOf (o.b.toNat % 4)) (s.barrierBegun (scopeOf (o.b.toNat % 4)))
  rw [exec_bsync_eq, ← hw]
  refine finish_stay ?_
  rw [Act.bind_ok (cx_run s), if_neg (by simp [hr]), hb]
  show (bsyncBegin _ >>= fun _ => bsyncTry _) s = _
  rw [Act.bind_ok (bsyncBegin_run hd ho)]
  exact ht

/-- A domain register that the check refuses traps DOMERR. -/
theorem bsync_trap {o : SX} {s : State} {a : Word} (hr : (s.ctx s.cur).released = false) (hb : (s.ctx s.cur).barrier = none)
    (hd : domCheck (scopeOf (o.b.toNat % 4)) s = trapNow .domerr a s) : exec (.bsync o) s = .next (s.trapped .domerr a) := by
  rw [exec_bsync_eq]
  refine finish_trap ?_
  rw [Act.bind_ok (cx_run s), if_neg (by simp [hr]), hb]
  show (bsyncBegin _ >>= fun _ => bsyncTry _) s = _
  refine Act.bind_error ?_
  unfold bsyncBegin
  exact Act.bind_error hd

/-- Settles O18. -/
theorem synchronisationWords : Obligations.SynchronisationWords := by
  unfold Obligations.SynchronisationWords
  refine ⟨gfence_paths, fun o s => ?_⟩
  simp only [scopeOf_extractLsb']
  refine ⟨bsync_released, bsync_again, fun hr hb => ⟨bsync_first hr hb, fun h0 => ?_, fun h0 hd => ?_⟩⟩
  · exact bsync_trap hr hb (if_pos h0)
  · exact bsync_trap hr hb (domCheck_unnested h0 hd)

end Sys2Proof.Machine

/-!
SUPPORT. Reading the fields of a word back after one of them has been written.
-/
namespace Sys2Proof.Machine

theorem bitsN_testBit (v lo w i : Nat) : (bitsN v lo w).testBit i = (decide (i < w) && v.testBit (lo + i)) := by
  rw [bitsN, Nat.testBit_mod_two_pow, Nat.testBit_div_two_pow, Nat.add_comm]

/-- A number is its part above a field, the field, and its part below. -/
theorem putBits_eq (v lo w x : Nat) : putBits v lo w x = 2 ^ lo * (2 ^ w * (v / 2 ^ lo / 2 ^ w) + x % 2 ^ w) + v % 2 ^ lo := by
  have h1 : v = 2 ^ lo * (v / 2 ^ lo) + v % 2 ^ lo := (Nat.div_add_mod _ _).symm
  have h2 : v / 2 ^ lo = 2 ^ w * (v / 2 ^ lo / 2 ^ w) + v / 2 ^ lo % 2 ^ w := (Nat.div_add_mod _ _).symm
  have h3 : v = 2 ^ lo * (2 ^ w * (v / 2 ^ lo / 2 ^ w)) + v / 2 ^ lo % 2 ^ w * 2 ^ lo + v % 2 ^ lo := by
    rw [Nat.mul_comm (v / 2 ^ lo % 2 ^ w), ← Nat.mul_add, ← h2]
    exact h1
  unfold putBits bitsN
  rw [Nat.mul_add, Nat.mul_comm (2 ^ lo) (x % 2 ^ w)]
  omega

theorem putBits_testBit (v lo w x i : Nat) :
    (putBits v lo w x).testBit i = if lo ≤ i ∧ i < lo + w then x.testBit (i - lo) else v.testBit i := by
  rw [putBits_eq, Nat.testBit_two_pow_mul_add _ (Nat.mod_lt _ (Nat.two_pow_pos lo)) i,
    Nat.testBit_two_pow_mul_add _ (Nat.mod_lt _ (Nat.two_pow_pos w))]
  by_cases h1 : i < lo
  · have h : ¬(lo ≤ i ∧ i < lo + w) := by omega
    simp only [h1, h, if_true, if_false, Nat.testBit_mod_two_pow, decide_true, Bool.true_and]
  · by_cases h2 : i - lo < w
    · have h : lo ≤ i ∧ i < lo + w := by omega
      simp [h1, h2, h, Nat.testBit_mod_two_pow]
    · have h : ¬(lo ≤ i ∧ i < lo + w) := by omega
      have e : lo + (w + (i - lo - w)) = i := by omega
      simp [h1, h2, h, Nat.testBit_div_two_pow]
      congr 1
      omega

/-- A written field of a word, read back. -/
theorem bits_setBits_same (v : Word) {lo w : Nat} (x : Nat) (h : lo + w ≤ 64) : bits (setBits v lo w x) lo w = x % 2 ^ w := by
  apply Nat.eq_of_testBit_eq
  intro i
  rw [bits, setBits, BitVec.toNat_ofNat, bitsN_testBit, Nat.testBit_mod_two_pow, Nat.testBit_mod_two_pow, putBits_testBit]
  by_cases hi : i < w
  · have h1 : lo + i < 64 := by omega
    simp [hi, h1]
  · simp [hi]

/-- Writing a field leaves one that lies below or above it. -/
theorem bits_setBits_apart (v : Word) {lo w lo' w' : Nat} (x : Nat) (hw : lo' + w' ≤ 64) (h : lo' + w' ≤ lo ∨ lo + w ≤ lo') :
    bits (setBits v lo w x) lo' w' = bits v lo' w' := by
  apply Nat.eq_of_testBit_eq
  intro i
  rw [bits, setBits, BitVec.toNat_ofNat, bitsN_testBit, Nat.testBit_mod_two_pow, putBits_testBit, bits, bitsN_testBit]
  by_cases hi : i < w'
  · have h1 : lo' + i < 64 := by omega
    have h2 : ¬(lo ≤ lo' + i ∧ lo' + i < lo + w) := by omega
    simp [hi, h1, h2]
  · simp [hi]

theorem bitOf_setBits_same (v : Word) {k : Nat} (x : Nat) (h : k < 64) : bitOf (setBits v k 1 x) k = (x % 2 == 1) := by
  rw [bitOf, bits_setBits_same v x (by omega), Nat.pow_one]

theorem bitOf_setBits_apart (v : Word) {lo w k : Nat} (x : Nat) (hk : k < 64) (h : k < lo ∨ lo + w ≤ k) :
    bitOf (setBits v lo w x) k = bitOf v k := by
  unfold bitOf
  rw [bits_setBits_apart v x (by omega) (by omega)]

end Sys2Proof.Machine

/-!
SUPPORT. RESULT_DUE, MODULO_PASS_END and HALT_BUNDLE_RETIRE: what each of them leaves.
-/
namespace Sys2Proof.Machine

/-! ## RESULT_DUE (02 R25, 06 R100, R131) -/

theorem Flight.before_of_due {a b : Flight} {x y : Nat} (ha : a.due = some x) (hb : b.due = some y) :
    a.before b = true ↔ x < y ∨ x = y ∧ (slotNo a.st < slotNo b.st ∨ a.st = b.st ∧ a.tok < b.tok) := by
  simp [Flight.before, ha, hb]

theorem Flight.not_before_of_none {a b : Flight} (ha : a.due = none) : a.before b = false := by
  simp [Flight.before, ha]

theorem Flight.leads_of_due {g f : Flight} {d cycle : Nat} (h : g.due = some d) :
    g.leads f cycle = true ↔ d < cycle ∨ d = cycle ∧ (slotNo g.st < slotNo f.st ∨ g.st = f.st ∧ g.tok < f.tok) := by
  simp [Flight.leads, h]

theorem Flight.not_leads_of_none {g f : Flight} {cycle : Nat} (h : g.due = none) : g.leads f cycle = false := by
  simp [Flight.leads, h]

/-- A result with no stated latency whose turn has come, in the words of the statement, lands in the model. -/
theorem Ctx.soonLands_of_lands {c : Ctx} {cycle : Nat} {f : Flight} (hd : f.due = none) (h : f.lands c cycle) :
    c.soonLands cycle f = true := by
  simp only [Flight.lands, hd] at h
  obtain ⟨hall, hlast⟩ := h
  rw [Ctx.soonLands, Bool.and_eq_true, List.all_eq_true]
  constructor
  · intro g hg
    by_cases hde : g.dest = f.dest
    · obtain ⟨hdue, hnone⟩ := hall g hg hde
      cases hgd : g.due with
      | some e =>
        obtain ⟨hle, heq⟩ := hdue e (by simp [hgd])
        have hl : g.leads f cycle = false := by
          rw [← Bool.not_eq_true, Flight.leads_of_due hgd]
          rintro (hlt | ⟨he, hs | ⟨hs, ht⟩⟩)
          · omega
          · exact absurd (heq he).1 (by omega)
          · exact absurd ((heq he).2 hs) (by omega)
        simp [hl]
      | none =>
        rcases hnone hgd with ⟨n, hn⟩ | ht
        · simp [Flight.not_leads_of_none hgd, hn, Dest.chan?]
        · simp [Flight.not_leads_of_none hgd, ht]
    · simp [hde]
  · cases hde : f.dest with
    | chan n =>
      have h := hlast n hde
      simp only [Dest.chan?, Bool.not_eq_true', Bool.and_eq_false_iff, beq_eq_false_iff_ne, decide_eq_false_iff_not]
      exact Decidable.not_or_of_imp fun e => Nat.not_lt.mpr (h e)
    | _ => rfl

/-- A result whose place has come, in the words of the statement, lands in the model. -/
theorem Ctx.mayLand_of_lands {c : Ctx} {cycle : Nat} {f : Flight} {v : Vec} (hv : f.val = some v) (h : f.lands c cycle) :
    c.mayLand cycle f = true := by
  rw [Ctx.mayLand, hv, Option.isSome_some, Bool.true_and]
  cases hd : f.due with
  | none => exact Ctx.soonLands_of_lands hd h
  | some d =>
    simp only [Flight.lands, hd] at h
    obtain ⟨hc, hall⟩ := h
    simp only [Bool.and_eq_true, decide_eq_true_eq, List.all_eq_true, Bool.not_eq_true']
    refine ⟨hc, fun g hg => ?_⟩
    cases hgd : g.due with
    | none => exact Flight.not_before_of_none hgd
    | some e =>
      obtain ⟨hle, heq⟩ := hall g hg e (by simp [hgd])
      rw [← Bool.not_eq_true, Flight.before_of_due hgd hd]
      rintro (hlt | ⟨he, hs | ⟨hs, ht⟩⟩)
      · omega
      · exact absurd (heq he).1 (by omega)
      · exact absurd ((heq he).2 hs) (by omega)

theorem Ctx.not_mayLand_of_early {c : Ctx} {cycle d : Nat} {f : Flight} (hd : f.due = some d) (h : cycle < d) :
    c.mayLand cycle f = false := by
  simp [Ctx.mayLand, hd, Nat.not_le.mpr h]

theorem Ctx.landTok_eq {c : Ctx} {f : Flight} (hf : (c.flights.find? fun g => g.tok == f.tok) = some f) (v : Vec) :
    c.landTok f.tok v = ({ c with flights := c.flights.filter fun g => g.tok != f.tok }).land f.dest v f.it := by
  unfold Ctx.landTok
  rw [hf]
  rfl

theorem Ctx.landNoted_eq {c : Ctx} {cycle : Nat} {f : Flight} {v : Vec}
    (hf : (c.flights.find? fun g => g.tok == f.tok) = some f) (hv : f.val = some v) :
    c.landNoted cycle f = c.takesResult cycle f v := by
  unfold Ctx.landNoted Ctx.takesResult
  rw [Ctx.landTok_eq hf, hv]
  cases f.dest <;> rfl

theorem exec_resultDue_eq {c : CtxRef} {f : Flight} {s : State}
    (hf : ((s.ctx c).flights.find? fun g => g.tok == f.tok) = some f) : exec (.resultDue c f.tok) s =
      .next (if (s.ctx c).mayLand (s.cell c.cell).cycle f then s.modCtx c fun x => x.landNoted (s.cell c.cell).cycle f else s) := by
  rw [exec_resultDue, execResultDue, hf]

theorem resultDue_lands {c : CtxRef} {f : Flight} {v : Vec} {s : State}
    (hf : ((s.ctx c).flights.find? fun g => g.tok == f.tok) = some f) (hv : f.val = some v)
    (hl : f.lands (s.ctx c) (s.cell c.cell).cycle) :
    exec (.resultDue c f.tok) s = .next (s.modCtx c fun y => y.takesResult (s.cell c.cell).cycle f v) := by
  rw [exec_resultDue_eq hf, if_pos (Ctx.mayLand_of_lands hv hl), State.modCtx, State.modCtx, Ctx.landNoted_eq hf hv]

theorem resultDue_early {c : CtxRef} {f : Flight} {d : Nat} {s : State}
    (hf : ((s.ctx c).flights.find? fun g => g.tok == f.tok) = some f) (hd : f.due = some d)
    (hl : (s.cell c.cell).cycle < d) : exec (.resultDue c f.tok) s = .next s := by
  rw [exec_resultDue_eq hf, Ctx.not_mayLand_of_early hd hl]
  rfl

/-! ## MODULO_PASS_END (08 R184, R191) -/

@[simp] theorem Ctx.str_eachStr (c : Ctx) (f : Stream → StreamState → StreamState) (st : Stream) :
    (c.eachStr f).str st = f st (c.str st) := by
  cases st <;> rfl

@[simp] theorem Ctx.forgetIterations_str (c : Ctx) (st : Stream) : c.forgetIterations.str st = c.str st := by
  cases st <;> rfl

theorem Ctx.passReady_of_passOver {x : Ctx} (h : x.passOver) (hr : x.rbNow = none) (hu : x.unheld) : x.passReady = true := by
  obtain ⟨ha, hp⟩ := h
  obtain ⟨hh, hc, hn⟩ := hu
  have hs := hp .s (by decide)
  have hv := hp .v (by decide)
  have hm := hp .m (by decide)
  have hx := hp .x (by decide)
  simp only [Ctx.str] at hs hv hm hx
  simp [Ctx.passReady, ha, hs, hv, hm, hx, hr, hc, hn, hh]

theorem moduloPassEnd_run {c : CtxRef} {s : State} (h : (s.ctx c).passReady = true) :
    exec (.moduloPassEnd c) s = .next (s.modCtx c Ctx.passEnds) := by
  rw [exec_moduloPassEnd, execModuloPassEnd, if_pos h]

theorem Ctx.nextPass_str (x : Ctx) (st : Stream) :
    x.nextPass.str st = { x.str st with lc0 := decLc (x.str st).lc0, pc := (x.str st).ls0, passEnd := false } := by
  cases st <;> rfl

theorem Ctx.restartRun_str (x : Ctx) (st : Stream) : x.restartRun.str st =
    { x.str st with lc0 := BitVec.ofNat 64 (x.liiN + x.liiStg), pc := (x.str st).ls0, passEnd := false } := by
  cases st <;> rfl

theorem Ctx.endModulo_str (x : Ctx) (st : Stream) : x.endModulo.str st =
    { loopBack1 { x.str st with lc0 := 0 } (x.str st).le0 with passEnd := false } := by
  cases st <;> rfl

@[simp] theorem loopBack1_lc0 (x : StreamState) (a : Word) : (loopBack1 x a).lc0 = x.lc0 := by
  unfold loopBack1
  split
  · split <;> rfl
  · rfl

theorem loopBack1_pc {x : StreamState} (h : x.lc1 = 0) (a : Word) : (loopBack1 x a).pc = a + 4 := by
  simp [loopBack1, h]

theorem Ctx.nextPass_liiPass (x : Ctx) : x.nextPass.liiPass = (x.liiPass + 1) % 2 ^ 24 := by
  have h : bits (setBits x.lii 16 24 (x.liiPass + 1)) 16 24 = (x.liiPass + 1) % 2 ^ 24 := bits_setBits_same _ _ (by omega)
  show bits (if _ then _ else _) 16 24 = _
  split
  · rw [bits_setBits_apart _ _ (by omega) (by omega), h]
  · exact h

theorem bits_nextLpw (w : Word) (b : Bool) : bits (nextLpw w b) 0 8 = (2 * bits w 0 8 + b.toNat) % 2 ^ 8 := by
  simp only [nextLpw, bits, bitsN, BitVec.toNat_ofNat]
  omega

theorem Ctx.restartRun_liiRestart (x : Ctx) : x.restartRun.liiRestart = false := by
  show bitOf (setBits (setBits (setBits x.lii 9 1 0) 10 1 _) 16 24 0) 9 = false
  rw [bitOf_setBits_apart _ _ (by omega) (by omega), bitOf_setBits_apart _ _ (by omega) (by omega),
    bitOf_setBits_same _ _ (by omega)]
  rfl

theorem Ctx.restartRun_liiPass (x : Ctx) : x.restartRun.liiPass = 0 := by
  show bits (setBits _ 16 24 0) 16 24 = 0
  exact bits_setBits_same _ 0 (by omega)

theorem Ctx.endModulo_liiAct (x : Ctx) : x.endModulo.liiAct = false := by
  show bitOf (setBits x.lii 8 1 0) 8 = false
  rw [bitOf_setBits_same _ _ (by omega)]
  rfl

/-! ## HALT_BUNDLE_RETIRE (02 R45) -/

/-- What each step of a fold keeps, the fold keeps. -/
theorem foldl_keeps {α σ β : Type} {f : σ → α → σ} {p : σ → β} (h : ∀ t a, p (f t a) = p t) (l : List α) (t : σ) :
    p (l.foldl f t) = p t := by
  induction l generalizing t with
  | nil => rfl
  | cons a l ih => rw [List.foldl_cons, ih, h]

theorem State.haltOut_ctxs (s : State) (r : CtxRef) : (s.haltOut r).ctxs = s.ctxs := by
  refine foldl_keeps (p := State.ctxs) (fun t sc => ?_) scopes s
  split
  · rfl
  · simp only
    split <;> rfl

/-- What a halted member tells the hubs changes no context. -/
theorem State.ctx_haltOut (s : State) (r d : CtxRef) : (s.haltOut r).ctx d = s.ctx d :=
  State.ctx_of_ctxs (s.haltOut_ctxs r) d

theorem haltBundleRetire_run {c : CtxRef} {s : State} (hh : (s.ctx c).halting = true) (hu : (s.ctx c).unheld)
    (ha : s.asyncBusy c = false) : exec (.haltBundleRetire c) s = .next ((s.modCtx c Ctx.finishHalt).haltOut c) := by
  obtain ⟨hf, hc, hn⟩ := hu
  rw [exec_haltBundleRetire, execHaltBundleRetire, if_pos]
  simp [hh, ha, Ctx.open_, Ctx.holdsOps, hf, hc, hn]

/-- A word of one stream in sequence, outside a handler and a modulo loop: the loop-back test alone moves its pc (08 R179). -/
theorem Ctx.retireSeq_eq {c : Ctx} (st : Stream) (hn : c.hnd = false) (ha : c.liiAct = false) : c.retireSeq st 1 =
    ({ c with atFence := false } : Ctx).setStr st (loopBack { c.str st with seq := (c.str st).seq + 1 } (c.str st).pc) := by
  have hn' : ({ c with atFence := false } : Ctx).hnd = false := hn
  have ha' : ({ c with atFence := false } : Ctx).liiAct = false := ha
  have hx : ({ c with atFence := false } : Ctx).str st = c.str st := by cases st <;> rfl
  simp [Ctx.retireSeq, hn', ha', hx]

/-- The four HALT words retire as one word of each stream. -/
theorem Ctx.finishHalt_str {x : Ctx} (st : Stream) (hn : x.hnd = false) (ha : x.liiAct = false) : x.finishHalt.str st =
    { loopBack { x.str st with seq := (x.str st).seq + 1 } (x.str st).pc with halted := true } := by
  have h1 := Ctx.retireSeq_eq .s hn ha
  have n1 : (x.retireSeq .s 1).hnd = false := by rw [h1]; exact hn
  have a1 : (x.retireSeq .s 1).liiAct = false := by rw [h1]; exact ha
  have h2 := Ctx.retireSeq_eq .v n1 a1
  have n2 : ((x.retireSeq .s 1).retireSeq .v 1).hnd = false := by rw [h2]; exact n1
  have a2 : ((x.retireSeq .s 1).retireSeq .v 1).liiAct = false := by rw [h2]; exact a1
  have h3 := Ctx.retireSeq_eq .m n2 a2
  have n3 : (((x.retireSeq .s 1).retireSeq .v 1).retireSeq .m 1).hnd = false := by rw [h3]; exact n2
  have a3 : (((x.retireSeq .s 1).retireSeq .v 1).retireSeq .m 1).liiAct = false := by rw [h3]; exact a2
  have h4 := Ctx.retireSeq_eq .x n3 a3
  unfold Ctx.finishHalt
  rw [h4, h3, h2, h1]
  cases st <;> rfl

theorem loopBack_seq (x : StreamState) (a : Word) : (loopBack x a).seq = x.seq := by
  have h1 : ∀ y : StreamState, (loopBack1 y a).seq = y.seq := fun y => by
    unfold loopBack1
    split
    · split <;> rfl
    · rfl
  unfold loopBack
  split
  · split
    · rfl
    · exact h1 _
  · exact h1 _

theorem loopBack_pc {x : StreamState} (h0 : x.lc0 = 0) (h1 : x.lc1 = 0) (a : Word) : (loopBack x a).pc = a + 4 := by
  simp [loopBack, h0, loopBack1_pc h1]

/-- Settles O41, from the case lemmas above. -/
theorem resultsPassesAndHalts : Obligations.ResultsPassesAndHalts := by
  unfold Obligations.ResultsPassesAndHalts
  refine ⟨fun c f v s hf => ⟨resultDue_lands hf, fun d => resultDue_early hf⟩, ?_, ?_⟩
  · intro c s x hp hr hu
    have hrun := moduloPassEnd_run (Ctx.passReady_of_passOver hp hr hu)
    refine ⟨fun hl => ⟨_, hrun, ?_⟩, fun hl hre => ⟨_, hrun, ?_⟩, fun hl hre => ⟨_, hrun, ?_⟩⟩
    · rw [State.ctx_modCtx_same, Ctx.passEnds, if_pos hl]
      refine ⟨x.nextPass_liiPass, bits_nextLpw _ _, fun st => ?_⟩
      rw [Ctx.nextPass_str]
      exact ⟨rfl, rfl, rfl⟩
    · rw [State.ctx_modCtx_same, Ctx.passEnds, if_neg (Nat.not_lt.mpr hl), if_pos hre]
      refine ⟨x.restartRun_liiRestart, x.restartRun_liiPass, rfl, fun st => ?_⟩
      rw [Ctx.restartRun_str]
      exact ⟨rfl, rfl, rfl⟩
    · rw [State.ctx_modCtx_same, Ctx.passEnds, if_neg (Nat.not_lt.mpr hl), if_neg (Bool.not_eq_true _ ▸ hre)]
      refine ⟨x.endModulo_liiAct, fun st => ?_⟩
      rw [Ctx.endModulo_str]
      exact ⟨loopBack1_lc0 _ _, rfl, fun h1 => loopBack1_pc (by exact h1) _⟩
  · intro c s x hh hu ha hl
    obtain ⟨-, -, hn⟩ := id hu
    refine ⟨_, haltBundleRetire_run hh hu ha, ?_⟩
    rw [State.ctx_haltOut, State.ctx_modCtx_same]
    refine ⟨rfl, rfl, rfl, fun st => ?_⟩
    rw [Ctx.finishHalt_str st hn hl]
    exact ⟨loopBack_seq _ _, fun h0 h1 => loopBack_pc (by exact h0) (by exact h1) _⟩

end Sys2Proof.Machine

/-!
SUPPORT. Transfers between packages, barrier tokens and links: what each of their steps leaves (02 R37 to R41, 16 R316 to R319, 27 R461,
R464, R465).
-/
namespace Sys2Proof.Machine

/-! ## Fields as parts of a word -/

/-- A field of a word is that part of the word. -/
theorem bits_eq_extractLsb' {n : Nat} (v : BitVec n) (lo w : Nat) : bits v lo w = (v.extractLsb' lo w).toNat := by
  simp [bits, bitsN, BitVec.extractLsb'_toNat, Nat.shiftRight_eq_div_pow]

/-- One bit of a word as a field. -/
theorem bitOf_eq_getLsbD {n : Nat} (v : BitVec n) (k : Nat) : bitOf v k = v.getLsbD k := by
  simp only [bitOf, bits, bitsN, BitVec.getLsbD, Nat.testBit_eq_decide_div_mod_eq]
  rfl

/-! ## MSG flits at a port (20 R367, 27 R464) -/

/-- The held class of a port is another than a flit's: the negation of `flitFree`, as the model tests it. -/
theorem State.waits_any_eq_false {s : State} {n : Nat} {k : MsgKind} (h : s.flitFree n k) :
    ((s.port n).waits.any fun w => w != k) = false := by
  cases hw : (s.port n).waits with
  | none => rfl
  | some w => simpa using h w hw

theorem State.waits_any_eq_true {s : State} {n : Nat} {k : MsgKind} (h : ¬s.flitFree n k) :
    ((s.port n).waits.any fun w => w != k) = true := by
  obtain ⟨w, h⟩ := Classical.not_forall.mp h
  obtain ⟨hw, hk⟩ := Classical.not_imp.mp h
  simp [hw, hk]

theorem State.msgComes_enters {s : State} {n : Nat} {k : MsgKind} (t : State) (h : s.flitFree n k) :
    s.msgComes n k false t = t.portWaits n none := by
  simp [State.msgComes, State.waits_any_eq_false h]

theorem State.msgComes_full {s : State} {n : Nat} {k : MsgKind} (t : State) (h : s.flitFree n k) :
    s.msgComes n k true t = s.portWaits n (some k) := by
  simp [State.msgComes, State.waits_any_eq_false h]

theorem State.msgComes_held {s : State} {n : Nat} {k : MsgKind} (b : Bool) (t : State) (h : ¬s.flitFree n k) :
    s.msgComes n k b t = s := by
  simp [State.msgComes, State.waits_any_eq_true h]

/-! ## XPEER_ARRIVAL (16 R316, 20 R366) -/

theorem transferOk_iff (t : PeerTransfer) : transferOk t = true ↔ t.lands := by
  simp [transferOk, PeerTransfer.lands, and_assoc]

theorem State.peerInOrder_iff (s : State) (t : PeerTransfer) : s.peerInOrder t = true ↔ t.inTurn s := by
  simp only [State.peerInOrder, PeerTransfer.inTurn, List.all_eq_true, Bool.or_eq_true, bne_iff_ne, decide_eq_true_eq]
  exact forall₂_congr fun p _ => (Decidable.imp_iff_not_or).symm

theorem xpeerArrival_lands {t : PeerTransfer} {s : State} (hl : t.lands) (ht : t.inTurn s) : exec (.xpeerArrival t) s =
    .next (s.msgComes t.port .peer (decide (64 ≤ s.hub.peerQ.length)) (s.peerEnters t)) := by
  rw [exec_xpeerArrival, execXpeerArrival, (transferOk_iff t).mpr hl, (s.peerInOrder_iff t).mpr ht]
  rfl

theorem xpeerArrival_room {t : PeerTransfer} {s : State} (hl : t.lands) (ht : t.inTurn s) (hf : s.flitFree t.port .peer)
    (hq : s.hub.peerQ.length < 64) : exec (.xpeerArrival t) s = .next ((s.peerEnters t).portWaits t.port none) := by
  rw [xpeerArrival_lands hl ht, decide_eq_false (Nat.not_le.mpr hq), State.msgComes_enters _ hf]

theorem xpeerArrival_full {t : PeerTransfer} {s : State} (hl : t.lands) (ht : t.inTurn s) (hf : s.flitFree t.port .peer)
    (hq : 64 ≤ s.hub.peerQ.length) : exec (.xpeerArrival t) s = .next (s.portWaits t.port (some .peer)) := by
  rw [xpeerArrival_lands hl ht, decide_eq_true hq, State.msgComes_full _ hf]

theorem xpeerArrival_nothing {t : PeerTransfer} {s : State} (h : ¬t.lands ∨ ¬t.inTurn s ∨ ¬s.flitFree t.port .peer) :
    exec (.xpeerArrival t) s = .next s := by
  by_cases hl : t.lands
  · by_cases ht : t.inTurn s
    · have hf : ¬s.flitFree t.port .peer := (h.resolve_left (not_not_intro hl)).resolve_left (not_not_intro ht)
      rw [xpeerArrival_lands hl ht, State.msgComes_held _ _ hf]
    · have h2 : s.peerInOrder t = false := by rw [← Bool.not_eq_true, State.peerInOrder_iff]; exact ht
      simp [execXpeerArrival, h2]
  · have h1 : transferOk t = false := by rw [← Bool.not_eq_true, transferOk_iff]; exact hl
    simp [execXpeerArrival, h1]

/-! ## The grant table (16 R317 to R319) -/

theorem State.peerArrives_granted {s : State} {pkg cell space off : Nat} {l : List (Byte × Bool)} {e : BitVec 128}
    (h : s.grantOf pkg cell space off l.length = some e) :
    s.peerArrives pkg cell space off l = ((s.peerWrite cell space off l).ringBox cell (bits e 72 6), true) := by
  rw [State.peerArrives, h]

theorem State.peerArrives_refused {s : State} {pkg cell space off : Nat} {l : List (Byte × Bool)}
    (h : s.grantOf pkg cell space off l.length = none) :
    s.peerArrives pkg cell space off l = (s.modCounts fun n => { n with grantDrops := satAdd32 n.grantDrops 1 }, false) := by
  rw [State.peerArrives, h]

/-- The answer of the hub to the sender's package. -/
def State.toldGrant (s : State) (pkg : Nat) (ok : Bool) : State :=
  s.modReplies fun q => { q with grants := q.grants ++ [(pkg, ok)] }

/-- The transfer at the head of the inbound peer queue meets the grant table. -/
theorem State.servePeers_one {s : State} {t : PeerTransfer} {r : List PeerTransfer} (hq : s.hub.peerQ = t :: r)
    (hb : s.boxOpen t.cell = true) :
    s.servePeers 1 =
      let v := (s.modHub fun h => { h with peerQ := r }).peerArrives t.srcPkg t.cell t.space.toNat t.off t.bytes
      v.1.toldGrant t.srcPkg v.2 := by
  unfold State.servePeers
  rw [hq]
  simp only [hb]
  rfl

theorem transferBytes_length (t : PeerTransfer) : t.bytes.length = t.data.length := by
  simp [PeerTransfer.bytes]

theorem State.servePeers_granted {s : State} {t : PeerTransfer} {r : List PeerTransfer} {e : BitVec 128}
    (hq : s.hub.peerQ = t :: r) (hb : s.boxOpen t.cell = true)
    (he : s.grantOf t.srcPkg t.cell t.space.toNat t.off t.data.length = some e) :
    s.servePeers 1 = ((((s.modHub fun h => { h with peerQ := r }).peerWrite t.cell t.space.toNat t.off t.bytes).ringBox t.cell
      (bits e 72 6)).toldGrant t.srcPkg true) := by
  have he' : (s.modHub fun h => { h with peerQ := r }).grantOf t.srcPkg t.cell t.space.toNat t.off t.bytes.length = some e := by
    rw [transferBytes_length]
    exact he
  simp only [State.servePeers_one hq hb, State.peerArrives_granted he']

theorem State.servePeers_refused {s : State} {t : PeerTransfer} {r : List PeerTransfer}
    (hq : s.hub.peerQ = t :: r) (hb : s.boxOpen t.cell = true)
    (he : s.grantOf t.srcPkg t.cell t.space.toNat t.off t.data.length = none) :
    s.servePeers 1 = (((s.modHub fun h => { h with peerQ := r }).modCounts fun n =>
      { n with grantDrops := satAdd32 n.grantDrops 1 }).toldGrant t.srcPkg false) := by
  have he' : (s.modHub fun h => { h with peerQ := r }).grantOf t.srcPkg t.cell t.space.toNat t.off t.bytes.length = none := by
    rw [transferBytes_length]
    exact he
  simp only [State.servePeers_one hq hb, State.peerArrives_refused he']

/-! ## XPEER_ACKNOWLEDGE (16 R316, R318) -/

/-- An XPEER at its turn: every row has been read, no fault has stopped it, and no older one to the cell waits. -/
structure PeerTurn (s : State) (c : CtxRef) (o : EngineOp) (m : Word) (src : Seg) : Prop where
  op      : (s.ctx c).op o.id = some o
  kind    : o.kind = .peer m src
  awaits  : o.awaitsPeer = true
  pending : o.pending = none
  first   : (s.ctx c).peerWaits o m = false

theorem xpeerAcknowledge_away {s : State} {c : CtxRef} {o : EngineOp} {m : Word} {src : Seg} (h : PeerTurn s c o m src)
    (hp : memberPkg m ≠ s.cfg.package) (ok : Bool) : exec (.xpeerAcknowledge c o.id ok) s =
      .next ((if ok then s else s.modCtx c fun x => x.dropped 0 o.id).xDone c o) := by
  simp only [exec_xpeerAcknowledge, execXpeerAcknowledge, h.op, h.kind, h.awaits, h.pending, h.first]
  simp [hp]

/-- Within the package the transfer meets the grant table. -/
theorem xpeerAcknowledge_here {s : State} {c : CtxRef} {o : EngineOp} {m : Word} {src : Seg} (h : PeerTurn s c o m src)
    (hp : memberPkg m = s.cfg.package) (hb : s.boxOpen (memberCell m) = true) (ok : Bool) : exec (.xpeerAcknowledge c o.id ok) s =
      let v := s.peerArrives (memberPkg m) (memberCell m) (memberSpace m) (memberOff m)
        ((List.range src.len).map fun k => Table.get o.buf (0, false) k)
      .next ((if v.2 then v.1 else v.1.modCtx c fun x => x.dropped 0 o.id).xDone c o) := by
  simp only [exec_xpeerAcknowledge, execXpeerAcknowledge, h.op, h.kind, h.awaits, h.pending, h.first, hb]
  simp [hp]

/-! ## BARRIER_TOKEN_ARRIVAL (02 R37 to R41) -/

theorem barrierTokenArrival_eq {tok : BarrierToken} (s : State) (h : tok.port < 8) : exec (.barrierTokenArrival tok) s =
    .next (s.msgComes tok.port .token (decide (512 ≤ s.hub.tokens.length)) (s.tokenActs tok)) := by
  rw [exec_barrierTokenArrival, execBarrierTokenArrival, if_neg (Nat.not_le.mpr h)]

theorem barrierTokenArrival_nothing {tok : BarrierToken} {s : State} (h : 8 ≤ tok.port ∨ ¬s.flitFree tok.port .token) :
    exec (.barrierTokenArrival tok) s = .next s := by
  by_cases hp : 8 ≤ tok.port
  · rw [exec_barrierTokenArrival, execBarrierTokenArrival, if_pos hp]
  · rw [barrierTokenArrival_eq s (Nat.not_le.mp hp), State.msgComes_held _ _ (h.resolve_left hp)]

theorem barrierTokenArrival_full {tok : BarrierToken} {s : State} (hp : tok.port < 8) (hf : s.flitFree tok.port .token)
    (hq : 512 ≤ s.hub.tokens.length) : exec (.barrierTokenArrival tok) s = .next (s.portWaits tok.port (some .token)) := by
  rw [barrierTokenArrival_eq s hp, decide_eq_true hq, State.msgComes_full _ hf]

theorem barrierTokenArrival_room {tok : BarrierToken} {s : State} (hp : tok.port < 8) (hf : s.flitFree tok.port .token)
    (hq : s.hub.tokens.length < 512) : exec (.barrierTokenArrival tok) s = .next ((s.tokenActs tok).portWaits tok.port none) := by
  rw [barrierTokenArrival_eq s hp, decide_eq_false (Nat.not_le.mpr hq), State.msgComes_enters _ hf]

theorem State.tokenActs_transfer_known {s : State} {tok : BarrierToken} {x : MemberTransfer} {d : DomRec} (hc : tok.cargo = .transfer x)
    (hd : s.domRec tok.part tok.dom.toNat = some d) :
    s.tokenActs tok = s.modHub fun h => { h with posted := h.posted ++ [postedOf tok x] } := by
  rw [State.tokenActs, hc]
  simp only [State.transferIn, hd]
  rfl

theorem State.tokenActs_transfer_unknown {s : State} {tok : BarrierToken} {x : MemberTransfer} (hc : tok.cargo = .transfer x)
    (hd : s.domRec tok.part tok.dom.toNat = none) :
    s.tokenActs tok = s.dropTransfer tok.part tok.dom.toNat (postedOf tok x) false := by
  rw [State.tokenActs, hc]
  simp only [State.transferIn, hd]
  rfl

/-! ## FLIT_RETRY (27 R465) -/

theorem flitRetry_eq {f : FlitEvent} (s : State) (h : f.port < 8) : exec (.flitRetry f) s =
    .next (if 8 < f.tries then (s.flitCounted f).flitLost f.cargo else s.flitCounted f) := by
  rw [exec_flitRetry, execFlitRetry]
  simp only [if_neg (Nat.not_le.mpr h)]
  rfl

theorem flitRetry_good {f : FlitEvent} {s : State} (h : f.port < 8) (ht : f.tries ≤ 8) :
    exec (.flitRetry f) s = .next (s.flitCounted f) := by
  rw [flitRetry_eq s h, if_neg (Nat.not_lt.mpr ht)]

theorem flitRetry_lost {f : FlitEvent} {s : State} (h : f.port < 8) (ht : 8 < f.tries) :
    exec (.flitRetry f) s = .next ((s.flitCounted f).flitLost f.cargo) := by
  rw [flitRetry_eq s h, if_pos ht]

/-! ## GRANT_TABLE_LOAD (16 R317) -/

/-- An entry of the table that is loaded clears the letterboxes of its cell. -/
def State.clearsBox (s : State) (e : BitVec 128) : State :=
  if bits e 71 1 = 1 then s.modCell (bits e 80 8) fun l => { l with letters := [] } else s

/-- A letterbox that is clear stays clear. -/
theorem State.clearsBox_keeps {s : State} {n : Nat} (e : BitVec 128) (h : (s.cell n).letters = []) :
    ((s.clearsBox e).cell n).letters = [] := by
  unfold State.clearsBox
  split
  · by_cases hn : n = bits e 80 8
    · rw [hn, State.cell_modCell_same]
    · rw [State.cell_modCell_ne _ _ hn, h]
  · exact h

theorem State.clearsBox_clears {s : State} {e : BitVec 128} (h : bits e 71 1 = 1) :
    ((s.clearsBox e).cell (bits e 80 8)).letters = [] := by
  rw [State.clearsBox, if_pos h, State.cell_modCell_same]

theorem State.clearBoxes_keeps {n : Nat} (es : List (BitVec 128)) {s : State} (h : (s.cell n).letters = []) :
    ((es.foldl State.clearsBox s).cell n).letters = [] := by
  induction es generalizing s with
  | nil => exact h
  | cons e es ih => exact ih (State.clearsBox_keeps e h)

theorem State.clearBoxes_clears {es : List (BitVec 128)} {e : BitVec 128} (he : e ∈ es) (hv : bits e 71 1 = 1) (s : State) :
    ((es.foldl State.clearsBox s).cell (bits e 80 8)).letters = [] := by
  induction es generalizing s with
  | nil => cases he
  | cons x es ih =>
    rcases List.mem_cons.mp he with rfl | h
    · exact State.clearBoxes_keeps es (State.clearsBox_clears hv)
    · exact ih h _

theorem State.clearBoxes_hub (es : List (BitVec 128)) (s : State) : (es.foldl State.clearsBox s).hub = s.hub :=
  foldl_keeps (p := State.hub) (fun t e => by unfold State.clearsBox; split <;> rfl) es s

/-- A table of good entries is taken as it is. -/
theorem grantTableLoad_run {es : List (BitVec 128)} {s : State} (hf : s.firmwareRuns = true) (hn : es.length ≤ 4096)
    (hz : ∀ e ∈ es, e.extractLsb' 54 17 = 0) : exec (.grantTableLoad es) s =
      .next (es.foldl State.clearsBox (s.modHub fun h => { h with grants := (List.range es.length).zip es })) := by
  have hid : (es.take 4096).map (fun e => if bits e 54 17 = 0 then e else BitVec.ofNat 128 (putBits (putBits e.toNat 54 17 0) 71 1 0))
      = es := by
    rw [List.take_of_length_le hn]
    refine (List.map_congr_left fun e he => ?_).trans (List.map_id es)
    rw [if_pos (by rw [bits_eq_extractLsb', hz e he]; rfl)]
    rfl
  rw [exec_grantTableLoad, execGrantTableLoad]
  simp only [hid, State.byFirmware, hf, if_true]
  rfl

/-- Settles O45, from the lemmas of each step. -/
theorem transferAndLinkSteps : Obligations.TransferAndLinkSteps := by
  unfold Obligations.TransferAndLinkSteps
  refine ⟨?_, ?_, ?_, ?_, ?_, ?_, ?_, ?_⟩
  · exact fun t s => ⟨fun hl ht hf => ⟨xpeerArrival_room hl ht hf, xpeerArrival_full hl ht hf⟩, xpeerArrival_nothing⟩
  · exact fun t r s hq hb => ⟨fun e he => State.servePeers_granted hq hb he, State.servePeers_refused hq hb⟩
  · intro c o m src s h1 h2 h3 h4 h5 hp
    have h : PeerTurn s c o m src := ⟨h1, h2, h3, h4, h5⟩
    exact ⟨xpeerAcknowledge_away h hp true, xpeerAcknowledge_away h hp false⟩
  · intro c o m src ok s h1 h2 h3 h4 h5 hp hb l
    have h := xpeerAcknowledge_here ⟨h1, h2, h3, h4, h5⟩ hp hb ok
    have hl : l.length = src.len := by simp [l]
    refine ⟨fun e he => ?_, fun he => ?_⟩
    · rw [h, State.peerArrives_granted (by rw [hl]; exact he)]
      rfl
    · rw [h, State.peerArrives_refused (by rw [hl]; exact he)]
      rfl
  · refine fun tok s => ⟨barrierTokenArrival_nothing, barrierTokenArrival_full, fun hp hf hq => ?_⟩
    have h := barrierTokenArrival_room hp hf hq
    refine ⟨fun n hc => ?_, fun c rank halted hc => ?_, fun x d hc hd => ?_, fun x hc hd => ?_, fun c on hc => ?_⟩
    · rw [h, State.tokenActs, hc]
    · rw [h, State.tokenActs, hc]
    · rw [h, State.tokenActs_transfer_known hc hd]
    · rw [h, State.tokenActs_transfer_unknown hc hd]
    · rw [h, State.tokenActs, hc]
  · refine fun f s hp => ⟨flitRetry_good hp, fun ht => ?_⟩
    have h := flitRetry_lost (s := s) hp ht
    refine ⟨fun hc => ?_, fun a hc ha hh => ?_, fun c o hc ho hw => ?_⟩
    · rcases hc with hc | hc <;> rw [h, hc] <;> rfl
    · have ha' : (s.flitCounted f).findAcc a.id = some a := ha
      rw [h, hc]
      simp only [State.flitLost, ha', hh]
      rfl
    · have ho' : ((s.flitCounted f).ctx c).op o.id = some o := ho
      rw [h, hc]
      simp only [State.flitLost, ho', hw]
      rfl
  · intro port up s hp
    rw [exec_giuthPortTraining, execGiuthPortTraining, if_neg (Nat.not_le.mpr hp)]
  · intro es s hf hn hz
    refine ⟨_, grantTableLoad_run hf hn hz, ?_, fun e he hv => ?_⟩
    · rw [State.clearBoxes_hub]
      rfl
    · have hv' : bits e 71 1 = 1 := by
        have := bitOf_eq_getLsbD e 71
        rwa [hv, bitOf, beq_iff_eq] at this
      have h := State.clearBoxes_clears he hv' (s.modHub fun h => { h with grants := (List.range es.length).zip es })
      rwa [bits_eq_extractLsb'] at h

end Sys2Proof.Machine

/-!
SUPPORT. A context where it stands, and what a barrier reads: which updates of the state leave them (02 R36 to R41, 27 R471).
-/
namespace Sys2Proof.Machine

/-! ## Contexts where they stand (27 R471) -/

theorem Image.bank_modBank_same (i : Image) (k : Bank) (f : Ctx → Ctx) : (i.modBank k f).bank k = f (i.bank k) := by
  cases k <;> rfl

theorem Image.bank_modBank_ne (i : Image) {j k : Bank} (f : Ctx → Ctx) (h : j ≠ k) : (i.modBank k f).bank j = i.bank j := by
  cases k with
  | a => cases j with
    | a => exact absurd rfl h
    | b => rfl
  | b => cases j with
    | a => rfl
    | b => exact absurd rfl h

theorem Image.modBank_power (i : Image) (k : Bank) (f : Ctx → Ctx) : (i.modBank k f).power = i.power := by
  cases k <;> rfl

/-- A cell that is parked for power holds an image. -/
theorem Cell.gated_iff (l : Cell) : l.gated = true ↔ ∃ i, l.shadow = some i ∧ i.power = true := by
  rw [Cell.gated, Option.any_eq_true_iff_get]
  constructor
  · rintro ⟨h, hp⟩
    exact ⟨_, (Option.some_get h).symm, hp⟩
  · rintro ⟨i, hi, hp⟩
    simp [hi, hp]

theorem State.ctxAt_gated {s : State} {c : CtxRef} {i : Image} (hi : (s.cell c.cell).shadow = some i) (hp : i.power = true) :
    s.ctxAt c = i.bank c.bank := by
  have hg : (s.cell c.cell).gated = true := (Cell.gated_iff _).mpr ⟨i, hi, hp⟩
  simp [State.ctxAt, hg, State.parkedCtx, hi]

theorem State.ctxAt_awake {s : State} {c : CtxRef} (h : (s.cell c.cell).gated = false) : s.ctxAt c = s.ctx c := by
  simp [State.ctxAt, h]

/-- A context stands in the table of contexts or in the image of its cell, and nowhere else. -/
theorem State.ctxAt_congr {s t : State} {c : CtxRef} (hc : t.ctx c = s.ctx c) (hs : (t.cell c.cell).shadow = (s.cell c.cell).shadow) :
    t.ctxAt c = s.ctxAt c := by
  unfold State.ctxAt Cell.gated State.parkedCtx
  rw [hc, hs]

theorem State.modParked_shadow {s : State} {c : CtxRef} {f : Ctx → Ctx} {i : Image} (hi : (s.cell c.cell).shadow = some i) :
    ((s.modParked c f).cell c.cell).shadow = some (i.modBank c.bank f) := by
  simp [State.modParked, hi]

@[simp] theorem State.ctxAt_modAt_same (s : State) (c : CtxRef) (f : Ctx → Ctx) : (s.modAt c f).ctxAt c = f (s.ctxAt c) := by
  unfold State.modAt
  split
  · next h =>
    obtain ⟨i, hi, hp⟩ := (Cell.gated_iff _).mp h
    rw [State.ctxAt_gated (State.modParked_shadow hi) (by rw [Image.modBank_power, hp]), State.ctxAt_gated hi hp,
      Image.bank_modBank_same]
  · next h =>
    have hg : (s.cell c.cell).gated = false := Bool.not_eq_true _ ▸ h
    rw [State.ctxAt_awake (s := s.modCtx c f) hg, State.ctxAt_awake hg, State.ctx_modCtx_same]

theorem State.ctxAt_modAt_ne (s : State) {c d : CtxRef} (f : Ctx → Ctx) (h : d ≠ c) : (s.modAt c f).ctxAt d = s.ctxAt d := by
  unfold State.modAt
  split
  · next hg =>
    obtain ⟨i, hi, hp⟩ := (Cell.gated_iff _).mp hg
    by_cases hc : d.cell = c.cell
    · have hb : d.bank ≠ c.bank := fun e => h (by cases c; cases d; simp_all)
      have hd : ((s.modParked c f).cell d.cell).shadow = some (i.modBank c.bank f) := by rw [hc]; exact State.modParked_shadow hi
      rw [State.ctxAt_gated hd (by rw [Image.modBank_power, hp]), State.ctxAt_gated (hc ▸ hi) hp, Image.bank_modBank_ne _ _ hb]
    · exact State.ctxAt_congr rfl (by rw [State.modParked, State.cell_modCell_ne _ _ hc])
  · exact State.ctxAt_congr (State.ctx_modCtx_ne _ _ h) rfl

@[simp] theorem State.modAt_hub (s : State) (c : CtxRef) (f : Ctx → Ctx) : (s.modAt c f).hub = s.hub := by
  unfold State.modAt
  split <;> rfl

@[simp] theorem State.ctxAt_modHub (s : State) (f : Hub → Hub) (c : CtxRef) : (s.modHub f).ctxAt c = s.ctxAt c := rfl

/-! ## What a barrier reads -/

/-- What the hub holds for the supersteps of its domains. -/
def Hub.supersteps (h : Hub) : List Posted × List BarrierToken × List DomRec := (h.posted, h.tokens, h.domains)

/-- The same contexts, where they stand, and the same transfers, tokens and domains in the hub. -/
structure SameBarriers (s t : State) : Prop where
  ctxs   : t.ctxs = s.ctxs
  shadow : ∀ n, (t.cell n).shadow = (s.cell n).shadow
  hub    : t.hub.supersteps = s.hub.supersteps

theorem SameBarriers.refl (s : State) : SameBarriers s s := ⟨rfl, fun _ => rfl, rfl⟩

theorem SameBarriers.trans {s t u : State} (h : SameBarriers s t) (h' : SameBarriers t u) : SameBarriers s u :=
  ⟨h'.ctxs.trans h.ctxs, fun n => (h'.shadow n).trans (h.shadow n), h'.hub.trans h.hub⟩

theorem SameBarriers.ctxAt {s t : State} (h : SameBarriers s t) (c : CtxRef) : t.ctxAt c = s.ctxAt c :=
  State.ctxAt_congr (State.ctx_of_ctxs h.ctxs c) (h.shadow _)

theorem SameBarriers.modCell (s : State) (n : Nat) {f : Cell → Cell} (hf : ∀ l, (f l).shadow = l.shadow) :
    SameBarriers s (s.modCell n f) := by
  refine ⟨rfl, fun m => ?_, rfl⟩
  by_cases h : m = n
  · rw [h, State.cell_modCell_same, hf]
  · rw [State.cell_modCell_ne _ _ h]

theorem SameBarriers.modCounts (s : State) (f : PkgCounts → PkgCounts) : SameBarriers s (s.modCounts f) := ⟨rfl, fun _ => rfl, rfl⟩

theorem SameBarriers.poisonUnit (s : State) (m : MemRef) (u : Nat) : SameBarriers s (s.poisonUnit m u) := by
  cases m with
  | hbm => exact ⟨rfl, fun _ => rfl, rfl⟩
  | ss d => exact ⟨rfl, fun _ => rfl, rfl⟩
  | shadow n => exact SameBarriers.refl s
  | hub => exact SameBarriers.refl s
  | plane n one =>
    unfold State.poisonUnit
    exact SameBarriers.modCell s n fun l => by cases one <;> rfl
  | _ n =>
    unfold State.poisonUnit
    exact SameBarriers.modCell s n fun _ => rfl

theorem SameBarriers.countCorr (s : State) (n : Nat) : SameBarriers s (s.countCorr n) :=
  SameBarriers.modCell s n (f := Cell.countCorr) fun _ => rfl

theorem SameBarriers.chargeCell (s : State) (n : Nat) : SameBarriers s (s.chargeCell n) :=
  SameBarriers.modCell s n (f := fun l => (l.suspect 1).countCorr) fun _ => rfl

theorem SameBarriers.errorFound (s : State) (reader : Option Nat) (u : Upset) : SameBarriers s (s.errorFound reader u) := by
  obtain ⟨m, unit, double⟩ := u
  cases double with
  | true =>
    have h := SameBarriers.poisonUnit s m unit
    exact ⟨h.ctxs, h.shadow, h.hub⟩
  | false =>
    cases m with
    | hbm => exact ⟨rfl, fun _ => rfl, rfl⟩
    | hub => exact ⟨rfl, fun _ => rfl, rfl⟩
    | shadow n => exact SameBarriers.countCorr s n
    | ss d =>
      cases reader with
      | none => exact SameBarriers.refl s
      | some n => exact SameBarriers.chargeCell s n
    | _ n => exact SameBarriers.chargeCell s n

theorem SameBarriers.eccRead (s : State) (m : MemRef) (a n : Nat) (reader : Option Nat) : SameBarriers s (s.eccRead m a n reader) :=
  State.eccRead_keeps (SameBarriers s) (fun _ _ h => ⟨h.ctxs, h.shadow, h.hub⟩)
    (fun t r u h => h.trans (SameBarriers.errorFound t r u)) s m a n reader (SameBarriers.refl s)

theorem SameBarriers.findsAt (s : State) (cell : Nat) (l : List (MemRef × Nat × Nat)) : SameBarriers s (s.findsAt cell l) := by
  unfold State.findsAt
  induction l generalizing s with
  | nil => exact SameBarriers.refl s
  | cons r l ih => exact (SameBarriers.eccRead s _ _ _ _).trans (ih _)

theorem SameBarriers.bufWrite (s : State) (c : CtxRef) (sp : Space) (a : Nat) (ws : List (Option (Byte × Bool))) :
    SameBarriers s (s.bufWrite c sp a ws) := by
  unfold State.bufWrite State.modBuffer
  cases sp with
  | ss => exact ⟨rfl, fun _ => rfl, rfl⟩
  | vm => exact ⟨rfl, fun _ => rfl, rfl⟩
  | _ =>
    exact SameBarriers.modCell s _ fun _ => rfl

/-! ## The communication phase (02 R38, R39) -/

/-- What a context holds of its barrier: it waits, it has arrived, it has been released, and its domain registers. -/
def Ctx.arrival (x : Ctx) : Option DomScope × Bool × Bool × (DomScope → Word) := (x.barrier, x.arrived, x.released, x.dom)

theorem Ctx.arrivedAt_congr {x y : Ctx} (h : y.arrival = x.arrival) (d : Nat) : y.arrivedAt d = x.arrivedAt d := by
  simp only [Ctx.arrival, Prod.mk.injEq] at h
  obtain ⟨hb, ha, -, hd⟩ := h
  simp only [Ctx.arrivedAt, hb, ha, hd]

theorem Ctx.setCounted_arrival (x : Ctx) (n : Nat) (v : Word) : (x.setCounted n v).arrival = x.arrival := by
  unfold Ctx.setCounted
  split <;> rfl

theorem Ctx.change_arrival (x : Ctx) (n rank : Nat) (k : CsrChange) : (x.change n rank k).arrival = x.arrival := by
  unfold Ctx.change
  split
  · exact Ctx.setCounted_arrival _ _ _
  · exact Ctx.setCounted_arrival _ _ _

/-- A transfer that is dropped is noted in `XERR` alone. -/
theorem Ctx.dropped_arrival (x : Ctx) (flag rank : Nat) : (x.dropped flag rank).arrival = x.arrival := by
  rw [Ctx.dropped, Ctx.change_arrival, Ctx.change_arrival]

/-- A change of one context that leaves what it holds of its barrier leaves that of every context. -/
theorem State.modAt_arrival (s : State) (c d : CtxRef) {f : Ctx → Ctx} (hf : ∀ x, (f x).arrival = x.arrival) :
    ((s.modAt c f).ctxAt d).arrival = (s.ctxAt d).arrival := by
  by_cases h : d = c
  · rw [h, State.ctxAt_modAt_same, hf]
  · rw [State.ctxAt_modAt_ne _ _ h]

theorem State.dropTransfer_arrival (s : State) (part dom : Nat) (p : Posted) (halted : Bool) (d : CtxRef) :
    ((s.dropTransfer part dom p halted).ctxAt d).arrival = (s.ctxAt d).arrival := by
  unfold State.dropTransfer
  split
  · exact State.modAt_arrival _ _ _ fun x => x.dropped_arrival _ _
  · rfl

theorem State.dropTransfer_supersteps (s : State) (part dom : Nat) (p : Posted) (halted : Bool) :
    (s.dropTransfer part dom p halted).hub.supersteps = s.hub.supersteps := by
  unfold State.dropTransfer
  split
  · rw [State.modAt_hub]
    rfl
  · rfl

/-- One transfer is dropped, or it is written, which no barrier reads. -/
theorem State.deliver_cases (s : State) (part dom : Nat) (p : Posted) :
    (∃ h, s.deliver part dom p = s.dropTransfer part dom p h) ∨ SameBarriers s (s.deliver part dom p) := by
  unfold State.deliver
  simp only
  split
  · exact .inl ⟨false, rfl⟩
  · split
    · exact .inl ⟨true, rfl⟩
    · right
      split
      · exact SameBarriers.bufWrite _ _ _ _ _
      · exact ((SameBarriers.findsAt s _ _).trans (SameBarriers.modCounts _ _)).trans (SameBarriers.bufWrite _ _ _ _ _)

theorem State.deliver_arrival (s : State) (part dom : Nat) (p : Posted) (d : CtxRef) :
    ((s.deliver part dom p).ctxAt d).arrival = (s.ctxAt d).arrival := by
  rcases s.deliver_cases part dom p with ⟨h, e⟩ | h
  · rw [e, State.dropTransfer_arrival]
  · rw [h.ctxAt]

theorem State.deliver_supersteps (s : State) (part dom : Nat) (p : Posted) :
    (s.deliver part dom p).hub.supersteps = s.hub.supersteps := by
  rcases s.deliver_cases part dom p with ⟨h, e⟩ | h
  · rw [e, State.dropTransfer_supersteps]
  · exact h.hub

end Sys2Proof.Machine

/-!
SUPPORT. Barriers and the domain table: what a release and a write of a domain register leave (02 R34 to R41, 21 R381).
-/
namespace Sys2Proof.Machine

/-! ## BARRIER_RELEASE (02 R37 to R41, 18 R359) -/

/-- A member hears of the release, and its cell's read cache goes. -/
def State.releases (s : State) (d : Nat) (c : CtxRef) : State :=
  (s.modAt c fun x => x.release d).dropLines c.cell fun _ => true

/-- The transfers and tokens of the superstep go, and the domain goes on to the next. -/
def State.stepOver (s : State) (part d step : Nat) (due : List Posted) : State := s.modHub fun h => { h with
  posted := h.posted.filter fun p => !due.contains p
  tokens := h.tokens.filter fun t => !tokenOf part d step t
  domains := h.domains.map fun x => if x.part == part && x.id == d then { x with step := x.step + 1 } else x }

/-- The communication phase. -/
def State.deliverAll (s : State) (part d : Nat) (due : List Posted) : State := due.foldl (fun s p => s.deliver part d p) s

theorem barrierRelease_full {s : State} {part : Nat} {dom : BitVec 32} (h : s.barrierFull part dom.toNat = true) :
    exec (.barrierRelease part dom) s = .next ((s.membersOf part dom.toNat).foldl (fun s c => s.releases dom.toNat c)
      ((s.deliverAll part dom.toNat (s.dueTransfers part dom.toNat)).stepOver part dom.toNat (s.domStep part dom.toNat)
        (s.dueTransfers part dom.toNat))) := by
  rw [exec_barrierRelease, execBarrierRelease]
  simp only [h]
  rfl

theorem barrierRelease_early {s : State} {part : Nat} {dom : BitVec 32} (h : s.barrierFull part dom.toNat = false) :
    exec (.barrierRelease part dom) s = .next s := by
  rw [exec_barrierRelease, execBarrierRelease]
  simp only [h]
  rfl

theorem State.deliverAll_supersteps (s : State) (part d : Nat) (due : List Posted) :
    (s.deliverAll part d due).hub.supersteps = s.hub.supersteps :=
  foldl_keeps (p := fun t : State => t.hub.supersteps) (fun t p => t.deliver_supersteps part d p) due s

theorem State.deliverAll_arrival (s : State) (part d : Nat) (due : List Posted) (c : CtxRef) :
    ((s.deliverAll part d due).ctxAt c).arrival = (s.ctxAt c).arrival :=
  foldl_keeps (p := fun t : State => (t.ctxAt c).arrival) (fun t p => t.deliver_arrival part d p c) due s

theorem State.ctxAt_dropLines (s : State) (n : Nat) (p : CacheLine → Bool) (c : CtxRef) : (s.dropLines n p).ctxAt c = s.ctxAt c :=
  SameBarriers.ctxAt (SameBarriers.modCell s n (f := fun l => { l with cache := l.cache.filter fun x => !p x }) fun _ => rfl) c

theorem State.releases_hub (s : State) (d : Nat) (c : CtxRef) : (s.releases d c).hub = s.hub := s.modAt_hub c _

theorem State.releaseAll_hub (s : State) (d : Nat) (ms : List CtxRef) : (ms.foldl (fun s c => s.releases d c) s).hub = s.hub :=
  foldl_keeps (p := State.hub) (fun t c => t.releases_hub d c) ms s

theorem State.ctxAt_releases_same (s : State) (d : Nat) (c : CtxRef) : (s.releases d c).ctxAt c = (s.ctxAt c).release d := by
  rw [State.releases, State.ctxAt_dropLines, State.ctxAt_modAt_same]

theorem State.ctxAt_releases_ne (s : State) (d : Nat) {c e : CtxRef} (h : e ≠ c) : (s.releases d c).ctxAt e = s.ctxAt e := by
  rw [State.releases, State.ctxAt_dropLines, State.ctxAt_modAt_ne _ _ h]

/-- A member goes on after its BSYNC (02 R37 step 5). -/
def Ctx.goesOn (x : Ctx) : Prop := x.barrier = none ∧ x.arrived = false ∧ x.released = true

theorem Ctx.release_arrived {x : Ctx} {d : Nat} (h : x.arrivedAt d = true) : (x.release d).goesOn := by
  simp [Ctx.release, h, Ctx.goesOn]

/-- A member that is named twice is released once. -/
theorem Ctx.release_goesOn {x : Ctx} {d : Nat} (h : x.goesOn) : (x.release d).goesOn := by
  have ha : x.arrivedAt d = false := by simp [Ctx.arrivedAt, h.1]
  simpa [Ctx.release, ha, Ctx.countRelease, Ctx.goesOn] using h

theorem State.releases_goesOn {s : State} {d : Nat} {e : CtxRef} (c : CtxRef) (h : (s.ctxAt e).goesOn) :
    ((s.releases d c).ctxAt e).goesOn := by
  by_cases he : e = c
  · rw [he, State.ctxAt_releases_same]
    exact Ctx.release_goesOn (he ▸ h)
  · rw [State.ctxAt_releases_ne _ _ he]
    exact h

theorem State.releaseAll_goesOn {d : Nat} {e : CtxRef} (ms : List CtxRef) {s : State} (h : (s.ctxAt e).goesOn) :
    ((ms.foldl (fun s c => s.releases d c) s).ctxAt e).goesOn := by
  induction ms generalizing s with
  | nil => exact h
  | cons c ms ih => exact ih (State.releases_goesOn c h)

theorem State.releaseAll_member {d : Nat} {e : CtxRef} {ms : List CtxRef} (hm : e ∈ ms) {s : State}
    (h : (s.ctxAt e).arrivedAt d = true) : ((ms.foldl (fun s c => s.releases d c) s).ctxAt e).goesOn := by
  induction ms generalizing s with
  | nil => cases hm
  | cons c ms ih =>
    by_cases he : e = c
    · refine State.releaseAll_goesOn ms ?_
      rw [he, State.ctxAt_releases_same]
      exact Ctx.release_arrived (he ▸ h)
    · exact ih ((List.mem_cons.mp hm).resolve_left he) (by rw [State.ctxAt_releases_ne _ _ he]; exact h)

theorem State.releaseAll_other {d : Nat} {e : CtxRef} {ms : List CtxRef} (hm : e ∉ ms) (s : State) :
    (ms.foldl (fun s c => s.releases d c) s).ctxAt e = s.ctxAt e := by
  induction ms generalizing s with
  | nil => rfl
  | cons c ms ih =>
    rw [List.mem_cons, not_or] at hm
    rw [List.foldl_cons, ih hm.2, State.ctxAt_releases_ne _ _ hm.1]

/-- BARRIER_RELEASE in the words of the statement. -/
theorem barrierRelease_paths (part : Nat) (dom : BitVec 32) (s : State) :
    let d := dom.toNat
    (s.barrierFull part d = true → ∃ t, exec (.barrierRelease part dom) s = .next t ∧
      (t.hub.tokens = s.hub.tokens.filter fun k => !tokenOf part d (s.domStep part d) k) ∧
      (t.hub.posted = s.hub.posted.filter fun p => !(s.dueTransfers part d).contains p) ∧
      (t.hub.domains = s.hub.domains.map fun x => if x.part == part && x.id == d then { x with step := x.step + 1 } else x) ∧
      (∀ c ∈ s.membersOf part d, (s.ctxAt c).arrivedAt d = true →
        (t.ctxAt c).barrier = none ∧ (t.ctxAt c).arrived = false ∧ (t.ctxAt c).released = true) ∧
      ∀ c, c ∉ s.membersOf part d → (t.ctxAt c).barrier = (s.ctxAt c).barrier ∧ (t.ctxAt c).released = (s.ctxAt c).released) ∧
    (s.barrierFull part d = false → exec (.barrierRelease part dom) s = .next s) := by
  intro d
  refine ⟨fun hf => ⟨_, barrierRelease_full hf, ?_⟩, barrierRelease_early⟩
  have hs := s.deliverAll_supersteps part d (s.dueTransfers part d)
  simp only [Hub.supersteps, Prod.mk.injEq] at hs
  obtain ⟨hp, ht, hd⟩ := hs
  have ha (c : CtxRef) := s.deliverAll_arrival part d (s.dueTransfers part d) c
  rw [State.releaseAll_hub]
  refine ⟨?_, ?_, ?_, fun c hc hca => ?_, fun c hc => ?_⟩
  · rw [← ht]; rfl
  · rw [← hp]; rfl
  · rw [← hd]; rfl
  · exact State.releaseAll_member hc ((Ctx.arrivedAt_congr (ha c) d).trans hca)
  · rw [State.releaseAll_other hc]
    have h := ha c
    simp only [Ctx.arrival, Prod.mk.injEq] at h
    exact ⟨h.1, h.2.2.1⟩

/-! ## The domain table (02 R36, 21 R381) -/

/-- A record of one domain. -/
def DomRec.names (x : DomRec) (part id : Nat) : Bool := x.part == part && x.id == id

theorem State.domRec_eq (s : State) (part id : Nat) : s.domRec part id = s.hub.domains.find? fun x => x.names part id := rfl

theorem State.domRec_names {s : State} {part id : Nat} {d : DomRec} (h : s.domRec part id = some d) : d.part = part ∧ d.id = id := by
  have := List.find?_some h
  simpa [DomRec.names] using this

/-- The records of the other domains. -/
def State.otherDoms (s : State) (part id : Nat) : List DomRec := s.hub.domains.filter fun x => !x.names part id

theorem State.putDomRec_domains (s : State) (d : DomRec) : (s.putDomRec d).hub.domains =
    if d.members.isEmpty || decide (4096 ≤ (s.otherDoms d.part d.id).length) then s.otherDoms d.part d.id
    else s.otherDoms d.part d.id ++ [d] := rfl

theorem State.otherDoms_find? (s : State) {part id part' id' : Nat} (h : ¬(part = part' ∧ id = id')) :
    (s.otherDoms part' id').find? (fun x => x.names part id) = s.domRec part id := by
  rw [State.otherDoms, List.find?_filter, State.domRec_eq]
  congr 1
  funext x
  by_cases hx : x.names part id = true
  · have hx' : x.names part' id' = false := by
      simp only [DomRec.names, Bool.and_eq_true, beq_iff_eq] at hx
      simp only [DomRec.names, hx.1, hx.2]
      simpa using h
    simp [hx, hx']
  · simp [hx]

theorem State.otherDoms_find?_self (s : State) (part id : Nat) : (s.otherDoms part id).find? (fun x => x.names part id) = none := by
  rw [State.otherDoms, List.find?_filter]
  simp

theorem State.domRec_putDomRec_same {s : State} {d : DomRec} (hm : d.members ≠ []) (hn : s.hub.domains.length < 4096) :
    (s.putDomRec d).domRec d.part d.id = some d := by
  have hl : (s.otherDoms d.part d.id).length ≤ s.hub.domains.length := List.length_filter_le _ _
  rw [State.domRec_eq, State.putDomRec_domains, if_neg (by simp [hm]; omega), List.find?_append, State.otherDoms_find?_self]
  simp [DomRec.names]

theorem State.domRec_putDomRec_ne {s : State} {d : DomRec} {part id : Nat} (h : ¬(part = d.part ∧ id = d.id)) :
    (s.putDomRec d).domRec part id = s.domRec part id := by
  have hd : d.names part id = false := by
    simp only [DomRec.names, Bool.and_eq_false_iff, beq_eq_false_iff_ne]
    by_cases hp : d.part = part
    · exact .inr fun hi => h ⟨hp.symm, hi.symm⟩
    · exact .inl hp
  rw [State.domRec_eq, State.putDomRec_domains]
  split
  · exact s.otherDoms_find? h
  · rw [List.find?_append, s.otherDoms_find? h]
    simp [hd]

/-- A record that is put back takes the place of the one before it. -/
theorem State.putDomRec_length {s : State} {d : DomRec} (h : (s.domRec d.part d.id).isSome = true) :
    (s.putDomRec d).hub.domains.length ≤ s.hub.domains.length := by
  have hl : (s.otherDoms d.part d.id).length < s.hub.domains.length := by
    rw [State.otherDoms, List.length_filter_lt_length_iff_exists]
    obtain ⟨x, hx⟩ := Option.isSome_iff_exists.mp h
    have hn : x.names d.part d.id = true := List.find?_some (p := fun y : DomRec => y.names d.part d.id) hx
    exact ⟨x, List.mem_of_find?_eq_some hx, by simp [hn]⟩
  rw [State.putDomRec_domains]
  split
  · omega
  · simp only [List.length_append, List.length_singleton]
    omega

theorem State.leaveDom_length (s : State) (part id : Nat) (c : CtxRef) :
    (s.leaveDom part id c).hub.domains.length ≤ s.hub.domains.length := by
  unfold State.leaveDom
  split
  · next d hd =>
    obtain ⟨hp, hi⟩ := State.domRec_names hd
    refine State.putDomRec_length ?_
    show (s.domRec d.part d.id).isSome = true
    rw [hp, hi, hd]
    rfl
  · exact Nat.le_refl _

/-- A domain that firmware writes with its record stands in the table, where there is room (log 22). -/
theorem State.domRec_enterDom {s : State} {part id : Nat} {c : CtxRef} {r : DomainEntry} (hm : r.members ≠ [])
    (hn : s.hub.domains.length < 4096) : ∃ d, (s.enterDom part id c (some r)).domRec part id = some d ∧ d.members = r.members ∧
      d.parent = r.parent.map (·.toNat) ∧ d.part = part ∧ d.id = id := by
  unfold State.enterDom
  generalize ho : (s.domRec part id).getD { part := part, id := id, parent := none, members := [], step := 0, halted := [] } = old
  have hold : old.part = part ∧ old.id = id := by
    cases hd : s.domRec part id with
    | some d =>
      rw [hd] at ho
      exact ho ▸ State.domRec_names hd
    | none =>
      rw [hd] at ho
      exact ho ▸ ⟨rfl, rfl⟩
  obtain ⟨hp, hi⟩ := hold
  refine ⟨{ old with parent := r.parent.map (·.toNat), members := r.members, halted := old.halted.filter r.members.contains },
    ?_, rfl, rfl, hp, hi⟩
  subst hp hi
  exact State.domRec_putDomRec_same (d := { old with
    parent := r.parent.map (·.toNat), members := r.members, halted := old.halted.filter r.members.contains }) hm hn

theorem State.domRec_noteParent {s : State} {part id : Nat} {domt : Word} (h : id ≠ domId domt) :
    (s.noteParent part domt).domRec part id = s.domRec part id := by
  unfold State.noteParent
  split
  · next d hd =>
    split at hd
    · cases hd
    · obtain ⟨hp, hi⟩ := State.domRec_names hd
      exact State.domRec_putDomRec_ne fun e => h (e.2.trans hi)
  · rfl

/-! ## DOMAIN_REGISTER_WRITE (02 R34, R35) -/

theorem State.ctxAt_putDomRec (s : State) (d : DomRec) (c : CtxRef) : (s.putDomRec d).ctxAt c = s.ctxAt c := rfl

theorem State.ctxAt_noteParent (s : State) (part : Nat) (w : Word) (c : CtxRef) : (s.noteParent part w).ctxAt c = s.ctxAt c := by
  unfold State.noteParent
  split <;> rfl

theorem State.ctxAt_leaveDom (s : State) (part id : Nat) (r c : CtxRef) : (s.leaveDom part id r).ctxAt c = s.ctxAt c := by
  unfold State.leaveDom
  split <;> rfl

/-- The other packages hear of a context whose register is rewritten, and it leaves the domain that the register named (02 R36, R41). -/
def State.leavesOld (s : State) (c : CtxRef) (sc : DomScope) (v : Word) : State :=
  let part := s.partOf c
  let x := s.ctxAt c
  let old := x.dom sc
  let kept := scopes.any fun e => e != sc && domCount (x.dom e) != 0 && domId (x.dom e) == domId old
  let t := if domCount old != 0 && bitOf x.haltIn (scopeNo sc) && s.domSpans part (domId old) then
    s.modHub fun h => { h with outbox := h.outbox ++ [.halted part (domId old) c false] } else s
  if domCount old = 0 ∨ kept ∨ domId old = domId v then t else t.leaveDom part (domId old) c

theorem State.recordDom_eq (s : State) (c : CtxRef) (sc : DomScope) (v : Word) (e : Option DomainEntry) : s.recordDom c sc v e =
    if domCount v = 0 then s.leavesOld c sc v else (s.leavesOld c sc v).enterDom (s.partOf c) (domId v) c e := rfl

theorem State.ctxAt_leavesOld (s : State) (r : CtxRef) (sc : DomScope) (v : Word) (c : CtxRef) :
    (s.leavesOld r sc v).ctxAt c = s.ctxAt c := by
  unfold State.leavesOld
  simp only
  split
  · split <;> rfl
  · rw [State.ctxAt_leaveDom]
    split <;> rfl

theorem State.leavesOld_length (s : State) (c : CtxRef) (sc : DomScope) (v : Word) :
    (s.leavesOld c sc v).hub.domains.length ≤ s.hub.domains.length := by
  unfold State.leavesOld
  simp only
  split
  · split <;> exact Nat.le_refl _
  · refine Nat.le_trans (State.leaveDom_length _ _ _ _) ?_
    split <;> exact Nat.le_refl _

/-- The hub's record of a domain changes no context. -/
theorem State.ctxAt_recordDom (s : State) (r : CtxRef) (sc : DomScope) (v : Word) (e : Option DomainEntry) (c : CtxRef) :
    (s.recordDom r sc v e).ctxAt c = s.ctxAt c := by
  rw [State.recordDom_eq]
  split
  · exact s.ctxAt_leavesOld r sc v c
  · exact s.ctxAt_leavesOld r sc v c

theorem State.recordDom_domRec {s : State} {c : CtxRef} {sc : DomScope} {v : Word} {r : DomainEntry} (hv : domCount v ≠ 0)
    (hm : r.members ≠ []) (hn : s.hub.domains.length < 4096) : ∃ d, (s.recordDom c sc v (some r)).domRec (s.partOf c) (domId v) = some d ∧
      d.members = r.members ∧ d.parent = r.parent.map (·.toNat) := by
  obtain ⟨d, hd, hdm, hdp, -, -⟩ := State.domRec_enterDom (c := c) (part := s.partOf c) (id := domId v) hm
    (Nat.lt_of_le_of_lt (s.leavesOld_length c sc v) hn)
  rw [State.recordDom_eq, if_neg hv]
  exact ⟨d, hd, hdm, hdp⟩

/-- The ID field of a domain register is the part of the value that is written. -/
theorem domId_masked (v : Word) : domId (v &&& 0x3FFFFFFFFFFFFFFF#64) = domId v := by
  rw [domId, domId, bits_eq_extractLsb', bits_eq_extractLsb']
  congr 1
  ext i hi
  have hb : ∀ k < 32, (0x3FFFFFFFFFFFFFFF#64).getLsbD k = true := by decide
  rw [BitVec.getElem_extractLsb', BitVec.getElem_extractLsb', BitVec.getLsbD_and, Nat.zero_add, hb i hi, Bool.and_true]

theorem domId_eq_iff (v w : Word) : domId v = domId w ↔ v.extractLsb' 0 32 = w.extractLsb' 0 32 := by
  rw [domId, domId, bits_eq_extractLsb', bits_eq_extractLsb']
  exact ⟨BitVec.eq_of_toNat_eq, congrArg _⟩

theorem Ctx.putDom_dom_same (x : Ctx) (sc : DomScope) (v : Word) : (x.putDom sc v).dom sc = v &&& 0x3FFFFFFFFFFFFFFF#64 := by
  cases sc <;> rfl

theorem Ctx.putDom_dom_ne (x : Ctx) {sc r : DomScope} (v : Word) (h : r ≠ sc) : (x.putDom sc v).dom r = x.dom r := by
  cases sc <;> cases r <;> simp [Ctx.putDom, Ctx.dom] at h ⊢

theorem Ctx.putDom_sstep (x : Ctx) (sc : DomScope) (v : Word) : (x.putDom sc v).sstep sc =
    if v.extractLsb' 0 32 = (x.dom sc).extractLsb' 0 32 then x.sstep sc else 0 := by
  have h : (x.putDom sc v).sstep sc =
      if domId (v &&& 0x3FFFFFFFFFFFFFFF#64) = domId (x.dom sc) then x.sstep sc else 0 := by
    cases sc <;> rfl
  rw [h, domId_masked]
  simp only [domId_eq_iff]

theorem domainRegisterWrite_team (c : CtxRef) (w : DomainWrite) (s : State) : exec (.domainRegisterWrite c .t w) s = .next s := by
  rw [exec_domainRegisterWrite, execDomainRegisterWrite, if_pos rfl, State.byFirmware]
  split <;> rfl

theorem domainRegisterWrite_run {c : CtxRef} {reg : DomScope} {w : DomainWrite} {s : State} (hr : reg ≠ .t)
    (hf : s.firmwareRuns = true) : exec (.domainRegisterWrite c reg w) s =
      .next (((s.recordDom c reg w.value w.entry).modAt c fun x => x.putDom reg w.value).noteParent (s.partOf c) (s.ctxAt c).domt) := by
  rw [exec_domainRegisterWrite, execDomainRegisterWrite, if_neg hr, State.byFirmware, if_pos hf]

/-- DOMAIN_REGISTER_WRITE in the words of the statement. -/
theorem domainRegisterWrite_paths (c : CtxRef) (reg : DomScope) (v : Word) (e : Option DomainEntry) (s : State) :
    let x := s.ctxAt c
    (reg = .t → exec (.domainRegisterWrite c reg ⟨v, e⟩) s = .next s) ∧
    (reg ≠ .t → s.firmwareRuns = true → ∃ t, exec (.domainRegisterWrite c reg ⟨v, e⟩) s = .next t ∧
      (t.ctxAt c).dom reg = v &&& 0x3FFF_FFFF_FFFF_FFFF#64 ∧ (∀ r, r ≠ reg → (t.ctxAt c).dom r = x.dom r) ∧
      (t.ctxAt c).sstep reg = (if v.extractLsb' 0 32 = (x.dom reg).extractLsb' 0 32 then x.sstep reg else 0) ∧
      (∀ r, e = some r → domCount v ≠ 0 → r.members ≠ [] → domId v ≠ domId x.domt → s.hub.domains.length < 4096 →
        ∃ d, t.domRec (s.partOf c) (domId v) = some d ∧ d.members = r.members ∧ d.parent = r.parent.map (·.toNat))) := by
  refine ⟨fun hr => hr ▸ domainRegisterWrite_team c ⟨v, e⟩ s, fun hr hf => ⟨_, domainRegisterWrite_run hr hf, ?_⟩⟩
  rw [State.ctxAt_noteParent, State.ctxAt_modAt_same, State.ctxAt_recordDom]
  refine ⟨Ctx.putDom_dom_same _ _ _, fun r h => Ctx.putDom_dom_ne _ _ h, Ctx.putDom_sstep _ _ _, ?_⟩
  intro r he hv hm hid hn
  subst he
  rw [State.domRec_noteParent hid, State.domRec_eq, State.modAt_hub]
  exact State.recordDom_domRec hv hm hn

end Sys2Proof.Machine

/-!
SUPPORT. Accesses that enter the memory machine POSTed, pages that migrate, stores of firmware, and invalidation (17 R337 to R340, 18
R344, R345, R361).
-/
namespace Sys2Proof.Machine

/-! ## Accesses that enter POSTed (18 R344, R361) -/

/-- The accesses of parts, before they are POSTed: one for each part, with fresh numbers. -/
structure IssuedFrom (n : Nat) (agent : Agent) (kind : AccKind) (data : Nat → Byte × Bool) (ps : List Part) (new : List Access) : Prop where
  bytes : new.map (fun a => (a.addr, a.data)) = ps.map fun p => (p.addr, (List.range p.len).map fun k => data (p.pos + k))
  each  : ∀ a ∈ new, n ≤ a.id ∧ a.agent = agent ∧ a.kind = kind ∧ a.performed = false ∧ ∃ p ∈ ps, a.home = p.home ∧ a.page = p.page

theorem State.issueEach_run (s : State) (mixed : Option Nat) (rank : Nat) (agent : Agent) (kind : AccKind) (acq rel : Bool)
    (obs : BitVec 5) (sink : Nat → Sink) (data : Nat → Byte × Bool) (mask : Nat → Bool) (ps : List Part) :
    ∃ new, s.issueEach mixed rank agent kind acq rel obs sink data mask ps =
      { s with nextId := s.nextId + ps.length, accs := s.accs ++ new } ∧ IssuedFrom s.nextId agent kind data ps new := by
  induction ps generalizing s with
  | nil => exact ⟨[], by simp [State.issueEach], rfl, by simp⟩
  | cons p ps ih =>
    obtain ⟨new, he, hb, ha⟩ := ih { s with
      nextId := s.nextId + 1
      accs := s.accs ++ [{ partAccess s.nextId rank agent kind acq rel obs sink data mask p with mixed := mixed }] }
    refine ⟨{ partAccess s.nextId rank agent kind acq rel obs sink data mask p with mixed := mixed } :: new, ?_, ?_, ?_⟩
    · rw [State.issueEach, he]
      simp only [List.append_assoc, List.singleton_append, List.length_cons, Nat.add_assoc, Nat.add_comm 1]
    · rw [List.map_cons, List.map_cons, hb]
      rfl
    · intro a hm
      rcases List.mem_cons.mp hm with rfl | hm
      · exact ⟨Nat.le_refl _, rfl, rfl, rfl, p, List.mem_cons_self, rfl, rfl⟩
      · obtain ⟨hid, hag, hk, hp, q, hq, hh⟩ := ha a hm
        exact ⟨Nat.le_of_succ_le hid, hag, hk, hp, q, List.mem_cons_of_mem _ hq, hh⟩

/-- An access of the agent is POSTed as it is issued: it is not one of a hub unit to an SO page (18 R349). -/
def postsAtOnce (agent : Agent) (page : PageKind) : Bool := page != .so || match agent with
  | .hub _ _ => false
  | _ => true

/-- Accesses of an agent to device HBM enter the machine POSTed, and nothing else changes. -/
theorem State.postParts_gains {s : State} {agent : Agent} {page : PageKind} {kind : AccKind} (sink : Nat → Sink)
    (data : Nat → Byte × Bool) (addr len : Nat) (hid : ∀ b ∈ s.accs, b.id < s.nextId) (hp : postsAtOnce agent page = true) :
    s.gains (s.postParts agent kind sink data (hbmParts addr len page)) agent page kind (piecesOf addr len) data := by
  obtain ⟨new, he, hb, ha⟩ := s.issueEach_run
    (if (hbmParts addr len page).any fun p => p.page != .so then some s.nextId else none) s.nextId agent kind false false 0 sink data
    (fun _ => true) (hbmParts addr len page)
  have hpart (p : Part) (h : p ∈ hbmParts addr len page) : p.home = .hbm ∧ p.page = page := by
    obtain ⟨q, -, rfl⟩ := List.mem_map.mp h
    exact ⟨rfl, rfl⟩
  unfold State.postParts State.issueParts
  rw [he]
  refine ⟨rfl, new.map fun a => { a with posted := true }, ?_, ?_, ?_⟩
  · simp only [List.map_append]
    congr 1
    · refine (List.map_congr_left fun b hm => if_neg ?_).trans (List.map_id _)
      exact fun h => absurd h.1 (Nat.not_le.mpr (hid b hm))
    · refine List.map_congr_left fun a hm => if_pos ?_
      obtain ⟨hn, hag, -, -, p, hm', -, hpg⟩ := ha a hm
      refine ⟨hn, ?_⟩
      rw [hpg, (hpart p hm').2]
      exact hp
  · rw [List.map_map]
    refine hb.trans ?_
    rw [hbmParts, List.map_map]
    rfl
  · intro a hm
    obtain ⟨x, hx, rfl⟩ := List.mem_map.mp hm
    obtain ⟨-, hag, hk, hpf, p, hm', hh, hpg⟩ := ha x hx
    exact ⟨hag, hh.trans (hpart p hm').1, hpg.trans (hpart p hm').2, rfl, hpf, hk⟩

/-- What the hub notes beside an access leaves what the machine gains. -/
theorem State.gains_modHub {s t : State} {agent : Agent} {page : PageKind} {kind : AccKind} {ps : List (Nat × Nat × Nat)}
    {data : Nat → Byte × Bool} (f : Hub → Hub) (h : s.gains t agent page kind ps data) :
    (s.modHub f).gains (t.modHub f) agent page kind ps data := by
  obtain ⟨hs, new, ha, hn⟩ := h
  exact ⟨congrArg (fun u : State => u.modHub f) hs, new, ha, hn⟩

/-! ## PEER_ACCESS, HOST_MEM_READ, HOST_MEM_WRITE (18 R361, 27 R458) -/

theorem peerAccess_stranger {a : PeerAccess} {s : State} (h : s.namesPackage a.pkg = false) : exec (.peerAccess a) s = .next s := by
  simp [execPeerAccess, h]

theorem peerAccess_beyond {a : PeerAccess} {s : State} (h : s.namesPackage a.pkg = true) (hl : hbmSize < a.addr + peerLen a.op) :
    exec (.peerAccess a) s = .next (s.modReplies fun r => { r with errors := r.errors ++ [.peerAccess a.pkg a.addr] }) := by
  simp [execPeerAccess, h, hl]

theorem peerAccess_run {a : PeerAccess} {s : State} (h : s.namesPackage a.pkg = true) (hl : a.addr + peerLen a.op ≤ hbmSize) :
    exec (.peerAccess a) s = .next (s.postParts (.peerPkg a.pkg a.agent) (peerKind a.op) (fun _ => .none)
      (fun k => (peerData a.op).getD k (0, false)) (hbmParts a.addr (peerLen a.op) a.page)) := by
  simp [execPeerAccess, h, Nat.not_lt.mpr hl]

theorem hostMemRead_run {addr len : Nat} {s : State} (hl : addr + len ≤ hbmSize) (hr : s.cfg.recordOk = true) :
    exec (.hostMemRead addr len) s = .next (if s.readRefused addr len then { s with freeCount := s.freeCount + 1 }
      else ({ s with freeCount := s.freeCount + 1 } : State).postParts .host .read (fun _ => .none) (fun _ => (0, false))
        (hbmParts addr len .uo)) := by
  simp [execHostMemRead, hr, Nat.not_lt.mpr hl]

theorem hostMemWrite_run {addr : Nat} {data : List Byte} {s : State} (hl : addr + data.length ≤ hbmSize)
    (hr : s.cfg.recordOk = true) : exec (.hostMemWrite addr data) s =
      .next (if Config.hostRefuses s.freeCount addr data.length then
          ({ s with freeCount := s.freeCount + 1 } : State).modCounts fun n => { n with hostDrops := satAdd32 n.hostDrops 1 }
        else ({ s with freeCount := s.freeCount + 1 } : State).postParts .host .write (fun _ => .none) (fun k => (data.getD k 0, false))
          (hbmParts addr data.length .uo)) := by
  simp [execHostMemWrite, hr, Nat.not_lt.mpr hl]

/-! ## FIRMWARE_STORE (17 R340) -/

@[simp] theorem toBytes_length (v n : Nat) : (toBytes v n).length = n := by
  induction n generalizing v with
  | zero => rfl
  | succ n ih => rw [toBytes, List.length_cons, ih]

theorem toBytes_getElem (v n k : Nat) (h : k < (toBytes v n).length) : (toBytes v n)[k] = BitVec.ofNat 8 (v / 256 ^ k) := by
  induction n generalizing v k with
  | zero => simp [toBytes] at h
  | succ n ih =>
    cases k with
    | zero => simp [toBytes]
    | succ k =>
      have hk : k < (toBytes (v / 256) n).length := by simpa [toBytes] using h
      have := ih (v / 256) k hk
      rw [Nat.div_div_eq_div_mul, ← Nat.pow_succ'] at this
      exact this

/-- A byte of a word. -/
theorem byteOf_word (v : Word) (k : Nat) : BitVec.ofNat 8 (v.toNat / 256 ^ k) = v.extractLsb' (8 * k) 8 := by
  apply BitVec.eq_of_toNat_eq
  rw [BitVec.toNat_ofNat, BitVec.extractLsb'_toNat, Nat.shiftRight_eq_div_pow, Nat.pow_mul]

theorem firmwareStore_run {addr : Nat} {v : Word} {s : State} (ha : addr % 8 = 0) (hl : addr + 8 ≤ hbmSize)
    (hf : s.firmwareRuns = true) :
    exec (.firmwareStore addr v) s = .next { s with hbm := s.hbm.store addr (cleanBytes (toBytes v.toNat 8)) } := by
  simp [execFirmwareStore, State.byFirmware, hf, ha, Nat.not_lt.mpr hl]

/-- The eight bytes of a word that is stored. -/
theorem Memory.read_store_word (m : Memory) (addr : Nat) (v : Word) {k : Nat} (hk : k < 8) :
    (m.store addr (cleanBytes (toBytes v.toNat 8))).read (addr + k) = v.extractLsb' (8 * k) 8 := by
  have hl : k < (cleanBytes (toBytes v.toNat 8)).length := by simpa [cleanBytes] using hk
  rw [Memory.read_store_inside _ _ _ _ hl]
  simp only [cleanBytes, List.getElem_map]
  rw [toBytes_getElem, byteOf_word]

/-! ## PAGE_MIGRATION_COPY (17 R339) -/

/-- The hub copy engine starts on a page. -/
theorem pageMigrationCopy_starts {src dst len : Nat} {s : State} (hf : s.firmwareRuns = true) (hs : src + len ≤ hbmSize)
    (hd : dst + len ≤ hbmSize) (hc : s.hub.copy = none) : exec (.pageMigrationCopy src dst len) s =
      .next (s.migrates (some { job := .page src dst len, row := 0, busy := false, writing := false, buf := [], draw := 0 })) := by
  simp [execPageMigrationCopy, State.byFirmware, hf, Nat.not_lt.mpr hs, Nat.not_lt.mpr hd, hc, State.migrates]

theorem pageMigrationCopy_goes {src dst len : Nat} {r : CopyRun} {s : State} (hf : s.firmwareRuns = true) (hs : src + len ≤ hbmSize)
    (hd : dst + len ≤ hbmSize) (hc : s.hub.copy = some r) (hj : r.job = .page src dst len) :
    exec (.pageMigrationCopy src dst len) s = .next (s.pageStep r src dst len) := by
  simp [execPageMigrationCopy, State.byFirmware, hf, Nat.not_lt.mpr hs, Nat.not_lt.mpr hd, hc, hj]

theorem State.pageStep_eq (s : State) (r : CopyRun) (src dst len : Nat) : s.pageStep r src dst len =
    if s.unitQuiet unitCopy = false then s
    else if min 64 (len - 64 * r.row) = 0 then s.migrates none
    else if r.writing then s.migrates (some { r with row := r.row + 1, busy := false, writing := false, buf := [] })
    else if r.busy then
      (s.postParts (.hub unitCopy noPart) .write (fun _ => .none) (fun k => Table.get r.buf (0, false) k)
        (hbmParts (dst + 64 * r.row) (min 64 (len - 64 * r.row)) .uo)).migrates (some { r with writing := true })
    else
      (s.postParts (.hub unitCopy noPart) .read (fun k => .copy k) (fun _ => (0, false))
        (hbmParts (src + 64 * r.row) (min 64 (len - 64 * r.row)) .uo)).migrates (some { r with busy := true }) := by
  unfold State.pageStep State.migrates
  cases s.unitQuiet unitCopy <;> rfl

/-- A step of a page that migrates, in the words of the statement. -/
theorem pageMigrationCopy_step {src dst len : Nat} {s : State} {r : CopyRun} (hf : s.firmwareRuns = true) (hs : src + len ≤ hbmSize)
    (hd : dst + len ≤ hbmSize) (hid : ∀ b ∈ s.accs, b.id < s.nextId) (hc : s.hub.copy = some r) (hj : r.job = .page src dst len) :
    let n := min 64 (len - 64 * r.row)
    (s.unitQuiet unitCopy = false → exec (.pageMigrationCopy src dst len) s = .next s) ∧
    (s.unitQuiet unitCopy = true →
      (n = 0 → exec (.pageMigrationCopy src dst len) s = .next (s.migrates none)) ∧
      (n ≠ 0 → r.writing = true → exec (.pageMigrationCopy src dst len) s =
        .next (s.migrates (some { r with row := r.row + 1, busy := false, writing := false, buf := [] }))) ∧
      (n ≠ 0 → r.writing = false → r.busy = true → ∃ t, exec (.pageMigrationCopy src dst len) s = .next t ∧
        (s.migrates (some { r with writing := true })).gains t (.hub unitCopy noPart) .uo .write
          (piecesOf (dst + 64 * r.row) n) fun k => Table.get r.buf (0, false) k) ∧
      (n ≠ 0 → r.writing = false → r.busy = false → ∃ t, exec (.pageMigrationCopy src dst len) s = .next t ∧
        (s.migrates (some { r with busy := true })).gains t (.hub unitCopy noPart) .uo .read
          (piecesOf (src + 64 * r.row) n) fun _ => (0, false))) := by
  intro n
  rw [pageMigrationCopy_goes hf hs hd hc hj, State.pageStep_eq]
  refine ⟨fun hq => by rw [if_pos hq], fun hq => ?_⟩
  have hq' : ¬s.unitQuiet unitCopy = false := by simp [hq]
  rw [if_neg hq']
  refine ⟨fun hn => by rw [if_pos hn], fun hn hw => by rw [if_neg hn, if_pos hw], fun hn hw hb => ?_, fun hn hw hb => ?_⟩
  · rw [if_neg hn, if_neg (by simp [hw]), if_pos hb]
    exact ⟨_, rfl, State.gains_modHub _ (State.postParts_gains _ _ _ _ hid rfl)⟩
  · rw [if_neg hn, if_neg (by simp [hw]), if_neg (by simp [hb])]
    exact ⟨_, rfl, State.gains_modHub _ (State.postParts_gains _ _ _ _ hid rfl)⟩

/-! ## Invalidation (17 R337, R338) -/

theorem tlbinvGo_run {part : Nat} {v : Word} {s : State} (hf : s.firmwareRuns = true) (hp : bits v 0 3 = part) :
    exec (.tlbinvGo part v) s = .next (s.modHub fun h => { h with tlbinv := h.tlbinv.write v }) := by
  simp [execTlbinvGo, State.byFirmware, hf, hp]

/-- A GO write while a command runs only sets REJ. -/
theorem TlbInv.write_busy {i : TlbInv} {v : Word} (hg : v.getLsbD 8 = true) (hb : i.busy.isSome = true) :
    i.write v = { i with rej := true } := by
  simp [TlbInv.write, bitOf_eq_getLsbD, hg, hb]

/-- A GO write samples the range. -/
theorem TlbInv.write_go {i : TlbInv} {v : Word} (hg : v.getLsbD 8 = true) (hb : i.busy = none) : i.write v =
    { i with rej := i.rej && !v.getLsbD 62, part := bits v 0 3,
             busy := some (bits v 0 3, (i.va.extractLsb' 16 39).toNat, i.pages) } := by
  simp [TlbInv.write, bitOf_eq_getLsbD, hg, hb, bits_eq_extractLsb' i.va]

theorem tlbinvComplete_quiet {part first pages : Nat} {s : State} (hb : s.hub.tlbinv.busy = some (part, first, pages))
    (hq : s.rangeQuiet part first pages = true) : exec (.tlbinvComplete part) s =
      .next ((s.dropTranslations part first pages).modHub fun h => { h with tlbinv := { h.tlbinv with busy := none } }) := by
  simp [execTlbinvComplete, hb, hq]

theorem tlbinvComplete_waits {part first pages : Nat} {s : State} (hb : s.hub.tlbinv.busy = some (part, first, pages))
    (hq : s.rangeQuiet part first pages = false) : exec (.tlbinvComplete part) s = .next s := by
  simp [execTlbinvComplete, hb, hq]

theorem State.hubTlb_dropTranslations (s : State) (p first pages : Nat) :
    (s.dropTranslations p first pages).hubTlb p = (s.hubTlb p).filter fun e => !e.inRange first pages :=
  Table.get_set_same _ _ _ _

/-- After an invalidation no stream of the partition holds a translation of the range. -/
theorem State.dropTranslations_streams {s : State} {part first pages : Nat} {p : Nat × Ctx}
    (hm : p ∈ (s.dropTranslations part first pages).ctxs) (hp : s.partOf (ctxOfKey p.1) = part) (st : Stream) :
    ∀ e ∈ (p.2.str st).tlb, e.inRange first pages = false := by
  obtain ⟨⟨k, x⟩, -, rfl⟩ := List.mem_map.mp hm
  intro e he
  simp only at hp he
  rw [if_pos hp, Ctx.str_eachStr] at he
  simpa using (List.mem_filter.mp he).2

/-- Settles O46, from the lemmas of each step. -/
theorem hubSteps : Obligations.HubSteps := by
  unfold Obligations.HubSteps
  refine ⟨barrierRelease_paths, domainRegisterWrite_paths, ?_, ?_, ?_, ?_, ?_, ?_⟩
  · intro a s hid
    refine ⟨peerAccess_stranger, fun hn => ⟨peerAccess_beyond hn, fun hl => ⟨_, peerAccess_run hn hl, ?_⟩⟩⟩
    exact State.postParts_gains _ _ _ _ hid (by simp [postsAtOnce])
  · intro addr len data v s hid
    refine ⟨fun hl hr => ?_, fun hl hr => ?_, fun ha hl hf => ⟨_, firmwareStore_run ha hl hf, ?_⟩⟩
    · refine ⟨fun h => ?_, fun h => ?_⟩
      · rw [hostMemRead_run hl hr]
        exact congrArg _ (if_pos h)
      · refine ⟨_, (hostMemRead_run hl hr).trans (congrArg _ (if_neg ?_)), State.postParts_gains _ _ _ _ hid rfl⟩
        rw [Bool.not_eq_true]
        exact h
    · exact ⟨_, hostMemWrite_run hl hr, State.postParts_gains _ _ _ _ hid rfl⟩
    · refine ⟨fun k hk => Memory.read_store_word _ _ _ hk, fun x hx => Memory.read_store_outside _ _ _ _ ?_, rfl⟩
      simpa [cleanBytes] using hx
  · exact fun src dst len s hf hs hd hid => ⟨pageMigrationCopy_starts hf hs hd, fun r => pageMigrationCopy_step hf hs hd hid⟩
  · intro part v s hf hp hg
    refine ⟨fun hb => ?_, fun hb => ?_⟩
    · rw [tlbinvGo_run hf hp, State.modHub, TlbInv.write_busy hg hb]
      rfl
    · rw [tlbinvGo_run hf hp, State.modHub, TlbInv.write_go hg hb, hp]
      rfl
  · intro part s hf
    simp [execTlbinvRejClear, State.byFirmware, hf]
  · intro part first pages s hb
    refine ⟨fun hq => ⟨_, tlbinvComplete_quiet hb hq, rfl, fun e he => ?_, fun p hm hp st => ?_⟩, tlbinvComplete_waits hb⟩
    · have he' : e ∈ (s.dropTranslations part first pages).hubTlb part := he
      rw [State.hubTlb_dropTranslations] at he'
      simpa using (List.mem_filter.mp he').2
    · exact State.dropTranslations_streams hm hp st

end Sys2Proof.Machine

/-!
SUPPORT. A bundle of LOOPM and three NOPs, against the clause of O57 about it. The model takes the NOPs' states back once they have run and
lets LOOPM, which moves all four streams itself (08 R183), run in the state before them; the clause lets LOOPM run in the state after
them, where the streams V, M and X have moved already.
-/
namespace Sys2Proof.Machine

namespace LoopmBundle

/-- Context A of cell 0. -/
def c : CtxRef := { cell := 0, bank := .a }

/-- `LOOPM` of one word with J = 1 stands at the pc of S, and NOPs with J = 1 at those of V, M and X; the trip count 7 is in s1, and S
tries its word next. -/
noncomputable def start : State :=
  { (State.reset.withFetchWord 32 0xC4001000).modCtx c (fun x => { x with dq := [(1, [{ val := 7, it := none }])] }) with
    agenda := [.issue c .s] }

/-- The state of the try, before and after the words have been fetched. -/
noncomputable def tried : State := { start with agenda := [] }
noncomputable def fetched : State := tried.touchCode c .s

def codeOf : Stream → BitVec 32
  | .s => 0xC4001000
  | _ => 0x80000000

noncomputable def instr (q : Stream) : Instr := decodeWords q (codeOf q) 0

noncomputable def bundle : List (Stream × Fetched) := fetched.joined c codeOf instr

noncomputable def base : State := (fetched.modCtx c Ctx.clearHalts).raiseFences c bundle

def loopm : SLM := { j := true, ii := 0, stages := 0, rb := false, a := 1, ka := false }

/-- The word of S in its slot. -/
noncomputable def first : Stream × Fetched :=
  (.s, { instr := instr .s, code := codeOf .s, fwd := fetched.forwardAt ((fetched.ctx c).str .s).pc })

theorem start_tries : tried.triesWord c .s := by
  unfold State.triesWord
  decide +kernel

theorem start_hnd : (tried.ctx c).hnd = false := by decide +kernel

theorem instr_s : instr .s = .loopm loopm := by decide +kernel

theorem instr_nop (q : Stream) (h : q ≠ .s) : ∃ j g, instr q = .nop j g := by
  refine ⟨true, 0, ?_⟩
  cases q with
  | s => exact absurd rfl h
  | _ => decide +kernel

/-- The bytes at the pc of a stream are its word. -/
noncomputable def fetches (q : Stream) : Bool :=
  match fetched.codeAt c q ((fetched.ctx c).str q).pc with
  | .ok w => w == codeOf q
  | .error _ => false

theorem fetches_all (q : Stream) : fetches q = true := by
  cases q <;> decide +kernel

theorem codeAt_fetched (q : Stream) : fetched.codeAt c q ((fetched.ctx c).str q).pc = .ok (codeOf q) := by
  have h := fetches_all q
  unfold fetches at h
  split at h
  · next w hw => rw [hw, eq_of_beq h]
  · cases h

theorem fetched_standsAt (q : Stream) : fetched.standsAt c q (codeOf q) (instr q) := by
  refine ⟨codeAt_fetched q, ?_⟩
  cases q <;> rfl

theorem fetched_allJoined : fetched.allJoined c codeOf instr := by
  refine ⟨by decide +kernel, by decide +kernel, fun q => ⟨fetched_standsAt q, ?_⟩⟩
  cases q <;> decide +kernel

/-- The NOPs run, and after them LOOPM retires: the word of V has then counted twice. -/
noncomputable def countsTwice (m : State) : Bool :=
  match ({ m with nops := true } : State).inSlot c first with
  | .next t => t.lastIssue == .retired && ((t.afterBundle c false).ctx c).sv.seq == 2
  | _ => false

theorem loopm_after_nops : (base.ranWords c (bundle.drop 1)).any countsTwice = true := by decide +kernel

/-- The step of the model: the word of V counts once. -/
def countsOnce (o : Host.Outcome State Fault Refusal) : Bool :=
  match o with
  | .next t => (t.ctx c).sv.seq == 1
  | _ => false

theorem step_start : countsOnce (step start) = true := by decide +kernel

end LoopmBundle

open LoopmBundle in
/-- Refutes O57: a LOOPM that retires beside three NOPs. The model's LOOPM runs in the state before the NOPs, and each stream has then
retired one word; the clause of the bundle has it run in the state after them, where V has retired two. -/
theorem not_stepRunsTheDecodedWord : ¬Obligations.StepRunsTheDecodedWord := by
  unfold Obligations.StepRunsTheDecodedWord
  rintro ⟨-, -, -, hbundle, -⟩
  obtain ⟨m, hm, hcount⟩ := (Option.any_eq_true _ _).mp loopm_after_nops
  unfold countsTwice at hcount
  split at hcount
  · next t ht =>
    obtain ⟨hretired, hseq⟩ := Bool.and_eq_true_iff.mp hcount
    obtain ⟨-, hloopm, -⟩ := hbundle start c .s [] codeOf instr rfl start_tries start_hnd fetched_allJoined
    have hstep := (hloopm loopm instr_s instr_nop m t first rfl hm ht).1 (eq_of_beq hretired)
    have honce := step_start
    rw [hstep] at honce
    have h1 : ((t.afterBundle c false).ctx c).sv.seq = 1 := eq_of_beq honce
    rw [eq_of_beq hseq] at h1
    exact absurd h1 (by decide)
  · cases hcount

end Sys2Proof.Machine

/-!
SUPPORT. Steps of firmware, cell modes, reliability records and the register window (02 R29, 26 R457, 27 R459, R474).
-/
namespace Sys2Proof.Machine

/-! ## Steps of firmware (27 R466) -/

theorem State.byFirmware_off {s : State} (t : State) (h : s.firmwareRuns = false) : s.byFirmware t = s := by
  simp [State.byFirmware, h]

theorem State.byFirmware_on {s : State} (t : State) (h : s.firmwareRuns = true) : s.byFirmware t = t := by
  simp [State.byFirmware, h]

/-- Firmware runs only under a good record. -/
theorem State.recordOk_of_firmwareRuns {s : State} (h : s.firmwareRuns = true) : s.cfg.recordOk = true := by
  simp only [State.firmwareRuns, Bool.and_eq_true] at h
  exact h.1

/-- Every step of firmware is guarded by the package's state. -/
theorem FirmwareStep.byFirmware {i : Instr} {s : State} (h : FirmwareStep i) : ∃ t, exec i s = .next (s.byFirmware t) := by
  cases h with
  | register w hw => exact ⟨s.firmwareWrite w.off w.val, by simp [execRegisterWrite, State.windowWrite, hw]⟩
  | _ => exact ⟨_, rfl⟩

theorem firmwareStep_off {i : Instr} {s : State} (h : FirmwareStep i) (hf : s.firmwareRuns = false) : exec i s = .next s := by
  obtain ⟨t, ht⟩ := h.byFirmware (s := s)
  rw [ht, State.byFirmware_off t hf]

/-! ## Fields of a word -/

/-- A field as the model takes it, in the width of the field. -/
theorem ofNat_bits {n w : Nat} (v : BitVec n) (lo : Nat) : BitVec.ofNat w (bits v lo w) = v.extractLsb' lo w := by
  rw [bits_eq_extractLsb', BitVec.ofNat_toNat, BitVec.setWidth_eq]

theorem bits_eq_zero_iff {n : Nat} (v : BitVec n) (lo w : Nat) : bits v lo w = 0 ↔ v.extractLsb' lo w = 0 := by
  rw [bits_eq_extractLsb', ← BitVec.toNat_inj]
  rfl

/-- A field that stays in its place is the word under a mask. -/
theorem shiftLeft_extractLsb' (v : Word) (lo w : Nat) :
    (v.extractLsb' lo w).setWidth 64 <<< lo = v &&& ((BitVec.allOnes w).setWidth 64 <<< lo) := by
  ext i hi
  rw [BitVec.getElem_and, BitVec.getElem_shiftLeft, BitVec.getElem_shiftLeft]
  by_cases hlo : i < lo
  · simp [hlo]
  · simp [hlo, show lo + (i - lo) = i by omega, BitVec.getLsbD_eq_getElem hi, Bool.and_comm]

/-- `CRBASE` in its place: bits 51 to 4. -/
theorem ofNat_bits_crbase (v : Word) : BitVec.ofNat 64 (bits v 4 48 * 16) = v &&& 0x000F_FFFF_FFFF_FFF0#64 := by
  have hs : BitVec.ofNat 64 (bits v 4 48 * 16) = (v.extractLsb' 4 48).setWidth 64 <<< 4 := by
    rw [bits_eq_extractLsb', ← BitVec.toNat_inj]
    simp [BitVec.toNat_shiftLeft, Nat.shiftLeft_eq]
  rw [hs, shiftLeft_extractLsb']
  rfl

/-! ## Cell modes (02 R29) -/

/-- A firmware error where MBZ bits of CELLMODE are set. -/
def State.modeNoted (s : State) (v : Word) : State :=
  if v.extractLsb' 2 62 = 0 then s else s.modCounts fun n => { n with fwErrors := satAdd32 n.fwErrors 1 }

theorem cellmodeWrite_run {cell : Nat} (v : Word) {s : State} (hc : cell < 256) (hf : s.firmwareRuns = true) :
    exec (.cellmodeWrite cell v) s = .next (if 2 ≤ (v.extractLsb' 0 2).toNat then s.modeNoted v
      else if s.cellIdle cell then (s.modeNoted v).modCell cell fun l => { l.setMode (v.extractLsb' 0 2) with modeHeld := none }
      else (s.modeNoted v).modCell cell fun l => { l with modeHeld := some (v.extractLsb' 0 2) }) := by
  simp [execCellmodeWrite, State.byFirmware_on _ hf, State.modeNoted, ofNat_bits, bits_eq_zero_iff, show ¬cellCount ≤ cell by simp [cellCount]; omega]

theorem Cell.setMode_of_lt (l : Cell) {m : BitVec 2} (h : m.toNat < 2) : l.setMode m = { l with mode := m } := by
  simp [Cell.setMode, show ¬2 ≤ m.toNat by omega]

theorem Cell.setMode_eq (l : Cell) (m : BitVec 2) : l.setMode m = { l with mode := if m = 0 ∨ m = 1 then m else l.mode } := by
  have h : (2 ≤ m.toNat) ↔ ¬(m = 0 ∨ m = 1) := by revert m; decide
  unfold Cell.setMode
  by_cases hm : m = 0 ∨ m = 1
  · rw [if_neg (fun hu => h.mp hu hm), if_pos hm]
  · rw [if_pos (h.mpr hm), if_neg hm]

/-! ## Reliability records (26 R457) -/

/-- A new STATE and the SECURITY that goes with it; the interrupt leaves the cell. -/
theorem State.setCellState_cell (s : State) (cell : Nat) (st : BitVec 2) : (s.setCellState cell st).cell cell =
    { s.cell cell with
      state := st
      security := if 2 ≤ st.toNat then .fenced else if (s.cell cell).security = .fenced then s.securityOf (s.cell cell)
        else (s.cell cell).security } := by
  unfold State.setCellState
  dsimp only
  split
  · simp
  · simp [State.interrupt, State.modReplies]

/-- STATE 3 is neither written nor left, and a fenced cell that returns to service has SCORE 0. -/
theorem reliabilityStateWrite_run {cell : Nat} (v : Word) {s : State} (hc : cell < 256) (hf : s.firmwareRuns = true) :
    ∃ t, exec (.reliabilityStateWrite cell v) s = .next t ∧
      let st := if v.extractLsb' 16 2 = 3 ∨ (s.cell cell).state = 3 then (s.cell cell).state else v.extractLsb' 16 2
      (t.cell cell).state = st ∧ (t.cell cell).tests = v.extractLsb' 32 32 ∧
        (t.cell cell).score = (if (s.cell cell).state = 2 ∧ st = 0 then 0 else (v.extractLsb' 0 16).toNat) ∧
        (2 ≤ st.toNat → (t.cell cell).security = .fenced) := by
  refine ⟨s.writeReliability cell v, by simp [execReliabilityStateWrite, State.byFirmware_on _ hf], ?_⟩
  have hn : ¬cellCount ≤ cell := by simp [cellCount]; omega
  simp only [State.writeReliability, hn, if_false, State.cell_modCell_same, State.setCellState_cell,
    State.recordOk_of_firmwareRuns hf, ofNat_bits, Bool.not_true, Bool.false_eq_true, or_false]
  rw [bits_eq_extractLsb' v 0 16]
  exact ⟨rfl, trivial, rfl, fun h => if_pos h⟩

/-! ## Places of the window (27 R459) -/

theorem placeOf_join {off : Nat} (h1 : 0x10000 ≤ off) (h2 : off < 0x20000) (h8 : off % 8 = 0) : placeOf off = .join (off - 0x10000) := by
  simp [placeOf, h8, h2, show ¬off < 0x10000 by omega]

theorem placeOf_part {n off : Nat} (hn : n < 8) (ho : off < 0x10000) (h8 : off % 8 = 0) :
    placeOf (0x100000 + 0x10000 * n + off) = .part n off := by
  unfold placeOf
  rw [if_neg (by omega), if_neg (by omega), if_neg (by omega), if_neg (by omega), if_neg (by omega), if_neg (by omega),
    if_pos (by omega)]
  congr 1 <;> omega

theorem placeOf_queue {n q off : Nat} (hn : n < 8) (hq : q < 64) (ho : off < 0x10000) (h8 : off % 8 = 0) :
    placeOf (0x2000000 + 0x400000 * n + 0x10000 * q + off) = .queue n q off := by
  unfold placeOf
  rw [if_neg (by omega), if_neg (by omega), if_neg (by omega), if_neg (by omega), if_neg (by omega), if_neg (by omega),
    if_neg (by omega), if_pos (by omega)]
  congr 1 <;> omega

/-! ## Writes of the window -/

theorem Place.nextCycle_of_unlisted {p : Place} (h : p.unlisted = true) : p.nextCycle = false := by
  cases p with
  | none => rfl
  | device off => rfl
  | _ => cases h

theorem counterOf_listed {off : Nat} (h : (placeOf off).unlisted = false) : counterOf off = none := by simp [counterOf, h]

/-- A counter stands where no table names a register, and its write takes effect at once. -/
theorem counterOf_nextCycle {off : Nat} {c : CounterRef} (h : counterOf off = some c) : (placeOf off).nextCycle = false :=
  Place.nextCycle_of_unlisted (Decidable.byContradiction fun hu => by
    rw [counterOf_listed (Bool.not_eq_true _ ▸ hu)] at h
    cases h)

theorem registerWrite_refused {w : HubWrite} {s : State} (hw : w.host = true)
    (h : (placeOf w.off).hostMay = false ∨ s.cfg.recordOk = false) : exec (.registerWrite w) s = .next s := by
  rcases h with h | h <;> simp [execRegisterWrite, State.windowWrite, hw, h]

theorem registerWrite_firmware {w : HubWrite} {s : State} (hw : w.host = false) (hf : s.firmwareRuns = true) :
    exec (.registerWrite w) s = .next (s.firmwareWrite w.off w.val) := by
  simp [execRegisterWrite, State.windowWrite, hw, State.byFirmware_on _ hf]

theorem State.firmwareWrite_counter {s : State} {off : Nat} {c : CounterRef} (v : Word) (h : counterOf off = some c) :
    s.firmwareWrite off v = if v = 0 then s.clearCounter c else s := by
  simp [State.firmwareWrite, counterOf_nextCycle h, h]

theorem State.firmwareWrite_later {s : State} {off : Nat} (v : Word) (h : (placeOf off).nextCycle = true) :
    s.firmwareWrite off v = s.writeLater off v := by
  simp [State.firmwareWrite, h]

theorem State.firmwareWrite_place {s : State} {off : Nat} {p : Place} (v : Word) (hp : placeOf off = p) (hl : p.unlisted = false)
    (hn : p.nextCycle = false) : s.firmwareWrite off v = s.placeWrite p v := by
  subst hp
  simp [State.firmwareWrite, hn, counterOf_listed hl]

/-- A register that the host may write, and whose value applies at once: by firmware or by the host. -/
theorem registerWrite_shared {w : HubWrite} {s : State} {p : Place} (h : s.firmwareRuns = true ∨ w.host = true ∧ s.cfg.recordOk = true)
    (hp : placeOf w.off = p) (hl : p.unlisted = false) (hn : p.nextCycle = false) (hm : p.hostMay = true) :
    exec (.registerWrite w) s = .next (s.placeWrite p w.val) := by
  have hr : s.cfg.recordOk = true := h.elim State.recordOk_of_firmwareRuns fun h => h.2
  by_cases hw : w.host = true
  · subst hp
    simp [execRegisterWrite, State.windowWrite, hw, hm, hr, hn]
  · have hf : s.firmwareRuns = true := h.elim id fun h => absurd h.1 hw
    rw [registerWrite_firmware (Bool.not_eq_true _ ▸ hw) hf, State.firmwareWrite_place w.val hp hl hn]

/-- A word of a ring. -/
theorem State.writeQueue_ring {s : State} (n q k : Nat) (v : Word) (h : s.cfg.recordOk = true) : s.writeQueue n q (0x8000 + 8 * k) v =
    s.modQueue n q fun x => { x with ring := Table.put x.ring 0 k v } := by
  unfold State.writeQueue
  split
  · omega
  · omega
  · omega
  · simp [h, show 0x8000 ≤ 0x8000 + 8 * k by omega]

/-! ## Writes of the next hub cycle (27 R474) -/

theorem State.applyLater_writeLater {s : State} (off : Nat) (v : Word) (h : s.hub.later = []) :
    (s.writeLater off v).applyLater = s.placeWrite (placeOf off) v := by
  have hs : ((s.writeLater off v).modHub fun h => { h with later := [] }) = s := by
    simp only [State.writeLater, State.modHub]
    rw [← h]
  have hl : (s.writeLater off v).hub.later = [{ off := off, val := v, host := false }] := by simp [State.writeLater, State.modHub, h]
  rw [State.applyLater, hl, hs]
  rfl

/-- A register of a partition page takes its new value at the end of the hub cycle. -/
theorem State.applyLater_part {s : State} {n k : Nat} (v : Word) (h : s.hub.later = []) (hn : n < 8) (hk : k < 0x10000) (h8 : k % 8 = 0) :
    (s.writeLater (0x100000 + 0x10000 * n + k) v).applyLater = s.writePart n k v := by
  rw [State.applyLater_writeLater _ v h, placeOf_part hn hk h8]
  rfl

theorem State.writePart_crsize {s : State} {n k : Nat} {v : Word} (hk : k ≤ 8) (h : v.extractLsb' 0 17 = BitVec.ofNat 17 (2 ^ (8 + k))) :
    s.writePart n 0x48 v = s.modPart n fun p => { p with crsize := 2 ^ (8 + k) } := by
  have hb : bits v 0 17 = 2 ^ (8 + k) := by
    rw [bits_eq_extractLsb', h, BitVec.toNat_ofNat, Nat.mod_eq_of_lt (Nat.pow_lt_pow_right (by decide) (by omega))]
  have ho : crsizeOk (2 ^ (8 + k)) = true := by
    simp only [crsizeOk, Bool.or_eq_true, List.any_eq_true]
    exact .inr ⟨k, List.mem_range.mpr (by omega), by simp⟩
  simp only [State.writePart, hb, ho, if_true]

end Sys2Proof.Machine

/-!
SUPPORT. The contexts of a cell, failures of nodes, resets of partitions and cells that move (02 R22, 26 R457, 27 R462, R463, R466, R472).
-/
namespace Sys2Proof.Machine

/-! ## The contexts of a cell -/

theorem mem_ctxsOf {n : Nat} {c : CtxRef} : c ∈ ctxsOf n ↔ c.cell = n := by
  obtain ⟨m, k⟩ := c
  cases k <;> simp [ctxsOf]

/-- An update that acts on each context of a cell acts once on each. -/
theorem State.ctx_foldl_ctxsOf {g : State → CtxRef → State} {f : Ctx → Ctx} (hs : ∀ s c, (g s c).ctx c = f (s.ctx c))
    (hn : ∀ s c d, d ≠ c → (g s c).ctx d = s.ctx d) (s : State) {n : Nat} {c : CtxRef} (h : c.cell = n) :
    ((ctxsOf n).foldl g s).ctx c = f (s.ctx c) := by
  subst h
  obtain ⟨m, k⟩ := c
  cases k with
  | a =>
    calc (g (g s ⟨m, .a⟩) ⟨m, .b⟩).ctx ⟨m, .a⟩ = (g s ⟨m, .a⟩).ctx ⟨m, .a⟩ := hn _ _ _ (by simp)
      _ = f (s.ctx ⟨m, .a⟩) := hs _ _
  | b =>
    calc (g (g s ⟨m, .a⟩) ⟨m, .b⟩).ctx ⟨m, .b⟩ = f ((g s ⟨m, .a⟩).ctx ⟨m, .b⟩) := hs _ _
      _ = f (s.ctx ⟨m, .b⟩) := congrArg f (hn _ _ _ (by simp))

/-- It leaves the contexts of the other cells. -/
theorem State.ctx_foldl_ctxsOf_ne {g : State → CtxRef → State} (hn : ∀ s c d, d ≠ c → (g s c).ctx d = s.ctx d) (s : State) {n : Nat}
    {c : CtxRef} (h : c.cell ≠ n) : ((ctxsOf n).foldl g s).ctx c = s.ctx c := by
  have hk : ∀ k, c ≠ ⟨n, k⟩ := fun k e => h (congrArg CtxRef.cell e)
  exact (hn _ _ _ (hk .b)).trans (hn _ _ _ (hk .a))

theorem mem_cellsOf {s : State} {part n : Nat} : n ∈ s.cellsOf part ↔ n < 256 ∧ (s.cell n).part = some part := by
  simp [State.cellsOf]

theorem cellsOf_nodup (s : State) (part : Nat) : (s.cellsOf part).Nodup := List.nodup_range.filter _

theorem mem_contextsOf {s : State} {part : Nat} {c : CtxRef} : c ∈ s.contextsOf part ↔ c.cell ∈ s.cellsOf part := by
  rw [State.contextsOf, List.mem_flatten]
  constructor
  · rintro ⟨l, hl, hc⟩
    obtain ⟨n, hn, rfl⟩ := List.mem_map.mp hl
    exact mem_ctxsOf.mp hc ▸ hn
  · exact fun h => ⟨ctxsOf c.cell, List.mem_map.mpr ⟨c.cell, h, rfl⟩, mem_ctxsOf.mpr rfl⟩

/-! ## Failures of nodes (21 R396) -/

/-- The failure that a node of a reset partition ends with. -/
def sysFailure : Failure := { status := sysfail, cause := 0, detail := 0, orig := none }

theorem State.failureOf_congr {s t : State} (h : t.hub.fails = s.hub.fails) (n : NodeRef) : t.failureOf n = s.failureOf n := by
  rw [State.failureOf, State.failureOf, h]

theorem State.failureOf_nodeFails_same {s : State} {n : NodeRef} (h : s.failureOf n = none) :
    (s.nodeFails n sysfail 0 0).failureOf n = some sysFailure := by
  simp only [State.failureOf, Option.map_eq_none_iff] at h
  simp [State.failureOf, State.nodeFails, State.modHub, h, sysFailure]

theorem State.failureOf_nodeFails_ne (s : State) {m n : NodeRef} (h : m ≠ n) :
    (s.nodeFails m sysfail 0 0).failureOf n = s.failureOf n := by
  simp [State.failureOf, State.nodeFails, State.modHub, h]

/-- The first failure of a node stays. -/
theorem State.failureOf_nodeFails_some {s : State} (m : NodeRef) {n : NodeRef} {f : Failure} (h : s.failureOf n = some f) :
    (s.nodeFails m sysfail 0 0).failureOf n = some f := by
  simp only [State.failureOf, Option.map_eq_some_iff] at h
  obtain ⟨p, hp, rfl⟩ := h
  simp [State.failureOf, State.nodeFails, State.modHub, hp]

theorem State.failureOf_foldl_nodeFails_some {ns : List NodeRef} {n : NodeRef} {f : Failure} {s : State} (h : s.failureOf n = some f) :
    (ns.foldl (fun s n => s.nodeFails n sysfail 0 0) s).failureOf n = some f := by
  induction ns generalizing s with
  | nil => exact h
  | cons m ns ih => exact ih (State.failureOf_nodeFails_some m h)

theorem State.failureOf_foldl_nodeFails {ns : List NodeRef} {n : NodeRef} {s : State} (hn : n ∈ ns) (h : s.failureOf n = none) :
    (ns.foldl (fun s n => s.nodeFails n sysfail 0 0) s).failureOf n = some sysFailure := by
  induction ns generalizing s with
  | nil => cases hn
  | cons m ns ih =>
    by_cases hm : m = n
    · subst hm
      exact State.failureOf_foldl_nodeFails_some (ns := ns) (State.failureOf_nodeFails_same h)
    · have hn : n ∈ ns := (List.mem_cons.mp hn).resolve_left (Ne.symm hm)
      exact ih hn ((State.failureOf_nodeFails_ne s hm).trans h)

/-- A node fails with SYSFAIL unless it has failed. -/
def State.failsOnce (s : State) (n : NodeRef) : State := if (s.failureOf n).isNone then s.nodeFails n sysfail 0 0 else s

theorem State.failParked_eq (s : State) (i : Image) : s.failParked i =
    ([i.a, i.b].map fun x => (x.running.map Running.nodes).getD []).flatten.foldl State.failsOnce s := rfl

theorem State.failureOf_failsOnce_same (s : State) (n : NodeRef) : ((s.failsOnce n).failureOf n).isSome = true := by
  unfold State.failsOnce
  split
  · next h => exact Option.isSome_of_eq_some (State.failureOf_nodeFails_same (Option.isNone_iff_eq_none.mp h))
  · next h => simpa [Option.isSome_iff_ne_none] using h

theorem State.failureOf_failsOnce_isSome {s : State} (m : NodeRef) {n : NodeRef} (h : (s.failureOf n).isSome = true) :
    ((s.failsOnce m).failureOf n).isSome = true := by
  obtain ⟨f, hf⟩ := Option.isSome_iff_exists.mp h
  unfold State.failsOnce
  split
  · exact Option.isSome_of_eq_some (State.failureOf_nodeFails_some m hf)
  · exact h

theorem State.failureOf_foldl_failsOnce {ns : List NodeRef} {n : NodeRef} {s : State} (h : n ∈ ns ∨ (s.failureOf n).isSome = true) :
    ((ns.foldl State.failsOnce s).failureOf n).isSome = true := by
  induction ns generalizing s with
  | nil => exact h.resolve_left (List.not_mem_nil)
  | cons m ns ih =>
    refine ih ?_
    rcases h with h | h
    · rcases List.mem_cons.mp h with rfl | h
      · exact .inr (State.failureOf_failsOnce_same s n)
      · exact .inl h
    · exact .inr (State.failureOf_failsOnce_isSome m h)

/-- Every node that a parked image runs has failed after the image is dropped. -/
theorem State.failureOf_failParked {s : State} {i : Image} {r : Running} (h : i.a.running = some r ∨ i.b.running = some r) :
    ((s.failParked i).failureOf r.node).isSome = true := by
  rw [State.failParked_eq]
  refine State.failureOf_foldl_failsOnce (.inl ?_)
  rcases h with h | h <;> simp [h, Running.nodes]

/-- What failures of nodes leave: all but the list of failures. -/
theorem State.failParked_keeps {β : Type} {p : State → β} (hp : ∀ (s : State) n, p (s.nodeFails n sysfail 0 0) = p s) (s : State)
    (i : Image) : p (s.failParked i) = p s := by
  rw [State.failParked_eq]
  refine foldl_keeps (fun t n => ?_) _ s
  unfold State.failsOnce
  split
  · exact hp t n
  · rfl

/-! ## A cell of a partition that is reset (27 R463) -/

theorem State.ctx_stopCtx_same (s : State) (c : CtxRef) : (s.stopCtx c).ctx c = (s.ctx c).dropWork :=
  State.ctx_modCtx_same s c Ctx.dropWork

theorem State.ctx_stopCtx_ne (s : State) {c d : CtxRef} (h : d ≠ c) : (s.stopCtx c).ctx d = s.ctx d :=
  State.ctx_modCtx_ne s Ctx.dropWork h

/-- A context of a reset partition stops and is emptied. -/
def State.stopsEmpty (s : State) (c : CtxRef) : State := (s.stopCtx c).modCtx c Ctx.emptied

theorem State.ctx_stopsEmpty_same (s : State) (c : CtxRef) : (s.stopsEmpty c).ctx c = (s.ctx c).dropWork.emptied := by
  rw [State.stopsEmpty, State.ctx_modCtx_same, State.ctx_stopCtx_same]

theorem State.ctx_stopsEmpty_ne (s : State) (c d : CtxRef) (h : d ≠ c) : (s.stopsEmpty c).ctx d = s.ctx d := by
  rw [State.stopsEmpty, State.ctx_modCtx_ne _ _ h, State.ctx_stopCtx_ne _ h]

/-- The image of a reset cell: it stays with its contexts stopped in C2, and goes otherwise. -/
def Cell.resetImage (l : Cell) (free : Bool) : Cell :=
  match l.shadow with
  | none => l
  | some i =>
    if i.power then { l with shadow := some { i with a := i.a.dropWork.emptied, b := i.b.dropWork.emptied } }
    else { l with shadow := none, cb := if free then i.cb else l.cb }

theorem State.resetCell_eq (s : State) (n : Nat) : s.resetCell n =
    ((ctxsOf n).foldl State.stopsEmpty s).modCell n fun l => l.resetImage (s.cellFree n) := rfl

theorem State.ctx_resetCell (s : State) {n : Nat} {c : CtxRef} (h : c.cell = n) : (s.resetCell n).ctx c = (s.ctx c).dropWork.emptied := by
  rw [State.resetCell_eq, State.ctx_modCell]
  exact State.ctx_foldl_ctxsOf (f := fun x => x.dropWork.emptied) State.ctx_stopsEmpty_same State.ctx_stopsEmpty_ne s h

theorem State.ctx_resetCell_ne (s : State) {n : Nat} {c : CtxRef} (h : c.cell ≠ n) : (s.resetCell n).ctx c = s.ctx c := by
  rw [State.resetCell_eq, State.ctx_modCell]
  exact State.ctx_foldl_ctxsOf_ne State.ctx_stopsEmpty_ne s h

theorem State.cell_resetCell (s : State) (n : Nat) : (s.resetCell n).cell n = (s.cell n).resetImage (s.cellFree n) := by
  rw [State.resetCell_eq, State.cell_modCell_same]
  rfl

theorem State.cell_resetCell_ne (s : State) {m n : Nat} (h : m ≠ n) : (s.resetCell n).cell m = s.cell m := by
  rw [State.resetCell_eq, State.cell_modCell_ne _ _ h]
  rfl

theorem State.cellFree_resetCell_ne (s : State) {m n : Nat} (h : m ≠ n) : (s.resetCell n).cellFree m = s.cellFree m := by
  unfold State.cellFree ctxsOf
  simp [State.ctx_resetCell_ne s (n := n) (c := ⟨m, .a⟩) h, State.ctx_resetCell_ne s (n := n) (c := ⟨m, .b⟩) h]

theorem State.cell_resetCells_notMem {l : List Nat} {n : Nat} (h : n ∉ l) (s : State) : (l.foldl State.resetCell s).cell n = s.cell n := by
  induction l generalizing s with
  | nil => rfl
  | cons m l ih =>
    obtain ⟨hm, hl⟩ := List.ne_and_not_mem_of_not_mem_cons h
    exact (ih hl _).trans (State.cell_resetCell_ne s hm)

theorem State.ctx_resetCells_notMem {l : List Nat} {c : CtxRef} (h : c.cell ∉ l) (s : State) :
    (l.foldl State.resetCell s).ctx c = s.ctx c := by
  induction l generalizing s with
  | nil => rfl
  | cons m l ih =>
    obtain ⟨hm, hl⟩ := List.ne_and_not_mem_of_not_mem_cons h
    exact (ih hl _).trans (State.ctx_resetCell_ne s hm)

/-- Each cell of the list is reset once, from the state before the reset. -/
theorem State.cell_resetCells {l : List Nat} {n : Nat} (hl : l.Nodup) (h : n ∈ l) (s : State) :
    (l.foldl State.resetCell s).cell n = (s.cell n).resetImage (s.cellFree n) := by
  induction l generalizing s with
  | nil => cases h
  | cons m l ih =>
    obtain ⟨hm, hl⟩ := List.nodup_cons.mp hl
    by_cases e : n = m
    · subst e
      exact (State.cell_resetCells_notMem hm _).trans (State.cell_resetCell s n)
    · rw [List.foldl_cons, ih hl ((List.mem_cons.mp h).resolve_left e), State.cell_resetCell_ne s e, State.cellFree_resetCell_ne s e]

theorem State.ctx_resetCells {l : List Nat} {c : CtxRef} (hl : l.Nodup) (h : c.cell ∈ l) (s : State) :
    (l.foldl State.resetCell s).ctx c = (s.ctx c).dropWork.emptied := by
  induction l generalizing s with
  | nil => cases h
  | cons m l ih =>
    obtain ⟨hm, hl⟩ := List.nodup_cons.mp hl
    by_cases e : c.cell = m
    · rw [List.foldl_cons, State.ctx_resetCells_notMem (e ▸ hm), State.ctx_resetCell s e]
    · rw [List.foldl_cons, ih hl ((List.mem_cons.mp h).resolve_left e), State.ctx_resetCell_ne s e]

/-! ## A partition that is reset (27 R462, R463) -/

/-- A partition after a reset: nothing of it is pre-empted, reserved or kept. -/
def Partition.resets (p : Partition) : Partition :=
  { p with urgent := none, preempted := none, parked := false, reserved := none, keptFor := [] }

/-- The partition's cells are reset; its nodes have not failed yet. -/
def State.partStops (s : State) (part : Nat) : State := ((s.cellsOf part).foldl State.resetCell s).modPart part Partition.resets

theorem State.resetPart_eq (s : State) (part : Nat) : s.resetPart part =
    ((s.runningNodes part).filter fun n => (s.failureOf n).isNone).foldl (fun s n => s.nodeFails n sysfail 0 0) (s.partStops part) := rfl

/-- What failures of nodes leave is as the stopped cells leave it. -/
theorem State.resetPart_keeps {β : Type} {p : State → β} (hp : ∀ (s : State) n, p (s.nodeFails n sysfail 0 0) = p s) (s : State)
    (part : Nat) : p (s.resetPart part) = p (s.partStops part) := by
  rw [State.resetPart_eq]
  exact foldl_keeps (p := p) hp _ _

theorem State.partStops_fails (s : State) (part : Nat) : (s.partStops part).hub.fails = s.hub.fails :=
  foldl_keeps (f := State.resetCell) (p := fun t => t.hub.fails) (fun _ _ => rfl) (s.cellsOf part) s

theorem State.partStops_replies (s : State) (part : Nat) : (s.partStops part).hub.replies = s.hub.replies :=
  foldl_keeps (f := State.resetCell) (p := fun t => t.hub.replies) (fun _ _ => rfl) (s.cellsOf part) s

theorem State.resetPart_replies (s : State) (part : Nat) : (s.resetPart part).hub.replies = s.hub.replies :=
  (State.resetPart_keeps (p := fun t => t.hub.replies) (fun _ _ => rfl) s part).trans (s.partStops_replies part)

theorem State.part_resetPart (s : State) (part : Nat) :
    (s.resetPart part).part part = (((s.cellsOf part).foldl State.resetCell s).part part).resets :=
  (State.resetPart_keeps (p := fun t => t.part part) (fun _ _ => rfl) s part).trans (State.part_modPart_same _ _ _)

theorem State.cell_resetPart {s : State} {part n : Nat} (h : n ∈ s.cellsOf part) :
    (s.resetPart part).cell n = (s.cell n).resetImage (s.cellFree n) :=
  (State.resetPart_keeps (p := fun t => t.cell n) (fun _ _ => rfl) s part).trans (State.cell_resetCells (cellsOf_nodup s part) h s)

theorem State.ctx_resetPart {s : State} {part : Nat} {c : CtxRef} (h : c ∈ s.contextsOf part) :
    (s.resetPart part).ctx c = (s.ctx c).dropWork.emptied :=
  (State.resetPart_keeps (p := fun t => t.ctx c) (fun _ _ => rfl) s part).trans
    (State.ctx_resetCells (cellsOf_nodup s part) (mem_contextsOf.mp h) s)

theorem State.failureOf_resetPart {s : State} {part : Nat} {n : NodeRef} (hn : n ∈ s.runningNodes part) (h : s.failureOf n = none) :
    (s.resetPart part).failureOf n = some sysFailure := by
  rw [State.resetPart_eq]
  refine State.failureOf_foldl_nodeFails (List.mem_filter.mpr ⟨hn, by simp [h]⟩) ?_
  rw [State.failureOf_congr (s.partStops_fails part), h]

theorem partitionReset_run (part : Nat) {s : State} (hf : s.firmwareRuns = true) : exec (.partitionReset part) s = .next (s.resetPart part) := by
  simp [execPartitionReset, State.byFirmware_on _ hf]

theorem capabilityFault_run (part : Nat) {s : State} (hf : s.firmwareRuns = true) :
    exec (.capabilityFault part) s = .next ((s.errorRec (.capability part)).resetPart part) := by
  simp [execCapabilityFault, State.byFirmware_on _ hf]

/-! ## Cells that move (02 R22, 27 R472) -/

theorem State.ctx_foldl_moved (s : State) (part : Nat) {n : Nat} {c : CtxRef} (h : c.cell = n) :
    ((ctxsOf n).foldl (fun s c => s.modCtx c fun x => x.moved part) s).ctx c = (s.ctx c).moved part :=
  State.ctx_foldl_ctxsOf (fun s c => State.ctx_modCtx_same s c _) (fun s _ _ h => State.ctx_modCtx_ne s _ h) s h

/-- A parked image goes with its nodes. -/
def State.dropsImage (s : State) (cell : Nat) : State :=
  match (s.cell cell).shadow with
  | some i => s.failParked i
  | none => s

/-- A cell that has left TENANT: nothing of its partition stays in it. -/
def Cell.cleared (l : Cell) : Cell :=
  { l with
    part := none, shadow := none, cache := [], wb := Memory.blank 0, ab := Memory.blank 0, cb := Memory.blank 0
    security := if l.security = .fenced then .fenced else .openState }

theorem State.leaveTenant_eq (s : State) (cell : Nat) : s.leaveTenant cell =
    ((ctxsOf cell).foldl (fun s c => s.modCtx c fun x => x.moved 0) (s.dropsImage cell)).modCell cell Cell.cleared := by
  unfold State.leaveTenant State.dropsImage
  rfl

theorem State.dropsImage_keeps {β : Type} {p : State → β} (hp : ∀ (s : State) n, p (s.nodeFails n sysfail 0 0) = p s) (s : State)
    (cell : Nat) : p (s.dropsImage cell) = p s := by
  unfold State.dropsImage
  split
  · exact State.failParked_keeps hp s _
  · rfl

theorem State.cell_dropsImage (s : State) (cell n : Nat) : (s.dropsImage cell).cell n = s.cell n :=
  State.dropsImage_keeps (p := fun t => t.cell n) (fun _ _ => rfl) s cell

theorem State.cell_leaveTenant (s : State) (cell : Nat) : (s.leaveTenant cell).cell cell = (s.cell cell).cleared := by
  rw [State.leaveTenant_eq, State.cell_modCell_same]
  exact congrArg Cell.cleared (s.cell_dropsImage cell cell)

theorem State.cell_leaveTenant_ne (s : State) {cell n : Nat} (h : n ≠ cell) : (s.leaveTenant cell).cell n = s.cell n := by
  rw [State.leaveTenant_eq, State.cell_modCell_ne _ _ h]
  exact s.cell_dropsImage cell n

theorem State.ctx_leaveTenant (s : State) {cell : Nat} {c : CtxRef} (h : c.cell = cell) :
    (s.leaveTenant cell).ctx c = (s.ctx c).moved 0 := by
  rw [State.leaveTenant_eq, State.ctx_modCell, State.ctx_foldl_moved _ 0 h,
    State.dropsImage_keeps (p := fun t => t.ctx c) (fun _ _ => rfl)]

theorem State.failureOf_leaveTenant {s : State} {cell : Nat} {i : Image} {r : Running} (hi : (s.cell cell).shadow = some i)
    (h : i.a.running = some r ∨ i.b.running = some r) : ((s.leaveTenant cell).failureOf r.node).isSome = true := by
  have hd : s.dropsImage cell = s.failParked i := by simp only [State.dropsImage, hi]
  rw [State.leaveTenant_eq, hd]
  exact State.failureOf_failParked h

/-- What a cell that moves leaves of the hub: its partitions and its debug registers. -/
theorem State.leaveTenant_hub (s : State) (cell : Nat) :
    (s.leaveTenant cell).hub.parts = s.hub.parts ∧ (s.leaveTenant cell).hub.debug = s.hub.debug := by
  rw [State.leaveTenant_eq]
  exact ⟨State.dropsImage_keeps (p := fun t => t.hub.parts) (fun _ _ => rfl) s cell,
    State.dropsImage_keeps (p := fun t => t.hub.debug) (fun _ _ => rfl) s cell⟩

/-- A cell that moves leaves TENANT first. -/
def State.leavesFirst (s : State) (cell : Nat) : State := if s.tenantCell cell then s.leaveTenant cell else s

theorem State.cell_leavesFirst_ne (s : State) {cell n : Nat} (h : n ≠ cell) : (s.leavesFirst cell).cell n = s.cell n := by
  unfold State.leavesFirst
  split
  · exact s.cell_leaveTenant_ne h
  · rfl

theorem State.leavesFirst_hub (s : State) (cell : Nat) :
    (s.leavesFirst cell).hub.parts = s.hub.parts ∧ (s.leavesFirst cell).hub.debug = s.hub.debug := by
  unfold State.leavesFirst
  split
  · exact s.leaveTenant_hub cell
  · exact ⟨rfl, rfl⟩

/-- The cell is the new partition's, with no line of its old instruction cache. -/
theorem State.cell_moveCell (s : State) (cell part : Nat) :
    ((s.moveCell cell part).cell cell).part = some part ∧ ((s.moveCell cell part).cell cell).cache = [] := by
  unfold State.moveCell
  simp

theorem State.cell_moveCell_ne (s : State) {cell n : Nat} (part : Nat) (h : n ≠ cell) : (s.moveCell cell part).cell n = s.cell n := by
  unfold State.moveCell
  dsimp only
  rw [State.cell_modCell_ne _ _ h]
  exact s.cell_leavesFirst_ne h

theorem State.ctx_moveCell (s : State) {cell : Nat} (part : Nat) {c : CtxRef} (h : c.cell = cell) :
    (s.moveCell cell part).ctx c = ((s.leavesFirst cell).ctx c).moved part := by
  unfold State.moveCell
  dsimp only
  rw [State.ctx_modCell, State.ctx_foldl_moved _ part h]
  rfl

theorem State.moveCell_hub (s : State) (cell part : Nat) :
    (s.moveCell cell part).hub.parts = s.hub.parts ∧ (s.moveCell cell part).hub.debug = s.hub.debug := s.leavesFirst_hub cell

/-- Every cell of a list of cells that move belongs to the new partition. -/
theorem State.part_moveCells {l : List Nat} {n part : Nat} {s : State} (h : n ∈ l ∨ (s.cell n).part = some part) :
    ((l.foldl (fun s n => s.moveCell n part) s).cell n).part = some part := by
  induction l generalizing s with
  | nil => exact h.resolve_left List.not_mem_nil
  | cons m l ih =>
    refine ih ?_
    by_cases e : n = m
    · subst e
      exact .inr (s.cell_moveCell n part).1
    · rw [State.cell_moveCell_ne s part e]
      exact h.imp_left fun h => (List.mem_cons.mp h).resolve_left e

theorem State.moveCells_hub (l : List Nat) (part : Nat) (s : State) :
    (l.foldl (fun s n => s.moveCell n part) s).hub.parts = s.hub.parts ∧
      (l.foldl (fun s n => s.moveCell n part) s).hub.debug = s.hub.debug :=
  ⟨foldl_keeps (p := fun t : State => t.hub.parts) (fun t n => (t.moveCell_hub n part).1) l s,
    foldl_keeps (p := fun t : State => t.hub.debug) (fun t n => (t.moveCell_hub n part).2) l s⟩

theorem Ctx.moved_str (x : Ctx) (part : Nat) (st : Stream) : ((x.moved part).str st).tlb = [] := by
  cases st <;> rfl

theorem cellRepartition_run {cell part : Nat} {s : State} (hf : s.firmwareRuns = true) (hc : cell < 256) (hd : (s.part part).defined = true)
    (hm : s.mayMove cell = true) : exec (.cellRepartition cell part) s = .next (s.moveCell cell part) := by
  simp [execCellRepartition, State.byFirmware_on _ hf, cellCount, hc, hd, hm]

theorem leaveTenant_run {cell : Nat} {s : State} (hf : s.firmwareRuns = true) (ht : s.tenantCell cell = true)
    (hc : s.cellFree cell = true) : exec (.leaveTenant cell) s = .next (s.leaveTenant cell) := by
  simp [execLeaveTenant, State.byFirmware_on _ hf, ht, hc]

/-- A partition that is made: defined, of a tenant or not, with the shadow registers of its queues at 0. -/
def Partition.created (x : Partition) (tenant : Bool) : Partition :=
  { x with defined := true, tenant := tenant, queues := x.queues.map fun q => (q.1, { q.2 with sh := [] }) }

theorem partitionCreation_run {p : PartitionSpec} {s : State} (hf : s.firmwareRuns = true) (hp : p.part < 8)
    (hd : (s.part p.part).defined = false) (hi : p.tenant = true → p.imageOk = true) (hc : ∀ n ∈ p.cells, n < 256 ∧ s.mayMove n = true) :
    exec (.partitionCreation p) s = .next (p.cells.foldl (fun s n => s.moveCell n p.part)
      ((s.modPart p.part fun x => x.created p.tenant).modHub fun h => { h with debug := Table.set h.debug p.part 0 })) := by
  have ha : (p.cells.all fun n => decide (n < cellCount) && s.mayMove n) = true :=
    List.all_eq_true.mpr fun n hn => by simp [cellCount, hc n hn]
  have ht : ¬(p.tenant = true ∧ (!p.imageOk) = true) := fun ⟨ht, hn⟩ => by simp [hi ht] at hn
  have hg : ¬(8 ≤ p.part ∨ (s.part p.part).defined = true ∨ (p.tenant = true ∧ (!p.imageOk) = true) ∨
      (!p.cells.all fun n => decide (n < cellCount) && s.mayMove n) = true) := by
    rw [ha, hd]
    simpa [hp] using ht
  rw [exec_partitionCreation, execPartitionCreation, State.byFirmware_on _ hf, if_neg hg]
  rfl

/-! ## The device (27 R466, R476) -/

theorem Table.get_map_pair {α : Type} (l : List Nat) (f : Nat → α) (d : α) {n : Nat} (h : n ∈ l) :
    Table.get (l.map fun k => (k, f k)) d n = f n := by
  induction l with
  | nil => cases h
  | cons m l ih =>
    by_cases e : n = m
    · subst e
      simp [Table.get]
    · simpa [Table.get, e] using ih ((List.mem_cons.mp h).resolve_left e)

theorem cellAfter_state (cfg : DeviceConfig) (n : Nat) : (cellAfter cfg n).state =
    (if (cfg.recordOk && cfg.firmwareOk) = false then 2 else if n ∈ cfg.disabled then 3 else 0) := by
  unfold cellAfter
  by_cases h : (cfg.recordOk && cfg.firmwareOk) = false
  · simp [h]
  · rw [if_neg h, if_neg (by simpa using h)]
    by_cases hn : n ∈ cfg.disabled
    · simp [hn]
    · simp [hn]
      rfl

theorem cellAfter_ab (cfg : DeviceConfig) (n : Nat) : (cellAfter cfg n).ab = Memory.blank 0 := by
  unfold cellAfter
  split
  · rfl
  · split <;> rfl

end Sys2Proof.Machine

/-!
SUPPORT. Writes of the register window by their offsets, what a reset leaves of a cell, and the statement about the window, partitions
and the device (02 R22, R29, 14 R263, 26 R457, 27 R459, R462, R463, R466, R472, R474, R476).
-/
namespace Sys2Proof.Machine

/-! ## Registers by their offsets (27 R459, R474) -/

theorem registerWrite_ptroot {w : HubWrite} {s : State} {n : Nat} (hw : w.host = false) (hf : s.firmwareRuns = true) (hn : n < 8)
    (ho : w.off = 0x100000 + 0x10000 * n) : exec (.registerWrite w) s =
      .next (s.modHub fun h => { h with ptroot := Table.set h.ptroot n (w.val &&& 0xFFFF_FFFF_FFFF_0000#64) }) := by
  have hp : placeOf w.off = .part n 0 := by rw [ho]; exact placeOf_part (off := 0) hn (by decide) rfl
  rw [registerWrite_firmware hw hf, State.firmwareWrite_place w.val hp rfl rfl]
  rfl

/-- A write of a register whose value waits for the next hub cycle. -/
theorem registerWrite_later {w : HubWrite} {s : State} {p : Place} (hw : w.host = false) (hf : s.firmwareRuns = true)
    (hp : placeOf w.off = p) (hn : p.nextCycle = true) : exec (.registerWrite w) s = .next (s.writeLater w.off w.val) := by
  rw [registerWrite_firmware hw hf, State.firmwareWrite_later w.val (hp ▸ hn)]

theorem registerWrite_partLater {w : HubWrite} {s : State} {n k : Nat} (hw : w.host = false) (hf : s.firmwareRuns = true) (hn : n < 8)
    (hk : k ∈ [0x08, 0x10, 0x18, 0x20, 0x40, 0x48]) (ho : w.off = 0x100000 + 0x10000 * n + k) :
    exec (.registerWrite w) s = .next (s.writeLater w.off w.val) := by
  have hb : k < 0x10000 ∧ k % 8 = 0 := by
    clear ho
    revert k
    decide
  exact registerWrite_later hw hf (ho ▸ placeOf_part hn hb.1 hb.2) (by simpa [Place.nextCycle] using hk)

theorem registerWrite_crrd {w : HubWrite} {s : State} {n : Nat} (h : s.firmwareRuns = true ∨ w.host = true ∧ s.cfg.recordOk = true)
    (hn : n < 8) (ho : w.off = 0x100058 + 0x10000 * n) : exec (.registerWrite w) s =
      .next (s.modPart n fun p => { p with crrd := w.val.extractLsb' 0 32 }) := by
  have hp : placeOf w.off = .part n 0x58 := by
    rw [show w.off = 0x100000 + 0x10000 * n + 0x58 by omega]
    exact placeOf_part hn (by decide) rfl
  rw [registerWrite_shared h hp rfl rfl rfl]
  simp only [State.placeWrite, State.writePart, low32, ofNat_bits]

theorem registerWrite_ring {w : HubWrite} {s : State} {n q k : Nat} (h : s.firmwareRuns = true ∨ w.host = true ∧ s.cfg.recordOk = true)
    (hn : n < 8) (hq : q < 64) (hk : k < 4096) (ho : w.off = 0x2000000 + 0x400000 * n + 0x10000 * q + 0x8000 + 8 * k) :
    exec (.registerWrite w) s = .next (s.modQueue n q fun x => { x with ring := Table.put x.ring 0 k w.val }) := by
  have hp : placeOf w.off = .queue n q (0x8000 + 8 * k) := by
    rw [show w.off = 0x2000000 + 0x400000 * n + 0x10000 * q + (0x8000 + 8 * k) by omega]
    exact placeOf_queue hn hq (by omega) (by omega)
  rw [registerWrite_shared h hp rfl rfl rfl]
  exact congrArg _ (State.writeQueue_ring n q k w.val (h.elim State.recordOk_of_firmwareRuns fun h => h.2))

theorem State.applyLater_partPage (n : Nat) (v : Word) (s : State) (hn : n < 8) (hl : s.hub.later = []) :
    let low := (v.extractLsb' 0 32).toNat
    let at_ (k : Nat) : State := (s.writeLater (0x100000 + 0x10000 * n + k) v).applyLater
    at_ 0x08 = (s.modPart n fun p => { p with linkmode := v.extractLsb' 0 2 }) ∧
    at_ 0x10 = (s.modPart n fun p => { p with ageLimit := max 10 (min 1000000 low) }) ∧
    at_ 0x18 = (s.modPart n fun p => { p with resLimit := max 10 (min 1000000 low) }) ∧
    at_ 0x20 = (s.modPart n fun p => { p with urgLimit := max 1 (min 10000 low) }) ∧
    at_ 0x40 = (s.modPart n fun p => { p with crbase := v &&& 0x000F_FFFF_FFFF_FFF0#64 }) ∧
    (∀ k ≤ 8, v.extractLsb' 0 17 = BitVec.ofNat 17 (2 ^ (8 + k)) → at_ 0x48 = (s.modPart n fun p => { p with crsize := 2 ^ (8 + k) })) ∧
    (s.writeLater 0x10048 v).applyLater = (s.modJoin fun j => { j with hold := low }) := by
  have hp {k : Nat} (hk : k < 0x10000) (h8 : k % 8 = 0) := State.applyLater_part v hl hn hk h8
  dsimp only
  rw [hp (k := 0x08) (by decide) rfl, hp (k := 0x10) (by decide) rfl, hp (k := 0x18) (by decide) rfl, hp (k := 0x20) (by decide) rfl,
    hp (k := 0x40) (by decide) rfl, hp (k := 0x48) (by decide) rfl, State.applyLater_writeLater _ v hl, ← bits_eq_extractLsb']
  refine ⟨?_, rfl, rfl, rfl, ?_, fun k hk h => State.writePart_crsize hk h, rfl⟩
  · simp only [State.writePart, ofNat_bits]
  · simp only [State.writePart, ofNat_bits_crbase]

/-! ## A cell after a reset of its partition (27 R463, log 58) -/

theorem Ctx.emptied_dropWork (x : Ctx) : x.dropWork.emptied.hold = .finished ∧ x.dropWork.emptied.dq = [] ∧ x.dropWork.emptied.vq = [] ∧
    x.dropWork.emptied.chan = [] ∧ x.dropWork.emptied.flights = [] ∧ x.dropWork.emptied.ops = [] ∧
    x.dropWork.emptied.tokens = List.replicate 16 0 ∧ x.dropWork.emptied.cut = none := ⟨rfl, rfl, rfl, rfl, rfl, rfl, rfl, rfl⟩

theorem Cell.resetImage_none {l : Cell} (free : Bool) (h : l.shadow = none) : l.resetImage free = l := by
  simp only [Cell.resetImage, h]

theorem Cell.resetImage_power {l : Cell} {i : Image} (free : Bool) (h : l.shadow = some i) (hp : i.power = true) :
    l.resetImage free = { l with shadow := some { i with a := i.a.dropWork.emptied, b := i.b.dropWork.emptied } } := by
  simp only [Cell.resetImage, h, hp, if_true]

theorem Cell.resetImage_parked {l : Cell} {i : Image} (free : Bool) (h : l.shadow = some i) (hp : i.power = false) :
    l.resetImage free = { l with shadow := none, cb := if free then i.cb else l.cb } := by
  simp only [Cell.resetImage, h, hp, Bool.false_eq_true, if_false]

theorem State.resetPart_cells {s : State} {part n : Nat} (hn : n ∈ s.cellsOf part) :
    ((s.cell n).shadow = none → ((s.resetPart part).cell n).shadow = none ∧ ((s.resetPart part).cell n).cb = (s.cell n).cb) ∧
      ∀ i, (s.cell n).shadow = some i →
        (i.power = true → ∃ j, ((s.resetPart part).cell n).shadow = some j ∧ j.power = true ∧ j.cb = i.cb ∧ j.a.hold = .finished ∧
          j.b.hold = .finished) ∧
        (i.power = false → ((s.resetPart part).cell n).shadow = none ∧
          ((s.resetPart part).cell n).cb = if s.cellFree n then i.cb else (s.cell n).cb) := by
  rw [State.cell_resetPart hn]
  refine ⟨fun h => ?_, fun i hi => ⟨fun hp => ?_, fun hp => ?_⟩⟩
  · rw [Cell.resetImage_none _ h]
    exact ⟨h, rfl⟩
  · rw [Cell.resetImage_power _ hi hp]
    exact ⟨_, rfl, hp, rfl, rfl, rfl⟩
  · rw [Cell.resetImage_parked _ hi hp]
    exact ⟨rfl, rfl⟩

/-- A checksum retry of a link of the hub counts 16 against the cell (26 R455). -/
theorem hubLinkChecksumRetry_run {cell : Nat} (s : State) (h : cell < 256) :
    exec (.hubLinkChecksumRetry cell) s = .next (s.suspect cell 16) := by
  simp [execHubLinkChecksumRetry, cellCount, h]

/-! ## The statement -/

/-- Settles O50, clause by clause: firmware's guard, modes, records, the window, then partitions and the device; a reset by its fold
over the cells of the partition. -/
theorem registerAndPartitionSteps : Obligations.RegisterAndPartitionSteps := by
  unfold Obligations.RegisterAndPartitionSteps
  refine ⟨fun i s => firmwareStep_off, fun cell v s hc hf => ?mode, fun cell m s hm => ?held,
    fun cell v s => reliabilityStateWrite_run v, fun w s => ?window, fun n v s => State.applyLater_partPage n v s,
    fun part s hf => ⟨⟨_, partitionReset_run part hf, ?reset⟩, ⟨_, capabilityFault_run part hf, ?fault⟩⟩,
    fun part s hf => ⟨partitionReset_run part hf, capabilityFault_run part hf⟩,
    fun cell part s hf hc hd hm => ⟨_, cellRepartition_run hf hc hd hm, ?move⟩,
    fun p s hf hp hd hi hc => ⟨_, partitionCreation_run hf hp hd hi hc, ?create⟩,
    fun cell s hf ht hc => ⟨_, leaveTenant_run hf ht hc, ?leave⟩, fun cfg s => ⟨_, rfl, ?device⟩, fun cell s => hubLinkChecksumRetry_run s⟩
  case mode =>
    have hrun := cellmodeWrite_run v hc hf
    refine ⟨fun h => ?_, fun h hi => ?_, fun h hi => ?_⟩
    · rw [hrun, if_pos h]
      rfl
    · rw [hrun, if_neg (by omega), if_pos hi]
      simp only [Cell.setMode_of_lt _ h]
      rfl
    · rw [hrun, if_neg (by omega), if_neg (by simp [hi])]
      rfl
  case held =>
    refine ⟨fun hi => ?_, fun hi => ?_⟩
    · simp [execCellmodeHeldApply, hm, hi, Cell.setMode_eq]
    · simp [execCellmodeHeldApply, hm, hi]
  case window =>
    refine ⟨registerWrite_refused, fun hw hf c hc => ?_,
      fun hw hf n hn => ⟨registerWrite_ptroot hw hf hn, fun k => registerWrite_partLater hw hf hn⟩,
      fun hw hf h1 h2 h8 => registerWrite_later hw hf (placeOf_join h1 h2 h8) rfl,
      fun h n hn => registerWrite_crrd h hn, fun h n hn q hq k => registerWrite_ring h hn hq⟩
    rw [registerWrite_firmware hw hf, State.firmwareWrite_counter w.val hc]
  case reset =>
    refine ⟨?_, ?_, fun n => State.resetPart_cells, fun n hn h => ⟨_, State.failureOf_resetPart hn h, rfl, rfl⟩, fun c hc => ?_⟩
    · rw [State.part_resetPart]
      rfl
    · rw [State.part_resetPart]
      rfl
    · rw [State.ctx_resetPart hc]
      exact Ctx.emptied_dropWork _
  case fault =>
    rw [State.resetPart_replies]
    exact ⟨rfl, rfl⟩
  case move =>
    obtain ⟨hp, hcache⟩ := s.cell_moveCell cell part
    refine ⟨hp, hcache, fun k => ?_⟩
    rw [State.ctx_moveCell s part (c := ⟨cell, k⟩) rfl]
    exact ⟨rfl, rfl, rfl, Ctx.moved_str _ part⟩
  case create =>
    obtain ⟨hparts, hdebug⟩ := State.moveCells_hub p.cells p.part
      ((s.modPart p.part fun x => x.created p.tenant).modHub fun h => { h with debug := Table.set h.debug p.part 0 })
    have hpart : ((s.modPart p.part fun x => x.created p.tenant).part p.part) = (s.part p.part).created p.tenant := by simp
    refine ⟨?_, ?_, ?_, fun n hn => State.part_moveCells (.inl hn)⟩
    · rw [State.part, hparts]
      exact congrArg Partition.defined hpart
    · rw [State.part, hparts]
      exact congrArg Partition.tenant hpart
    · rw [hdebug]
      exact Table.get_set_same _ _ _ _
  case leave =>
    rw [State.cell_leaveTenant]
    refine ⟨rfl, rfl, rfl, rfl, rfl, rfl, fun k => ?_, fun i r hi h => State.failureOf_leaveTenant hi h⟩
    rw [State.ctx_leaveTenant s (c := ⟨cell, k⟩) rfl]
    exact ⟨rfl, rfl⟩
  case device =>
    refine ⟨rfl, rfl, rfl, rfl, rfl, fun h => if_pos h, rfl, rfl, fun n hn => ?_⟩
    have hcell : Table.get ((List.range cellCount).map fun n => (n, cellAfter cfg n)) Cell.init n = cellAfter cfg n :=
      Table.get_map_pair _ (cellAfter cfg) Cell.init (List.mem_range.mpr hn)
    exact ⟨(congrArg Cell.state hcell).trans (cellAfter_state cfg n), (congrArg Cell.ab hcell).trans (cellAfter_ab cfg n)⟩

end Sys2Proof.Machine

/-!
SUPPORT. The encoder and the decoder agree: what the decoder reads from each packed layout, one theorem per stream over its opcode map,
and the statements on decoding (04 R81 to R96).
-/
namespace Sys2Proof

/-! ## What the decoder reads from a packed word (04 R81, R86, R90, R93) -/

theorem field_eq_iff {n lo w : Nat} {v : BitVec w} : field n lo w = v ↔ n / 2 ^ lo % 2 ^ w = v.toNat := by
  rw [field, ← BitVec.toNat_inj, BitVec.toNat_ofNat]

theorem bitAt_eq_iff {n lo : Nat} {b : Bool} : bitAt n lo = b ↔ n / 2 ^ lo % 2 = b.toNat := by
  cases b <;> simp [bitAt]

@[simp] theorem SR.read_pack {op f : Nat} (o : SR) (hop : op < 64) (hf : f < 16) :
    o.pack op f < 0x100000000 ∧ opOf (o.pack op f) = op ∧ fn (o.pack op f) = f ∧ unpack (o.pack op f) = o := by
  obtain ⟨j, d, a, b, ka, kb, g⟩ := o
  have hj := j.toNat_lt
  have hka := ka.toNat_lt
  have hkb := kb.toNat_lt
  simp only [unpack, mk.injEq, bitAt_eq_iff, field_eq_iff, opOf, fn, pack]
  and_intros <;> omega

@[simp] theorem SI.read_pack {op : Nat} (o : SI) (hop : op < 64) :
    o.pack op < 0x100000000 ∧ opOf (o.pack op) = op ∧ unpack (o.pack op) = o := by
  obtain ⟨j, d, a, ka, g, imm⟩ := o
  have hj := j.toNat_lt
  have hka := ka.toNat_lt
  simp only [unpack, mk.injEq, bitAt_eq_iff, field_eq_iff, opOf, pack]
  and_intros <;> omega

@[simp] theorem SL.read_pack {op : Nat} (o : SL) (hop : op < 64) :
    o.pack op < 0x100000000 ∧ opOf (o.pack op) = op ∧ unpack (o.pack op) = o := by
  obtain ⟨j, d, g, imm⟩ := o
  have hj := j.toNat_lt
  simp only [unpack, mk.injEq, bitAt_eq_iff, field_eq_iff, opOf, pack]
  and_intros <;> omega

@[simp] theorem SB.read_pack {op : Nat} (o : SB) (hop : op < 64) :
    o.pack op < 0x100000000 ∧ opOf (o.pack op) = op ∧ unpack (o.pack op) = o := by
  obtain ⟨j, g, off⟩ := o
  have hj := j.toNat_lt
  simp only [unpack, mk.injEq, bitAt_eq_iff, field_eq_iff, opOf, pack]
  and_intros <;> omega

@[simp] theorem SBZ.read_pack {op : Nat} (o : SBZ) (hop : op < 64) :
    o.pack op < 0x100000000 ∧ opOf (o.pack op) = op ∧ unpack (o.pack op) = o := by
  obtain ⟨j, a, ka, off⟩ := o
  have hj := j.toNat_lt
  have hka := ka.toNat_lt
  simp only [unpack, mk.injEq, bitAt_eq_iff, field_eq_iff, opOf, pack]
  and_intros <;> omega

@[simp] theorem SM.read_pack {op : Nat} (o : SM) (hop : op < 64) :
    o.pack op < 0x100000000 ∧ opOf (o.pack op) = op ∧ unpack (o.pack op) = o := by
  obtain ⟨j, d, a, ka, kd, sz, ord, obs, g⟩ := o
  have hj := j.toNat_lt
  have hka := ka.toNat_lt
  have hkd := kd.toNat_lt
  simp only [unpack, mk.injEq, bitAt_eq_iff, field_eq_iff, opOf, pack]
  and_intros <;> omega

@[simp] theorem SX.read_pack {op f : Nat} (o : SX) (hop : op < 64) (hf : f < 256) :
    o.pack op f < 0x100000000 ∧ opOf (o.pack op f) = op ∧ fn (o.pack op f) = f ∧ unpack (o.pack op f) = o := by
  obtain ⟨j, d, a, b, ka, kb⟩ := o
  have hj := j.toNat_lt
  have hka := ka.toNat_lt
  have hkb := kb.toNat_lt
  simp only [unpack, mk.injEq, bitAt_eq_iff, field_eq_iff, opOf, fn, pack]
  and_intros <;> omega

@[simp] theorem SF.read_pack {op f : Nat} (o : SF) (hop : op < 64) (hf : f < 8) :
    o.pack op f < 0x100000000 ∧ opOf (o.pack op f) = op ∧ fn (o.pack op f) = f ∧ unpack (o.pack op f) = o := by
  obtain ⟨j, obs⟩ := o
  have hj := j.toNat_lt
  simp only [unpack, mk.injEq, bitAt_eq_iff, field_eq_iff, opOf, fn, pack]
  and_intros <;> omega

@[simp] theorem SC.read_pack {op : Nat} (o : SC) (hop : op < 64) :
    o.pack op < 0x100000000 ∧ opOf (o.pack op) = op ∧ unpack (o.pack op) = o := by
  obtain ⟨j, d, a, ka, csr⟩ := o
  have hj := j.toNat_lt
  have hka := ka.toNat_lt
  simp only [unpack, mk.injEq, bitAt_eq_iff, field_eq_iff, opOf, pack]
  and_intros <;> omega

@[simp] theorem SLP.read_pack {op : Nat} (o : SLP) (hop : op < 64) :
    o.pack op < 0x100000000 ∧ opOf (o.pack op) = op ∧ unpack (o.pack op) = o := by
  obtain ⟨j, lv, a, ka, last⟩ := o
  have hj := j.toNat_lt
  have hlv := lv.toNat_lt
  have hka := ka.toNat_lt
  simp only [unpack, mk.injEq, bitAt_eq_iff, field_eq_iff, opOf, pack]
  and_intros <;> omega

@[simp] theorem SLI.read_pack {op : Nat} (o : SLI) (hop : op < 64) :
    o.pack op < 0x100000000 ∧ opOf (o.pack op) = op ∧ unpack (o.pack op) = o := by
  obtain ⟨j, lv, count, last⟩ := o
  have hj := j.toNat_lt
  have hlv := lv.toNat_lt
  simp only [unpack, mk.injEq, bitAt_eq_iff, field_eq_iff, opOf, pack]
  and_intros <;> omega

@[simp] theorem SLM.read_pack {op : Nat} (o : SLM) (hop : op < 64) :
    o.pack op < 0x100000000 ∧ opOf (o.pack op) = op ∧ unpack (o.pack op) = o := by
  obtain ⟨j, ii, stages, rb, a, ka⟩ := o
  have hj := j.toNat_lt
  have hrb := rb.toNat_lt
  have hka := ka.toNat_lt
  simp only [unpack, mk.injEq, bitAt_eq_iff, field_eq_iff, opOf, pack]
  and_intros <;> omega

@[simp] theorem VR.read_pack {op f : Nat} (o : VR) (hop : op < 64) (hf : f < 32) :
    o.pack op f < 0x100000000 ∧ opOf (o.pack op f) = op ∧ fn (o.pack op f) = f ∧ unpack (o.pack op f) = o := by
  obtain ⟨j, d, a, b, ka, kb, gm, et⟩ := o
  have hj := j.toNat_lt
  have hka := ka.toNat_lt
  have hkb := kb.toNat_lt
  simp only [unpack, mk.injEq, bitAt_eq_iff, field_eq_iff, opOf, fn, pack]
  and_intros <;> omega

@[simp] theorem VI.read_pack {op : Nat} (o : VI) (hop : op < 64) :
    o.pack op < 0x100000000 ∧ opOf (o.pack op) = op ∧ unpack (o.pack op) = o := by
  obtain ⟨j, d, a, ka, gm, et, imm⟩ := o
  have hj := j.toNat_lt
  have hka := ka.toNat_lt
  simp only [unpack, mk.injEq, bitAt_eq_iff, field_eq_iff, opOf, pack]
  and_intros <;> omega

@[simp] theorem VM.read_pack {op : Nat} (o : VM) (hop : op < 64) :
    o.pack op < 0x100000000 ∧ opOf (o.pack op) = op ∧ unpack (o.pack op) = o := by
  obtain ⟨j, d, a, ka, kd, gm, et, sp, off⟩ := o
  have hj := j.toNat_lt
  have hka := ka.toNat_lt
  have hkd := kd.toNat_lt
  simp only [unpack, mk.injEq, bitAt_eq_iff, field_eq_iff, opOf, pack]
  and_intros <;> omega

@[simp] theorem VA.read_pack {op f : Nat} (o : VA) (hop : op < 64) (hf : f < 16) :
    o.pack op f < 0x100000000 ∧ opOf (o.pack op f) = op ∧ fn (o.pack op f) = f ∧ unpack (o.pack op f) = o := by
  obtain ⟨j, d, a, ka, imm⟩ := o
  have hj := j.toNat_lt
  have hka := ka.toNat_lt
  simp only [unpack, mk.injEq, bitAt_eq_iff, field_eq_iff, opOf, fn, pack]
  and_intros <;> omega

@[simp] theorem VC.read_pack {op : Nat} (o : VC) (hop : op < 64) :
    o.pack op < 0x100000000 ∧ opOf (o.pack op) = op ∧ unpack (o.pack op) = o := by
  obtain ⟨j, e, fr, x, kx, gm, mode⟩ := o
  have hj := j.toNat_lt
  have hkx := kx.toNat_lt
  simp only [unpack, mk.injEq, bitAt_eq_iff, field_eq_iff, opOf, pack]
  and_intros <;> omega

@[simp] theorem VW.read_pack {op : Nat} (o : VW) (hop : op < 64) :
    o.pack op < 0x100000000 ∧ opOf (o.pack op) = op ∧ unpack (o.pack op) = o := by
  obtain ⟨j, d, a, ka, wd, gm, et, mode⟩ := o
  have hj := j.toNat_lt
  have hka := ka.toNat_lt
  simp only [unpack, mk.injEq, bitAt_eq_iff, field_eq_iff, opOf, pack]
  and_intros <;> omega

@[simp] theorem MA.read_pack {op : Nat} (o : MA) (hop : op < 64) :
    o.pack op < 0x100000000 ∧ opOf (o.pack op) = op ∧ unpack (o.pack op) = o := by
  obtain ⟨j, a, b, c, k1, k2, k3, g, mode⟩ := o
  have hj := j.toNat_lt
  have hk1 := k1.toNat_lt
  have hk2 := k2.toNat_lt
  have hk3 := k3.toNat_lt
  simp only [unpack, mk.injEq, bitAt_eq_iff, field_eq_iff, opOf, pack]
  and_intros <;> omega

@[simp] theorem MS.read_pack {op f : Nat} (o : MS) (hop : op < 64) (hf : f < 64) :
    o.pack op f < 0x100000000 ∧ opOf (o.pack op f) = op ∧ fn (o.pack op f) = f ∧ unpack (o.pack op f) = o := by
  obtain ⟨j, a⟩ := o
  have hj := j.toNat_lt
  simp only [unpack, mk.injEq, bitAt_eq_iff, field_eq_iff, opOf, fn, pack]
  and_intros <;> omega

@[simp] theorem Ext.read_pack (x : Ext) : x.pack < 0x100000000 ∧ unpack x.pack = x := by
  obtain ⟨obs, ord, c, kc⟩ := x
  have hkc := kc.toNat_lt
  simp only [unpack, mk.injEq, bitAt_eq_iff, field_eq_iff, pack]
  and_intros <;> omega

/-- The conversion code of CVT is its function field (04 R92). -/
theorem read_cvt (o : VR) (code : BitVec 5) : let n := o.pack 5 code.toNat
    n < 0x100000000 ∧ opOf n = 5 ∧ field n 0 5 = code ∧ .unpack n = o := by
  obtain ⟨hlt, hop, hfn, ho⟩ := o.read_pack (op := 5) (by decide) code.isLt
  exact ⟨hlt, hop, field_eq_iff.mpr hfn, ho⟩

/-- What V reads from the word of a NOP with a guard (04 R84, R92). -/
theorem read_guardedNop (j : Bool) (g : BitVec 4) :
    let n := 2 ^ 31 * j.toNat + 2 ^ 7 * g.toNat
    n < 0x100000000 ∧ opOf n = 0 ∧ VR.fn n = 0 ∧ bitAt n 31 = j ∧ field n 7 4 = g := by
  have hj := j.toNat_lt
  simp only [bitAt_eq_iff, field_eq_iff, opOf, VR.fn]
  and_intros <;> omega

/-! ## The opcode maps read what the encoder wrote -/

/-- The decoder finds `i` in the words `ns`: one word, or the two of a pair (04 R82). -/
inductive Recovers (st : Stream) (i : Instr) : List Nat → Prop
  | one {n : Nat} (fits : n < 0x100000000) (words : i.words = 1) (single : isPair st n = false) (found : cand st n 0 = i) :
    Recovers st i [n]
  | two {n m : Nat} (fits : n < 0x100000000) (fits' : m < 0x100000000) (words : i.words = 2) (pair : isPair st n = true)
    (found : cand st n m = i) : Recovers st i [n, m]

/-- Outside V the encoder has no word for a NOP with a guard. -/
theorem plainNop_word {st : Stream} {j : Bool} {g : BitVec 4} {ns : List Nat} (hst : st ≠ .v) (h : encodeNat st (.nop j g) = some ns) :
    g = 0#4 ∧ [2 ^ 31 * j.toNat] = ns := by
  have h' : (if g = 0#4 then some [2 ^ 31 * j.toNat] else none) = some ns := by
    cases st with
    | v => exact absurd rfl hst
    | s | m | x => exact h
  simpa using h'

/-- LQPOP and LQPOP.nb differ in B (04 R88). -/
theorem lqpop_wf_of_lqpopNb {o : SX} (h : (Instr.lqpopNb o).wf = true) : (Instr.lqpop o).wf = false := by
  change (o.a == 0#5 && o.b == 1#5 && o.ka == false && o.kb == false) = true at h
  change (o.a == 0#5 && o.b == 0#5 && o.ka == false && o.kb == false) = false
  simp_all

/-- The two forms of RCBINV differ in MODE[6:5]. -/
theorem rcbinv_wf_of_rcbinvEnc {o : VC} (h : (Instr.rcbinvEnc o).wf = true) : (Instr.rcbinv o).wf = false := by
  change (o.fr == 0#4 && o.mode &&& 96#7 == 64#7 && _) = true at h
  change (o.fr == 0#4 && o.mode &&& 96#7 == 0#7 && _) = false
  simp_all

/-- The two forms of MFMT differ in MODE[5:4]. -/
theorem mfmt_wf_of_mfmtT {o : MA} (h : (Instr.mfmtT o).wf = true) : (Instr.mfmt o).wf = false := by
  change (_ && o.mode &&& 48#6 == 16#6 && _ && _) = true at h
  change (_ && o.mode &&& 48#6 == 0#6 && _ && _) = false
  simp_all

/-- XRED and its saturating form differ in MODE[4]. -/
theorem xred_wf_of_xreds {o : MA} (h : (Instr.xreds o).wf = true) : (Instr.xred o).wf = false := by
  change (o.mode &&& 16#6 == 16#6 && _ && _) = true at h
  change (o.mode &&& 16#6 == 0#6 && _ && _) = false
  simp_all

/-! In each stream's map, only the forms that share an opcode and function, the pairs and the words without a layout need an argument of
their own; any other word is found by what `read_pack` says of its layout. -/

theorem recovers_s {i : Instr} {ns : List Nat} (hw : i.wf = true) (h : encodeNat .s i = some ns) : Recovers .s i ns := by
  cases i
  case nop j g =>
    obtain ⟨rfl, rfl⟩ := plainNop_word (by decide) h
    cases j <;> exact .one (by decide) rfl rfl rfl
  all_goals cases h
  case lqpop o => exact .one (by simp) rfl (by simp [isPair]) (by simp [cand, candS, hw])
  case lqpopNb o => exact .one (by simp) rfl (by simp [isPair]) (by simp [cand, candS, lqpop_wf_of_lqpopNb hw])
  case cas size o x =>
    cases size <;> exact .two (by simp) (by simp) rfl (by simp [isPair]) (by simp [cand, candS])
  case amoAdd | amoAnd | amoOr | amoXor | amoMin | amoMax | amoMinu | amoMaxu | amoSwap | amoFadd =>
    exact .two (by simp) (by simp) rfl (by simp [isPair]) (by simp [cand, candS])
  case halt => exact .one (by decide) rfl (by decide) (by decide)
  all_goals exact .one (by simp) rfl (by simp [isPair]) (by simp [cand, candS])

theorem recovers_v {i : Instr} {ns : List Nat} (hw : i.wf = true) (h : encodeNat .v i = some ns) : Recovers .v i ns := by
  cases i
  all_goals cases h
  case nop j g =>
    obtain ⟨hlt, hop, hfn, hj, hg⟩ := read_guardedNop j g
    generalize 2 ^ 31 * j.toNat + 2 ^ 7 * g.toNat = n at hlt hop hfn hj hg ⊢
    exact .one hlt rfl rfl (by simp [cand, candV, hop, hfn, hj, hg])
  case vHalt => exact .one (by decide) rfl rfl rfl
  case cvt o code =>
    obtain ⟨hlt, hop, hcode, ho⟩ := read_cvt o code
    exact .one hlt rfl rfl (by simp [cand, candV, hop, hcode, ho])
  case rcbinv o => exact .one (by simp) rfl rfl (by simp [cand, candV, hw])
  case rcbinvEnc o => exact .one (by simp) rfl rfl (by simp [cand, candV, rcbinv_wf_of_rcbinvEnc hw])
  all_goals exact .one (by simp) rfl rfl (by simp [cand, candV])

theorem recovers_m {i : Instr} {ns : List Nat} (hw : i.wf = true) (h : encodeNat .m i = some ns) : Recovers .m i ns := by
  cases i
  case nop j g =>
    obtain ⟨rfl, rfl⟩ := plainNop_word (by decide) h
    cases j <;> exact .one (by decide) rfl rfl rfl
  all_goals cases h
  case mHalt => exact .one (by decide) rfl (by decide) (by decide)
  case mfmt o => exact .one (by simp) rfl (by simp [isPair]) (by simp [cand, candM, hw])
  case mfmtT o => exact .one (by simp) rfl (by simp [isPair]) (by simp [cand, candM, mfmt_wf_of_mfmtT hw])
  case mkat o sig => exact .two (by simp) sig.isLt rfl (by simp [isPair]) (by simp [cand, candM])
  all_goals exact .one (by simp) rfl (by simp [isPair]) (by simp [cand, candM])

theorem recovers_x {i : Instr} {ns : List Nat} (hw : i.wf = true) (h : encodeNat .x i = some ns) : Recovers .x i ns := by
  cases i
  case nop j g =>
    obtain ⟨rfl, rfl⟩ := plainNop_word (by decide) h
    cases j <;> exact .one (by decide) rfl rfl rfl
  all_goals cases h
  case xHalt => exact .one (by decide) rfl rfl rfl
  case xred o => exact .one (by simp) rfl rfl (by simp [cand, candX, hw])
  case xreds o => exact .one (by simp) rfl rfl (by simp [cand, candX, xred_wf_of_xreds hw])
  all_goals exact .one (by simp) rfl rfl (by simp [cand, candX])

/-- Every word that the encoder writes for a well-formed instruction is found in its stream's map. -/
theorem recovers_of_encodeNat {st : Stream} {i : Instr} {ns : List Nat} (hw : i.wf = true) (h : encodeNat st i = some ns) :
    Recovers st i ns := by
  cases st with
  | s => exact recovers_s hw h
  | v => exact recovers_v hw h
  | m => exact recovers_m hw h
  | x => exact recovers_x hw h

/-! ## The statements -/

/-- Settles O56: `decodeWords` keeps what the map finds, as it is well formed and encodes to the words themselves. -/
theorem decodeGivesBackEncode : Obligations.DecodeGivesBackEncode := by
  unfold Obligations.DecodeGivesBackEncode
  intro st i ws hw h
  obtain ⟨ns, hns, rfl⟩ := Option.map_eq_some_iff.mp h
  cases recovers_of_encodeNat hw hns with
  | one fits words single found =>
    refine ⟨words.symm, ?_⟩
    simp [decodeWords, Nat.mod_eq_of_lt fits, found, hw, single, h]
  | two fits fits' words pair found =>
    refine ⟨words.symm, ?_⟩
    simp [decodeWords, Nat.mod_eq_of_lt fits, Nat.mod_eq_of_lt fits', found, hw, pair, h]

/-- Settles O55: a word that the encoder writes for a well-formed instruction decodes to it; the last word sets a bit of
SX's [2:0], which must be zero. -/
theorem wordsOfTheSpecDecode : Obligations.WordsOfTheSpecDecode := by
  unfold Obligations.WordsOfTheSpecDecode
  have back (st : Stream) (i : Instr) (ws : List (BitVec 32)) (hw : i.wf = true) (h : encode st i = some ws) :=
    (decodeGivesBackEncode st i ws hw h).2
  refine ⟨back .s _ [0x02308920] rfl rfl, back .s _ [0x1C40FFFE] rfl rfl, back .s _ [0x2E37FFFC] rfl rfl,
    back .s _ [0x38519000, 0x0E100000] rfl rfl, back .v _ [0x06624040] rfl rfl, back .m _ [0x02000003] rfl rfl,
    back .x _ [0x04800000] rfl rfl, rfl⟩

end Sys2Proof

/-!
SUPPORT. What a word with a guard runs, and the statement on false guards (04 R83 to R85).
-/
namespace Sys2Proof.Machine

/-! ## A false guard (04 R85) -/

theorem finish_guarded_false {g : BitVec 4} {len : Nat} {call : Bool} {body : Act Flow} {s : State} (hk : s.predKnown g.toNat = true)
    (hf : (s.ctx s.cur).cond g.toNat = false) : finish len call (guarded g body) s = .next (s.retired len) :=
  finish_seq (guarded_false hk hf) rfl rfl

theorem vMask_false {gm : BitVec 4} {s : State} (h8 : 8 ≤ gm.toNat) (hf : (s.ctx s.cur).cond gm.toNat = false) :
    vMask gm s = .ok (none, s) := by
  have hps : (s.ctx s.cur).ps (gm.toNat - 8) = false := by simpa [Ctx.cond, Nat.not_lt.mpr h8] using hf
  unfold vMask
  rw [if_neg (Nat.not_lt.mpr h8), Act.bind_ok (cx_run s), hps]
  rfl

/-- A V word whose guard is false does what it does of the mask `none`. -/
theorem finish_vMask_false {gm : BitVec 4} {len : Nat} {k : Option Mask → Act Flow} {s t : State} (h8 : 8 ≤ gm.toNat)
    (hf : (s.ctx s.cur).cond gm.toNat = false) (hn : k none s = .ok (.seq, t)) (hc : t.cur = s.cur) (hs : t.curSt = s.curSt) :
    finish len false (vMask gm >>= k) s = .next (t.retired len) :=
  finish_seq ((Act.bind_ok (vMask_false h8 hf)).trans hn) hc hs

/-! ## The words with a guard -/

/-- The meaning of `i` in `s` is a body under the guard `g` of the S, M and X formats. -/
def RunsGuarded (i : Instr) (g : BitVec 4) (n : Nat) (s : State) : Prop :=
  ∃ call body, exec i s = finish n call (guarded g body) s

/-- The meaning of `i` in `s` goes by the mask or guard `gm`; with no mask it does `none'` (04 R84). -/
def RunsMasked (i : Instr) (gm : BitVec 4) (n : Nat) (s : State) (none' : Act Flow) : Prop :=
  ∃ k, k none = none' ∧ exec i s = finish n false (vMask gm >>= k) s

theorem GuardRow.runsGuarded {i : Instr} {st : Stream} {g : BitVec 4} {n : Nat} {s : State} (h : GuardRow i st g n)
    (hs : s.curSt = st) (hv : st ≠ .v) : RunsGuarded i g n s := by
  cases st with
  | v => exact absurd rfl hv
  | s | m | x =>
    cases h with
    | nop => exact ⟨false, _, if_neg (hs ▸ hv)⟩
    | _ => exact ⟨_, _, rfl⟩

/-- Without a mask, a V word that no counter counts does nothing. -/
theorem GuardRow.runsMasked {i : Instr} {g : BitVec 4} {n : Nat} {s : State} (h : GuardRow i .v g n) (hs : s.curSt = .v)
    (hc : ¬ CountedRow i) : RunsMasked i g n s (pure .seq) := by
  cases h
  case nop => exact ⟨_, rfl, if_pos hs⟩
  case fadd | fsub | fmul | fma | fmin | fmax | fabs | fneg | frcp | frsq | fsqrt | fexp2 | flog2 | cvt | radd | rfadd | rmin | rmax
      | rminu | rmaxu | rand | vredRor | rxor | rimax | vscan | vfscan => exact absurd (by constructor) hc
  all_goals exact ⟨_, rfl, rfl⟩

/-- Without a mask, a word of FALU, FSPEC, CVT or VRED is counted and does nothing else (26 R450). -/
theorem CountedRow.runsMasked {i : Instr} {st : Stream} {g : BitVec 4} {n : Nat} {s : State} (hc : CountedRow i) (h : GuardRow i st g n) :
    st = .v ∧ RunsMasked i g n s (do countEvent 8 1; pure .seq) := by
  cases hc
  all_goals cases h; exact ⟨rfl, _, rfl, rfl⟩

/-- Settles O52: a false guard of S, M and X ends the word before its body, one of V leaves only what the word does of no mask. -/
theorem falseGuardsRetire : Obligations.FalseGuardsRetire := by
  unfold Obligations.FalseGuardsRetire
  intro i st g n s row hst h8 hk hf
  refine ⟨fun hc => ?plain, fun hc => ?counted⟩
  case plain =>
    by_cases hv : st = .v
    · subst hv
      obtain ⟨k, hn, hrun⟩ := row.runsMasked hst hc
      rw [hrun, finish_vMask_false (h8 rfl) hf (congrFun hn s) rfl rfl]
    · obtain ⟨call, body, hrun⟩ := row.runsGuarded hst hv
      rw [hrun, finish_guarded_false hk hf]
  case counted =>
    obtain ⟨rfl, k, hn, hrun⟩ := hc.runsMasked row
    rw [hrun]
    exact finish_vMask_false (h8 rfl) hf (congrFun hn s) rfl rfl

end Sys2Proof.Machine

/-!
SUPPORT. What the reads of a V word leave alone, the counted words of V (26 R450), the draws of a stochastic word (05 R113), and the
statement on conversions.
-/
namespace Sys2Proof.Machine

/-! ## What the start of a V word and its reads leave alone -/

/-- The body of a V word runs in the state before it, or under its stage predicate. -/
theorem State.begun_v_eq (s : State) (gm : BitVec 4) : s.begun .v gm = s ∨ s.begun .v gm = s.entered gm := by
  by_cases h : gm.toNat < 8 <;> simp [State.begun, h]

@[simp] theorem State.begun_v_cur (s : State) (gm : BitVec 4) : (s.begun .v gm).cur = s.cur := by
  rcases s.begun_v_eq gm with h | h
  all_goals simp [h, State.entered]

@[simp] theorem State.begun_v_curSt (s : State) (gm : BitVec 4) : (s.begun .v gm).curSt = s.curSt := by
  rcases s.begun_v_eq gm with h | h
  all_goals simp [h, State.entered]

@[simp] theorem State.ctx_begun_v (s : State) (gm : BitVec 4) (c : CtxRef) : (s.begun .v gm).ctx c = s.ctx c := by
  rcases s.begun_v_eq gm with h | h
  all_goals exact congrArg (·.ctx c) h

@[simp] theorem State.tookAll_cur (s : State) (rs : List (QRef × Bool)) : (s.tookAll rs).cur = s.cur := by
  induction rs generalizing s with
  | nil => rfl
  | cons p rs ih => exact (ih _).trans (s.took_cur p.1 p.2)

@[simp] theorem State.tookAll_curSt (s : State) (rs : List (QRef × Bool)) : (s.tookAll rs).curSt = s.curSt := by
  induction rs generalizing s with
  | nil => rfl
  | cons p rs ih => exact (ih _).trans (s.took_curSt p.1 p.2)

theorem State.outwardOk_tookAll (s : State) (rs : List (QRef × Bool)) : (s.tookAll rs).outwardOk = s.outwardOk := by
  induction rs generalizing s with
  | nil => rfl
  | cons p rs ih => exact (ih _).trans (s.outwardOk_took p.1 p.2)

/-- What no pop changes of a context, an operand read leaves. -/
theorem State.ctx_took_keeps {α : Type} {f : Ctx → α} (hf : ∀ c it q, f (Ctx.popped c it q) = f c) (s : State) (q : QRef) (k : Bool) :
    f ((s.took q k).ctx s.cur) = f (s.ctx s.cur) := by
  cases k with
  | false => simp [State.took, hf]
  | true => rfl

theorem State.ctx_tookAll_keeps {α : Type} {f : Ctx → α} (hf : ∀ c it q, f (Ctx.popped c it q) = f c) (s : State)
    (rs : List (QRef × Bool)) : f ((s.tookAll rs).ctx s.cur) = f (s.ctx s.cur) := by
  induction rs generalizing s with
  | nil => rfl
  | cons p rs ih =>
    have h := ih (s.took p.1 p.2)
    rw [State.took_cur, State.ctx_took_keeps hf] at h
    exact h

@[simp] theorem State.vRead_cur (s : State) (gm : BitVec 4) (rs : List (QRef × Bool)) : (s.vRead gm rs).cur = s.cur := by
  simp [State.vRead]

@[simp] theorem State.vRead_curSt (s : State) (gm : BitVec 4) (rs : List (QRef × Bool)) : (s.vRead gm rs).curSt = s.curSt := by
  simp [State.vRead]

theorem State.outwardOk_vRead (s : State) (gm : BitVec 4) (rs : List (QRef × Bool)) :
    (s.vRead gm rs).outwardOk = (s.begun .v gm).outwardOk := State.outwardOk_tookAll _ rs

theorem State.ctx_vRead_keeps {α : Type} {f : Ctx → α} (hf : ∀ c it q, f (Ctx.popped c it q) = f c) (s : State) (gm : BitVec 4)
    (rs : List (QRef × Bool)) : f ((s.vRead gm rs).ctx s.cur) = f (s.ctx s.cur) := by
  have h := State.ctx_tookAll_keeps hf (s.begun .v gm) rs
  rw [State.begun_v_cur, State.ctx_begun_v] at h
  exact h

/-! A pop changes neither the rounding mode nor what the draws rest on. -/

theorem Ctx.popped_rm (c : Ctx) (it : Option Nat) (q : QRef) : (c.popped it q).rm = c.rm := by
  cases it <;> cases q <;> rfl

theorem Ctx.popped_rngpos (c : Ctx) (it : Option Nat) (q : QRef) : (c.popped it q).rngpos = c.rngpos := by
  cases it <;> cases q <;> rfl

theorem drawOf_popped (c : Ctx) (it : Option Nat) (q : QRef) : drawOf (c.popped it q) = drawOf c := by
  cases it <;> cases q <;> rfl

/-! ## A counted V word and its operand -/

theorem readV_run {a : BitVec 4} {ka : Bool} {s : State} (h : (s.ctx s.cur).readable [(vRef a, ka)] = true) :
    readV a ka s = .ok (s.front (vRef a), s.took (vRef a) ka) := by
  unfold readV
  rw [Act.bind_ok (checkRead_run (readable1 h))]
  exact takeQ_run (vRef a) ka s

theorem setVcsr_run (f : FpFlags) (s : State) : setVcsr f s = .ok ((), s.flagged f) := rfl

theorem countEvent_run (n : Nat) (s : State) : countEvent n 1 s = .ok ((), s.countedEvent n) := rfl

/-- A word of FALU, FSPEC, CVT or VRED whose mask is known and whose body goes on is counted and retires in sequence. -/
theorem vcword_run {gm : BitVec 4} {body : Mask → Act Unit} {s t : State} {m : Mask} (hm : s.lanes gm = some m)
    (h : body m (s.begun .v gm) = .ok ((), t)) (hc : t.cur = s.cur) (hs : t.curSt = s.curSt) :
    vcword gm body s = .next ((t.countedEvent 8).retired 1) := by
  refine finish_seq ?_ hc hs
  rw [Act.bind_ok (vMask_run hm)]
  exact (Act.bind_ok h).trans (Act.bind_ok (countEvent_run 8 t))

/-! ## Draws (05 R113, 26 R454) -/

/-- The state after n draws. -/
def State.drew (s : State) (n : Nat) : State :=
  s.changed fun c => { c with rngpos := setBits c.rngpos 0 24 (bits c.rngpos 0 24 + n) }

theorem drawCheck_run {n : Nat} {s : State} (h : bits (s.ctx s.cur).rngpos 0 24 + n ≤ 0xFFFFFF) : drawCheck n s = .ok ((), s) := by
  unfold drawCheck
  rw [Act.bind_ok (cx_run s), decide_eq_false (Nat.not_lt.mpr h)]
  rfl

theorem takeDraws_run (n : Nat) (s : State) : takeDraws n s = .ok ((s.ctx s.cur).rngpos, s.drew n) := rfl

/-- Draws leave the room of every queue. -/
theorem State.room_drew (s : State) (n : Nat) (q : QRef) : ((s.drew n).ctx s.cur).room q = (s.ctx s.cur).room q := by
  unfold State.drew State.changed
  rw [State.ctx_modCtx_same]
  cases q <;> rfl

/-! ## CVT (05 R116) -/

/-- What a conversion leaves: its result in flight for three cycles, and its flags. -/
def State.converted (s : State) (q : QRef) (r : Vec × FpFlags) : State := (s.pushed q (some r.1) (some 3)).flagged r.2

@[simp] theorem State.converted_cur (s : State) (q : QRef) (r : Vec × FpFlags) : (s.converted q r).cur = s.cur :=
  s.pushed_cur q (some r.1) (some 3)

@[simp] theorem State.converted_curSt (s : State) (q : QRef) (r : Vec × FpFlags) : (s.converted q r).curSt = s.curSt :=
  s.pushed_curSt q (some r.1) (some 3)

/-- The last step of a conversion. -/
def deliver (q : QRef) (r : Vec × FpFlags) : Act Unit := do
  pushLat q r.1 3
  setVcsr r.2

theorem deliver_run {q : QRef} {s : State} (r : Vec × FpFlags) (h : (s.ctx s.cur).room q = true) :
    deliver q r s = .ok ((), s.converted q r) := by
  unfold deliver
  rw [Act.bind_ok (pushLat_run r.1 3 h)]
  exact setVcsr_run r.2 _

/-- A CVT after its operand read. -/
def cvtBody (q : QRef) (code : BitVec 5) (m : Mask) (a : Vec) : Act Unit := do
  checkPush q
  let c ← cx
  if c.rm = 2 ∧ code ≠ 8#5 ∧ code ≠ 10#5 then
    drawCheck 16
    outward
    let p ← takeDraws 16
    deliver q (cvtVec code.toNat 2 (drawOf c p) m a)
  else
    deliver q (cvtVec code.toNat c.rm (fun _ => 0) m a)

theorem exec_cvt_eq (o : VR) (code : BitVec 5) (s : State) :
    exec (.cvt o code) s = vcword o.gm (fun m => readV o.a o.ka >>= cvtBody (vRef o.d) code m) s := rfl

section
variable {q : QRef} {code : BitVec 5} {s : State} (m : Mask) (a : Vec) (room : (s.ctx s.cur).room q = true)
include room

/-- A conversion that is not stochastic, or that goes to a block format, takes no draw. -/
theorem cvtBody_undrawn (h : (s.ctx s.cur).rm ≠ 2 ∨ code = 8#5 ∨ code = 10#5) :
    cvtBody q code m a s = .ok ((), s.converted q (cvtVec code.toNat (s.ctx s.cur).rm (fun _ => 0) m a)) := by
  unfold cvtBody
  rw [Act.bind_ok (checkPush_run room), Act.bind_ok (cx_run s), if_neg fun ⟨h2, h8, h10⟩ => h.elim (· h2) (·.elim h8 h10)]
  exact deliver_run _ room

/-- A stochastic conversion to another format takes 16 draws, from the position before it. -/
theorem cvtBody_stochastic (h : (s.ctx s.cur).rm = 2 ∧ code ≠ 8#5 ∧ code ≠ 10#5)
    (below : bits (s.ctx s.cur).rngpos 0 24 + 16 ≤ 0xFFFFFF) (ho : s.outwardOk = true) :
    cvtBody q code m a s =
      .ok ((), (s.drew 16).converted q (cvtVec code.toNat 2 (drawOf (s.ctx s.cur) (s.ctx s.cur).rngpos) m a)) := by
  unfold cvtBody
  rw [Act.bind_ok (checkPush_run room), Act.bind_ok (cx_run s), if_pos h, Act.bind_ok (drawCheck_run below), Act.bind_ok (outward_run ho),
    Act.bind_ok (takeDraws_run 16 s)]
  exact deliver_run _ ((s.room_drew 16 q).trans room)

end

/-- A CVT that runs does what its body does of its operand in the state after the read. -/
theorem exec_cvt_run {o : VR} {code : BitVec 5} {s t : State} {m : Mask} (hm : s.lanes o.gm = some m)
    (hread : (s.ctx s.cur).readable o.one = true)
    (h : cvtBody (vRef o.d) code m ((s.vValues o.gm o.one).getD 0 0) (s.vRead o.gm o.one) = .ok ((), t)) (hc : t.cur = s.cur)
    (hs : t.curSt = s.curSt) : exec (.cvt o code) s = .next ((t.countedEvent 8).retired 1) := by
  rw [exec_cvt_eq]
  refine vcword_run hm ((Act.bind_ok (readV_run ?_)).trans h) hc hs
  rw [State.begun_v_cur, State.ctx_begun_v]
  exact hread

/-- Settles O25: the body of a CVT runs in the state after its operand read, in which the rounding mode and the draws are what they
were. -/
theorem vectorConverts : Obligations.VectorConverts := by
  unfold Obligations.VectorConverts
  intro o code s m ⟨hm, hread, hroom, _⟩ c a t
  have hcur : t.cur = s.cur := s.vRead_cur o.gm o.one
  have hst : t.curSt = s.curSt := s.vRead_curSt o.gm o.one
  have room : (t.ctx t.cur).room (vRef o.d) = true := by rw [hcur]; exact hroom
  have hrm : (t.ctx t.cur).rm = c.rm := by rw [hcur]; exact s.ctx_vRead_keeps Ctx.popped_rm o.gm o.one
  have hpos : (t.ctx t.cur).rngpos = c.rngpos := by rw [hcur]; exact s.ctx_vRead_keeps Ctx.popped_rngpos o.gm o.one
  have hdraw : drawOf (t.ctx t.cur) = drawOf c := by rw [hcur]; exact s.ctx_vRead_keeps drawOf_popped o.gm o.one
  refine ⟨fun h => ?undrawn, fun h2 h8 h10 below ho => ?stochastic⟩
  case undrawn =>
    have run := cvtBody_undrawn m a room (hrm ▸ h)
    rw [hrm] at run
    exact exec_cvt_run hm hread run ((t.converted_cur _ _).trans hcur) ((t.converted_curSt _ _).trans hst)
  case stochastic =>
    have ho' : t.outwardOk = true := (s.outwardOk_vRead o.gm o.one).trans ho
    have run := cvtBody_stochastic m a room ⟨hrm.trans h2, h8, h10⟩ (hpos ▸ below) ho'
    rw [hdraw, hpos] at run
    exact exec_cvt_run hm hread run (((t.drew 16).converted_cur _ _).trans hcur) (((t.drew 16).converted_curSt _ _).trans hst)

end Sys2Proof.Machine

/-!
SUPPORT. What the checks of operands and pushes answer where they stop a word, what a word leaves that they stop, and the statement on
operands (06 R125 to R127).
-/
namespace Sys2Proof.Machine

/-! ## Checks that stop a word -/

/-- A trap names the stream that issues, and nothing else of the state. -/
theorem trapNow_congr {α : Type} {c : Cause} {a : Word} {s t : State} (h : t.curSt = s.curSt) :
    (trapNow c a : Act α) t = trapNow c a s := by
  unfold trapNow
  rw [h]

/-- A local queue that lacks entries even with its pending pushes traps QUND (06 R126). -/
theorem checkRead_lacks {q : QRef} {n : Nat} {s : State} (hz : q ≠ .zero) (hc : q.isChan = false)
    (h : (s.ctx s.cur).entries q + (s.ctx s.cur).pendingQ q < n) : checkRead q n s = trapNow .qund q.code s := by
  have he : ¬ n ≤ (s.ctx s.cur).entries q := by omega
  unfold checkRead
  rw [Act.bind_ok (cx_run s)]
  cases q with
  | zero => exact absurd rfl hz
  | chan m => cases hc
  | loc k | vec m => simp only [if_neg he, if_neg (Nat.not_le.mpr h)]

/-- A local queue whose pending pushes make up for the entries that it lacks interlocks (06 R126). -/
theorem checkRead_locks {q : QRef} {n : Nat} {s : State} (hz : q ≠ .zero) (hc : q.isChan = false)
    (h : (s.ctx s.cur).entries q < n) (hp : n ≤ (s.ctx s.cur).entries q + (s.ctx s.cur).pendingQ q) :
    checkRead q n s = .error (.wait .lock) := by
  unfold checkRead
  rw [Act.bind_ok (cx_run s)]
  cases q with
  | zero => exact absurd rfl hz
  | chan m => cases hc
  | loc k | vec m => simp only [if_neg (Nat.not_le.mpr h), if_pos hp]; rfl

/-- A push beyond the depth of a local queue traps QOVF (06 R127). -/
theorem checkPush_full {q : QRef} {s : State} (hc : q.isChan = false) (h : (s.ctx s.cur).room q = false) :
    checkPush q s = trapNow .qovf q.code s := by
  unfold checkPush
  rw [Act.bind_ok (cx_run s)]
  cases q with
  | zero => simp [Ctx.room] at h
  | chan m => cases hc
  | loc k | vec m =>
    have hd := Nat.not_le.mp (of_decide_eq_false h)
    simp only [decide_eq_true hd]
    rfl

section
variable {all rs : List (QRef × Bool)} {q : QRef} {k : Bool} {s : State}

/-- The reads of a word are checked in field order: the first that stops stops the word. -/
theorem checkReads_stops {e : Stop} (h : checkRead q (needOf q 0 all) s = .error e) : checkReads all ((q, k) :: rs) s = .error e :=
  Act.bind_error h

/-- A queue that holds what the word needs leaves the check to the reads behind it. -/
theorem checkReads_cons (h : (s.ctx s.cur).holds all q = true) : checkReads all ((q, k) :: rs) s = checkReads all rs s :=
  Act.bind_ok (checkRead_run h)

end

/-! ## Words that stop -/

/-- A guarded word whose body traps does so from the state before it. -/
theorem word_trap {g : BitVec 4} {body : Act Unit} {s : State} {c : Cause} {a : Word} (hg : s.guardOpen g = true)
    (h : body (s.entered g) = trapNow c a s) : word g body s = .next (s.trapped c a) :=
  finish_trap ((guarded_run hg).trans (Act.bind_error h))

/-- A guarded word whose body waits leaves the state before it, but for the note of its wait. -/
theorem word_wait {g : BitVec 4} {body : Act Unit} {s : State} {w : Wait} (hg : s.guardOpen g = true)
    (h : body (s.entered g) = .error (.wait w)) : word g body s = .next (s.waitsAt w) :=
  finish_wait ((guarded_run hg).trans (Act.bind_error h))

/-! ## The register-register words -/

/-- The reads of a register-register word, in field order. -/
def aluReads (o : SR) : List (QRef × Bool) := [(sRef o.a, o.ka), (sRef o.b, o.kb)]

theorem AluRow.exec_eq {i : Instr} {o : SR} {lat : Nat} {f : Word → Word → Word} (h : AluRow i o lat f) :
    ∃ f', ∀ s, exec i s = alu o lat f' s := by
  cases h
  all_goals
    simp only [exec_add, exec_sub, exec_and, exec_or, exec_xor, exec_andn, exec_shl, exec_shr, exec_sra, exec_min, exec_max, exec_minu,
      exec_maxu, exec_seq, exec_slt, exec_sltu, exec_mul, exec_mulh, exec_mulhu, exec_rol, exec_ror, exec_addw, exec_subw]
    exact ⟨_, fun _ => rfl⟩

section
variable {o : SR} {lat : Nat} {f : Word → Word → Word} {s : State} (hg : s.guardOpen o.g = true)
include hg

theorem alu_read_trap {c : Cause} {a : Word} (h : checkReads (aluReads o) (aluReads o) (s.entered o.g) = trapNow c a s) :
    alu o lat f s = .next (s.trapped c a) :=
  word_trap hg (Act.bind_error (Act.bind_error h))

theorem alu_read_wait {w : Wait} (h : checkReads (aluReads o) (aluReads o) (s.entered o.g) = .error (.wait w)) :
    alu o lat f s = .next (s.waitsAt w) :=
  word_wait hg (Act.bind_error (Act.bind_error h))

/-- A push that traps does so after the word's own pops, which are not made. -/
theorem alu_push_trap (hr : (s.ctx s.cur).readable (aluReads o) = true) (hc : (sRef o.d).isChan = false)
    (h : (((s.entered o.g).tookAll (aluReads o)).ctx s.cur).room (sRef o.d) = false) :
    alu o lat f s = .next (s.trapped .qovf (sRef o.d).code) := by
  have hcur : ((s.entered o.g).tookAll (aluReads o)).cur = s.cur := State.tookAll_cur _ _
  have hst : ((s.entered o.g).tookAll (aluReads o)).curSt = s.curSt := State.tookAll_curSt _ _
  have hpush := checkPush_full hc (s := (s.entered o.g).tookAll (aluReads o)) (hcur.symm ▸ h)
  rw [trapNow_congr hst] at hpush
  exact word_trap hg ((Act.bind_ok (read2_run (s := s.entered o.g) hr)).trans (Act.bind_error (Act.bind_error hpush)))

end

/-- Settles O53: the checks run in field order, in the state under the guard, before anything is popped. -/
theorem operandChecks : Obligations.OperandChecks := by
  unfold Obligations.OperandChecks
  intro i o lat f s row hg rs c lacks locks
  obtain ⟨f', hexec⟩ := row.exec_eq
  rw [hexec]
  refine ⟨fun ⟨hz, hc, h⟩ => ?lacksA, fun ⟨hz, hc, h, hp⟩ => ?locksA, fun ha ⟨hz, hc, h⟩ => ?lacksB, fun ha ⟨hz, hc, h, hp⟩ => ?locksB,
    fun hr hc h => alu_push_trap hg hr hc h⟩
  case lacksA => exact alu_read_trap hg (checkReads_stops (checkRead_lacks hz hc h))
  case locksA => exact alu_read_wait hg (checkReads_stops (checkRead_locks hz hc h hp))
  case lacksB => exact alu_read_trap hg ((checkReads_cons (s := s.entered o.g) ha).trans (checkReads_stops (checkRead_lacks hz hc h)))
  case locksB => exact alu_read_wait hg ((checkReads_cons (s := s.entered o.g) ha).trans (checkReads_stops (checkRead_locks hz hc h hp)))

end Sys2Proof.Machine

/-!
SUPPORT. The bodies of the queue words and what they leave, and the statement on queues (06 R134 to R137).
-/
namespace Sys2Proof.Machine

theorem State.goes_iff (s : State) (g : BitVec 4) (rs : List (QRef × Bool)) (q : QRef) :
    s.goes g rs q = true ↔ s.guardOpen g = true ∧ (s.ctx s.cur).readable rs = true ∧
      (((s.entered g).tookAll rs).ctx s.cur).room q = true ∧ (s.entered g).queuesOk (rs.map (·.1) ++ [q]) = true := by
  simp only [State.goes, Bool.and_eq_true, and_assoc]

/-! ## Moves (06 R134) -/

/-- The move of the front of a queue to another queue, in a word that names the queues `qs`. -/
def moveQ (p : QRef) (k : Bool) (d : QRef) (qs : List QRef) : Act Unit := do
  checkRead p 1
  let v ← takeQ p k
  pushSoon d v
  outwardQs qs

theorem moveQ_run {p d : QRef} {k : Bool} {qs : List QRef} {s : State} (hread : (s.ctx s.cur).readable [(p, k)] = true)
    (room : ((s.took p k).ctx s.cur).room d = true) (hq : s.queuesOk qs = true) :
    moveQ p k d qs s = .ok ((), (s.took p k).pushed d (some (s.front p)) none) := by
  have room' : ((s.took p k).ctx (s.took p k).cur).room d = true := by rw [State.took_cur]; exact room
  have hq' : ((s.took p k).pushed d (some (s.front p)) none).queuesOk qs = true := by
    rw [State.queuesOk_pushed, State.queuesOk_took]; exact hq
  unfold moveQ
  rw [Act.bind_ok (checkRead_run (readable1 hread)), Act.bind_ok (takeQ_run p k s), Act.bind_ok (pushSoon_run _ room')]
  exact outwardQs_run qs hq'

theorem exec_moveFrom_eq (keep : Bool) (o : SR) (s : State) : exec (if keep then .movxk o else .movxr o) s =
    word o.g (read1 (sRef o.a) o.ka >>= fun i => moveQ (queueAt i) keep (sRef o.d) [sRef o.a, queueAt i, sRef o.d]) s := by
  cases keep <;> rfl

theorem exec_movxw_eq (o : SR) (s : State) : exec (.movxw o) s =
    word o.g (read1 (sRef o.a) o.ka >>= fun i => moveQ (sRef o.b) o.kb (queueAt i) [sRef o.a, sRef o.b, queueAt i]) s := rfl

/-- A word that reads an index and then moves. The index stands in the state before the word: the guard does not touch the queues. -/
theorem indexed_move_run {g : BitVec 4} {a p d : QRef} {ka k : Bool} {qs : List QRef} {body : Word → Act Unit} {s : State}
    (hbody : body (s.frontWord a) = moveQ p k d qs) (hg : s.guardOpen g = true) (ha : (s.ctx s.cur).readable [(a, ka)] = true) :
    let s1 := (s.entered g).took a ka
    (s1.ctx s.cur).readable [(p, k)] = true → ((s1.took p k).ctx s.cur).room d = true → s1.queuesOk qs = true →
    word g (read1 a ka >>= body) s = .next (((s1.took p k).pushed d (some (s1.front p)) none).retired 1) := by
  intro s1 hread room hq
  have hcur : s1.cur = s.cur := State.took_cur _ a ka
  have hst : s1.curSt = s.curSt := State.took_curSt _ a ka
  have hmove : body (s.frontWord a) s1 = .ok ((), (s1.took p k).pushed d (some (s1.front p)) none) := by
    rw [← hcur] at hread room
    rw [hbody]
    exact moveQ_run hread room hq
  refine word_run hg ((Act.bind_ok (read1_run (s := s.entered g) ha)).trans hmove) ?_ ?_
  · rw [State.pushed_cur, State.took_cur, hcur]
  · rw [State.pushed_curSt, State.took_curSt, hst]

/-! ## All entries of a queue (06 R137) -/

theorem popMany_run (q : QRef) (n : Nat) (s : State) : popMany q n s = .ok ((), s.tookAll (List.replicate n (q, false))) := by
  induction n generalizing s with
  | zero => rfl
  | succ n ih =>
    unfold popMany
    rw [Act.bind_ok (takeQ_run q false s), ih]
    rfl

theorem State.emptied_eq (s : State) (q : QRef) :
    s.emptied q = s.tookAll (List.replicate ((s.ctx s.cur).entries q) (q, false)) := by
  have h : List.replicate ((s.ctx s.cur).entries q) (q, false) = (List.range ((s.ctx s.cur).entries q)).map fun _ => (q, false) := by
    rw [List.map_const', List.length_range]
  rw [h, State.tookAll, List.foldl_map]
  rfl

theorem State.queuesOk_tookAll (s : State) (rs : List (QRef × Bool)) (l : List QRef) : (s.tookAll rs).queuesOk l = s.queuesOk l := by
  simp [State.queuesOk, State.outwardOk_tookAll]

/-- QCLR interlocks at a local queue with pending pushes. -/
def clearReady (c : Ctx) (q : QRef) : Act Unit :=
  match q with
  | .loc _ => waitIf (c.pendingQ q != 0) .lock
  | _ => pure ()

/-- The body of a QCLR of a queue. -/
def clearQ (q : QRef) : Act Unit := do
  let c ← cx
  clearReady c q
  popMany q (c.entries q)
  outwardQs [q]

theorem exec_qclr_eq (o : SR) (s : State) : exec (.qclr o) s = word o.g (clearQ (sRef o.b)) s := by
  rw [exec_qclr]
  unfold clearQ clearReady
  rfl

theorem clearReady_run {c : Ctx} {q : QRef} (s : State) (h : q.isChan = true ∨ c.pendingQ q = 0) : clearReady c q s = .ok ((), s) := by
  cases q with
  | loc k =>
    have hp : c.pendingQ (.loc k) = 0 := h.resolve_left nofun
    unfold clearReady
    rw [hp]
    rfl
  | zero | chan n | vec n => rfl

theorem clearQ_run {q : QRef} {s : State} (hq : s.queuesOk [q] = true) (h : q.isChan = true ∨ (s.ctx s.cur).pendingQ q = 0) :
    clearQ q s = .ok ((), s.emptied q) := by
  unfold clearQ
  rw [Act.bind_ok (cx_run s), Act.bind_ok (clearReady_run s h), Act.bind_ok (popMany_run q _ s), s.emptied_eq]
  exact outwardQs_run [q] ((s.queuesOk_tookAll _ _).trans hq)

/-! ## The words -/

theorem qcnt_run (o : SR) (s : State) (h : s.goes o.g [] (sRef o.d) = true) :
    exec (.qcnt o) s = .next (s.pushes o.g [] (sRef o.d)
      (wide (BitVec.ofNat 64 ((s.ctx s.cur).entries (sRef o.b) + (s.ctx s.cur).pendingQ (sRef o.b)))) none) := by
  obtain ⟨hg, -, room, hq⟩ := (s.goes_iff _ _ _).mp h
  rw [exec_qcnt]
  refine word_run hg ?_ (State.pushed_cur _ _ _ _) (State.pushed_curSt _ _ _ _)
  rw [Act.bind_ok (cx_run _), Act.bind_ok (pushSoon_run (s := s.entered o.g) _ room)]
  exact outwardQs_run _ ((State.queuesOk_pushed _ _ _ _ _).trans hq)

theorem qdrop_run (o : SR) (s : State) (h : s.goes o.g [(sRef o.b, false)] .zero = true) :
    exec (.qdrop o) s = .next (((s.entered o.g).took (sRef o.b) false).retired 1) := by
  obtain ⟨hg, hr, -, hq⟩ := (s.goes_iff _ _ _).mp h
  have hq' : (s.entered o.g).queuesOk [sRef o.b] = true := by simpa [State.queuesOk, QRef.isChan] using hq
  rw [exec_qdrop]
  refine word_run hg ?_ (State.took_cur _ _ _) (State.took_curSt _ _ _)
  rw [Act.bind_ok (checkRead_run (s := s.entered o.g) (readable1 hr)), Act.bind_ok (takeQ_run _ _ _)]
  exact outwardQs_run _ ((State.queuesOk_took _ _ _ _).trans hq')

theorem qclr_run (o : SR) (s : State) (hg : s.guardOpen o.g = true) (hq : (s.entered o.g).queuesOk [sRef o.b] = true)
    (h : (sRef o.b).isChan = true ∨ (s.ctx s.cur).pendingQ (sRef o.b) = 0) :
    exec (.qclr o) s = .next (((s.entered o.g).emptied (sRef o.b)).retired 1) := by
  rw [exec_qclr_eq]
  refine word_run hg (clearQ_run hq h) ?_ ?_
  · rw [State.emptied_eq]; exact State.tookAll_cur _ _
  · rw [State.emptied_eq]; exact State.tookAll_curSt _ _

/-- Settles O12: a move is a read of its index and then a move between two queues, and the other words act on one queue. -/
theorem queueWords : Obligations.QueueWords := by
  unfold Obligations.QueueWords
  refine ⟨fun keep o s hg ha hread room hq => ?moveFrom, fun o s hg ha hread room hq => ?moveTo, qcnt_run, qdrop_run, qclr_run⟩
  case moveFrom =>
    rw [exec_moveFrom_eq]
    exact indexed_move_run rfl hg ha hread room hq
  case moveTo =>
    rw [exec_movxw_eq]
    exact indexed_move_run rfl hg ha hread room hq

end Sys2Proof.Machine

/-!
SUPPORT. The frames in which the token words run and their bodies, and the statement on tokens (06 R138, R139).
-/
namespace Sys2Proof.Machine

/-! ## A body in the frame of its stream -/

@[simp] theorem State.begun_cur (s : State) (st : Stream) (g : BitVec 4) : (s.begun st g).cur = s.cur := by
  cases st with
  | v => exact s.begun_v_cur g
  | s | m | x => rfl

@[simp] theorem State.begun_curSt (s : State) (st : Stream) (g : BitVec 4) : (s.begun st g).curSt = s.curSt := by
  cases st with
  | v => exact s.begun_v_curSt g
  | s | m | x => rfl

@[simp] theorem State.ctx_begun (s : State) (st : Stream) (g : BitVec 4) (c : CtxRef) : (s.begun st g).ctx c = s.ctx c := by
  cases st with
  | v => exact s.ctx_begun_v g c
  | s | m | x => rfl

/-- A body in the frame that its stream gives a token word: a guard in S, a lane mask in V, none in M and X (06 R138, R139). -/
def framed (st : Stream) (g : BitVec 4) (body : Act Unit) (s : State) : Host.Outcome State Fault Refusal :=
  match st with
  | .s => word g body s
  | .v => vword g (fun _ => body) s
  | _ => plain body s

/-- A frame that lets its word go on runs the body in the state that the frame begins. -/
theorem framed_eq {st : Stream} {g : BitVec 4} {s : State} (body : Act Unit) (ho : s.opens st g = true) :
    ∃ flow, framed st g body s = finish 1 false flow s ∧ flow s = seqOf body (s.begun st g) := by
  cases st with
  | s => exact ⟨_, rfl, guarded_run ho⟩
  | v =>
    obtain ⟨m, hm⟩ := Option.isSome_iff_exists.mp ho
    exact ⟨_, rfl, Act.bind_ok (vMask_run hm)⟩
  | m | x => exact ⟨_, rfl, rfl⟩

section
variable {st : Stream} {g : BitVec 4} {body : Act Unit} {s : State} (ho : s.opens st g = true)
include ho

theorem framed_run {t : State} (h : body (s.begun st g) = .ok ((), t)) (hc : t.cur = (s.begun st g).cur)
    (hs : t.curSt = (s.begun st g).curSt) : framed st g body s = .next (t.retired 1) := by
  obtain ⟨flow, hf, hb⟩ := framed_eq body ho
  rw [hf]
  exact finish_seq (hb.trans (seqOf_run h)) (hc.trans (s.begun_cur st g)) (hs.trans (s.begun_curSt st g))

theorem framed_trap {c : Cause} {a : Word} (h : body (s.begun st g) = trapNow c a (s.begun st g)) :
    framed st g body s = .next (s.trapped c a) := by
  obtain ⟨flow, hf, hb⟩ := framed_eq body ho
  rw [trapNow_congr (s.begun_curSt st g)] at h
  rw [hf]
  exact finish_trap (hb.trans (Act.bind_error h))

theorem framed_wait {w : Wait} (h : body (s.begun st g) = .error (.wait w)) : framed st g body s = .next (s.waitsAt w) := by
  obtain ⟨flow, hf, hb⟩ := framed_eq body ho
  rw [hf]
  exact finish_wait (hb.trans (Act.bind_error h))

end

/-! ## The bodies -/

@[simp] theorem State.tokenAt_begun (s : State) (st : Stream) (g : BitVec 4) (n : Nat) : (s.begun st g).tokenAt n = s.tokenAt n := by
  simp [State.tokenAt]

theorem signal_run {n : Nat} {s : State} (hn : s.tokenAt n ≠ 15#4) (ho : s.outwardOk = true) :
    signal n s = .ok ((), s.withToken n (s.tokenAt n + 1)) := by
  have h : ((s.ctx s.cur).token n == 15#4) = false := beq_eq_false_iff_ne.mpr hn
  unfold signal
  rw [Act.bind_ok (cx_run s), h, Act.bind_ok (trapIf_false _ _ s), Act.bind_ok (outward_run ho)]
  rfl

theorem signal_full {n : Nat} {s : State} (hn : s.tokenAt n = 15#4) : signal n s = trapNow .qovf (BitVec.ofNat 64 (128 + n)) s := by
  have h : ((s.ctx s.cur).token n == 15#4) = true := beq_iff_eq.mpr hn
  unfold signal
  rw [Act.bind_ok (cx_run s), h, Act.bind_error (trapIf_true _ _ s)]
  rfl

theorem await_run {n : Nat} {s : State} (hn : s.tokenAt n ≠ 0#4) (ho : s.outwardOk = true) :
    await n s = .ok ((), s.withToken n (s.tokenAt n - 1)) := by
  have h : ((s.ctx s.cur).token n == 0) = false := beq_eq_false_iff_ne.mpr hn
  unfold await
  rw [Act.bind_ok (cx_run s), h, Act.bind_ok (waitIf_false _ s), Act.bind_ok (outward_run ho)]
  rfl

theorem await_zero {n : Nat} {s : State} (hn : s.tokenAt n = 0#4) : await n s = .error (.wait .outside) := by
  have h : ((s.ctx s.cur).token n == 0) = true := beq_iff_eq.mpr hn
  unfold await
  rw [Act.bind_ok (cx_run s), h, Act.bind_error (waitIf_true _ s)]

theorem poll_run {n : Nat} {d : QRef} {s : State} (room : (s.ctx s.cur).room d = true) (ho : s.outwardOk = true) :
    poll n d s = .ok ((), s.pushed d (some (wide ((s.tokenAt n).setWidth 64))) none) := by
  unfold poll
  rw [Act.bind_ok (cx_run s), Act.bind_ok (pushSoon_run _ room)]
  exact outward_run ((State.outwardOk_pushed _ _ _ _).trans ho)

/-! ## The words -/

theorem SignalRow.exec_eq {i : Instr} {st : Stream} {g : BitVec 4} {n : Nat} (h : SignalRow i st g n) (s : State) :
    exec i s = framed st g (signal n) s := by
  cases h
  all_goals rfl

theorem AwaitRow.exec_eq {i : Instr} {st : Stream} {g : BitVec 4} {n : Nat} (h : AwaitRow i st g n) (s : State) :
    exec i s = framed st g (await n) s := by
  cases h
  all_goals rfl

theorem SignalRow.exec_counts {i : Instr} {st : Stream} {g : BitVec 4} {n : Nat} {s : State} (row : SignalRow i st g n)
    (hs : s.opens st g = true) (hn : s.tokenAt n ≠ 15#4) (ho : (s.begun st g).outwardOk = true) :
    exec i s = .next (((s.begun st g).withToken n (s.tokenAt n + 1)).retired 1) := by
  rw [row.exec_eq, ← s.tokenAt_begun st g n]
  exact framed_run hs (signal_run (by simpa using hn) ho) rfl rfl

theorem SignalRow.exec_full {i : Instr} {st : Stream} {g : BitVec 4} {n : Nat} {s : State} (row : SignalRow i st g n)
    (hs : s.opens st g = true) (hn : s.tokenAt n = 15#4) : exec i s = .next (s.trapped .qovf (BitVec.ofNat 64 (128 + n))) := by
  rw [row.exec_eq]
  exact framed_trap hs (signal_full (by simpa using hn))

theorem AwaitRow.exec_takes {i : Instr} {st : Stream} {g : BitVec 4} {n : Nat} {s : State} (row : AwaitRow i st g n)
    (hs : s.opens st g = true) (hn : s.tokenAt n ≠ 0#4) (ho : (s.begun st g).outwardOk = true) :
    exec i s = .next (((s.begun st g).withToken n (s.tokenAt n - 1)).retired 1) := by
  rw [row.exec_eq, ← s.tokenAt_begun st g n]
  exact framed_run hs (await_run (by simpa using hn) ho) rfl rfl

theorem AwaitRow.exec_zero {i : Instr} {st : Stream} {g : BitVec 4} {n : Nat} {s : State} (row : AwaitRow i st g n)
    (hs : s.opens st g = true) (hn : s.tokenAt n = 0#4) : exec i s = .next (s.waitsAt .outside) := by
  rw [row.exec_eq]
  exact framed_wait hs (await_zero (by simpa using hn))

/-- A TPOLL in a frame pushes the count of its token. -/
theorem framed_poll {st : Stream} {g : BitVec 4} {n : Nat} {d : QRef} {s : State} (hs : s.opens st g = true)
    (room : (s.ctx s.cur).room d = true) (ho : (s.begun st g).outwardOk = true) :
    framed st g (poll n d) s =
      .next (((s.begun st g).pushed d (some (wide ((s.tokenAt n).setWidth 64))) none).retired 1) := by
  rw [← s.tokenAt_begun st g n]
  exact framed_run hs (poll_run (by simpa using room) ho) (State.pushed_cur _ _ _ _) (State.pushed_curSt _ _ _ _)

theorem exec_tpoll_eq (o : SR) (s : State) : exec (.tpoll o) s = framed .s o.g (poll (o.b.toNat % 16) (sRef o.d)) s := rfl

theorem exec_vTpoll_eq (o : VR) (s : State) : exec (.vTpoll o) s = framed .v o.gm (poll o.a.toNat (aRef .v o.d)) s := rfl

/-- Settles O13: each word is one body in the frame of its stream. -/
theorem tokenWords : Obligations.TokenWords := by
  unfold Obligations.TokenWords
  refine ⟨fun i st g n s row hs => ⟨row.exec_counts hs, row.exec_full hs⟩, fun i st g n s row hs => ⟨row.exec_takes hs, row.exec_zero hs⟩,
    fun o s h ho => ?_, fun o s hs room ho => ?_⟩
  · obtain ⟨hg, -, room, -⟩ := (s.goes_iff _ _ _).mp h
    exact (exec_tpoll_eq o s).trans (framed_poll hg room ho)
  · exact (exec_vTpoll_eq o s).trans (framed_poll hs room ho)

end Sys2Proof.Machine

/-!
SUPPORT. The values after reset, and the statement on them (06 R140, 14 R476, 22 R411, 23 R423, 27 R474).
-/
namespace Sys2Proof.Machine

theorem State.ctx_reset (c : CtxRef) : State.reset.ctx c = Ctx.init := rfl

theorem State.cell_reset (n : Nat) : State.reset.cell n = Cell.init := rfl

theorem State.part_reset (n : Nat) : State.reset.part n = Partition.init := rfl

theorem Ctx.init_str (st : Stream) : Ctx.init.str st = StreamState.init := by
  cases st <;> rfl

theorem Ctx.init_atReset : RegistersAtReset Ctx.init where
  status := ⟨rfl, rfl⟩
  trap := ⟨rfl, rfl, rfl, rfl, rfl⟩
  streams st := by
    rw [Ctx.init_str]
    exact ⟨rfl, rfl, rfl, rfl, rfl, rfl, rfl, rfl⟩
  modulo := ⟨rfl, rfl⟩
  domains sc := by cases sc <;> exact ⟨rfl, rfl⟩
  random := ⟨rfl, rfl, rfl⟩
  engines := ⟨rfl, rfl, rfl, rfl⟩
  poison := ⟨rfl, rfl⟩
  windows n := Table.get_nil 0 n
  formats := ⟨rfl, rfl, rfl⟩

theorem Cell.init_atReset : CellAtReset Cell.init where
  mode := rfl
  bufs := ⟨rfl, rfl, rfl⟩
  planes := ⟨rfl, rfl⟩
  shadow := rfl

/-- Settles O58: no context, cell, die or partition has an entry of its own after reset, so each is its initial value. -/
theorem resetState : Obligations.ResetState := by
  unfold Obligations.ResetState
  refine ⟨fun c => ?contexts, fun n => ?cells, fun n => ?dies, fun n => ?partitions, ?join⟩
  case contexts => exact State.ctx_reset c ▸ Ctx.init_atReset
  case cells => exact State.cell_reset n ▸ Cell.init_atReset
  case dies => exact congrArg Die.ss (Table.get_nil (Die.init _) n)
  case partitions =>
    rw [State.part_reset]
    exact ⟨rfl, rfl, rfl, rfl⟩
  case join => exact ⟨rfl, rfl, rfl, rfl, rfl⟩

end Sys2Proof.Machine

/-!
SUPPORT. The words of the loop unit: their checks, what they read, and what they leave (08 R178, R180, R183).
-/
namespace Sys2Proof.Machine

theorem trapIf_run {b : Bool} (c : Cause) (a : Word) (s : State) (h : b = false) : trapIf b c a s = .ok ((), s) :=
  h ▸ trapIf_false c a s

theorem curPc_eq_pcOf (s : State) : curPc s = .ok (s.pcOf, s) := rfl

theorem frontWord_eq (s : State) (q : QRef) : ((s.ctx s.cur).front q).1.setWidth 64 = s.frontWord q := rfl

/-- A check that is made only where `a` is false does not trap. -/
theorem or_not_iff_not_and (a b : Bool) : (a || !b) = true ↔ (!a && b) = false := by
  revert a b
  decide

/-! ## What no operand read changes for a loop word -/

theorem Ctx.popped_ss (c : Ctx) (it : Option Nat) (q : QRef) : (c.popped it q).ss = c.ss := Ctx.popped_str c it q .s

theorem Ctx.popped_hnd (c : Ctx) (it : Option Nat) (q : QRef) : (c.popped it q).hnd = c.hnd := by
  cases it <;> cases q <;> rfl

theorem State.pcOf_took (s : State) (q : QRef) (k : Bool) : (s.took q k).pcOf = s.pcOf := by
  unfold State.pcOf
  rw [State.took_cur, State.took_curSt]
  exact State.ctx_took_keeps (f := fun c => (c.str s.curSt).pc) (fun c it r => congrArg StreamState.pc (c.popped_str it r s.curSt)) s q k

/-! ## LOOP and LOOPI (R178, R180) -/

/-- A LOOP word checks its operand; the count of LOOPI stands in the word. -/
def loopCheck (q : QRef) : Option Word → Act Unit
  | none => checkRead q 1
  | some _ => pure ()

/-- A LOOP word reads its operand once nothing traps. -/
def loopTake (q : QRef) (ka : Bool) : Option Word → Act Unit
  | none => do let _ ← takeQ q ka; outwardQs [q]
  | some _ => pure ()

/-- Stream S where a count of 0 skips the body: in a handler no loop-back test is made (R192). -/
def skipLoop (hnd : Bool) (x : StreamState) (lv : Bool) (pc newLe : Word) : StreamState :=
  if hnd then { disarm (x.setLc lv 0) pc (newLe + 4) with pc := newLe + 4 } else zeroCount x lv pc newLe

/-- A LOOP word skips the body, or arms its level. -/
def loopEffect (hnd : Bool) (x : StreamState) (lv : Bool) (pc newLe cnt : Word) : Act Flow :=
  if cnt = 0 then do
    modCx fun c => c.setStr .s { skipLoop hnd x lv pc newLe with pc := pc }
    pure (.jump (skipLoop hnd x lv pc newLe).pc)
  else do
    modCx fun c => c.setStr .s (c.ss.setLevel lv cnt (pc + 4) newLe)
    pure .seq

/-- The parts of a LOOP word in their order. -/
theorem loopWord_eq (lv : Bool) (n : Nat) (off : Word) (q : QRef) (ka : Bool) (count : Option Word) :
    loopWord lv n off q ka count = (do
      loopCheck q count
      let c ← cx
      let pc ← curPc
      let cnt := count.getD ((c.front q).1.setWidth 64)
      let newLe := pc + off * 4
      let pair ← (fun s => .ok (s.firstOfPair s.cur .s newLe (n - 1), s) : Act Bool)
      trapIf pair .looperr pc
      trapIf (bits cnt 32 32 != 0) .looperr pc
      trapIf (c.liiAct && within pc c.ss.ls0 c.ss.le0) .looperr pc
      trapIf (cnt != 0 && badNesting c.ss lv newLe) .looperr pc
      loopTake q ka count
      loopEffect c.hnd c.ss lv pc newLe cnt) := by
  cases count <;> rfl

/-- Where a level may be armed, each of the four checks of R178 goes on. -/
theorem State.mayLoop_iff (s : State) (lv : Bool) (n : Nat) (off cnt : Word) : s.mayLoop lv n off cnt = true ↔
    s.firstOfPair s.cur .s (s.pcOf + off * 4) (n - 1) = false ∧ (bits cnt 32 32 != 0) = false ∧
    ((s.ctx s.cur).liiAct && within s.pcOf (s.ctx s.cur).ss.ls0 (s.ctx s.cur).ss.le0) = false ∧
    (cnt != 0 && badNesting (s.ctx s.cur).ss lv (s.pcOf + off * 4)) = false := by
  have hw : (bits cnt 32 32 != 0) = false ↔ cnt.extractLsb' 32 32 = 0 :=
    bne_eq_false_iff_eq.trans (bits_eq_zero_iff cnt 32 32)
  have hb : s.mayBranch = true ↔
      ((s.ctx s.cur).liiAct && within s.pcOf (s.ctx s.cur).ss.ls0 (s.ctx s.cur).ss.le0) = false := by
    rw [State.mayBranch, Bool.not_eq_true']
    rfl
  have hn : (cnt == 0 || !badNesting (s.ctx s.cur).ss lv (s.pcOf + off * 4)) = true ↔
      (cnt != 0 && badNesting (s.ctx s.cur).ss lv (s.pcOf + off * 4)) = false :=
    or_not_iff_not_and _ _
  rw [hw, ← hb, ← hn]
  simp [State.mayLoop, and_assoc]

/-- A LOOP word that may arm its level comes to its effect. -/
theorem loopWord_run {lv : Bool} {n : Nat} {off cnt : Word} {q : QRef} {ka : Bool} {count : Option Word} {s t : State}
    (hcheck : loopCheck q count s = .ok ((), s)) (htake : loopTake q ka count s = .ok ((), t))
    (hcnt : count.getD (s.frontWord q) = cnt) (h : s.mayLoop lv n off cnt = true) :
    loopWord lv n off q ka count s =
      loopEffect (s.ctx s.cur).hnd (s.ctx s.cur).ss lv s.pcOf (s.pcOf + off * 4) cnt t := by
  obtain ⟨hpair, hwide, hbody, hnest⟩ := (s.mayLoop_iff lv n off cnt).mp h
  subst hcnt
  rw [loopWord_eq, Act.bind_ok hcheck, Act.bind_ok (cx_run s), Act.bind_ok (curPc_eq_pcOf s), frontWord_eq, Act.bind_ok rfl,
    Act.bind_ok (trapIf_run _ _ s hpair), Act.bind_ok (trapIf_run _ _ s hwide), Act.bind_ok (trapIf_run _ _ s hbody),
    Act.bind_ok (trapIf_run _ _ s hnest), Act.bind_ok htake]

/-- The effect of a LOOP word ends it: the skip as a taken branch that disarms nothing more, the other in sequence. -/
theorem finish_loopEffect {lv : Bool} {off cnt : Word} {body : Act Flow} {s t : State}
    (h : body s = loopEffect (t.ctx t.cur).hnd (t.ctx t.cur).ss lv t.pcOf (t.pcOf + off * 4) cnt t)
    (hc : t.cur = s.cur) (hs : t.curSt = s.curSt) : finish 1 true body s = .next (t.looped lv off cnt) := by
  by_cases h0 : cnt = 0
  · rw [loopEffect, if_pos h0, Act.bind_ok (modCx_run _ t)] at h
    rw [finish_jump h hc hs, State.looped, if_pos h0]
    rfl
  · rw [loopEffect, if_neg h0, Act.bind_ok (modCx_run _ t)] at h
    rw [finish_seq h hc hs, State.looped, if_neg h0]

theorem loopTake_run {q : QRef} (ka : Bool) {s : State} (h : s.queuesOk [q] = true) :
    loopTake q ka none s = .ok ((), s.took q ka) := by
  show (takeQ q ka >>= fun _ => outwardQs [q]) s = _
  rw [Act.bind_ok (takeQ_run q ka s), outwardQs_run [q] ((s.queuesOk_took q ka [q]).trans h)]

theorem loop_run {o : SLP} {s : State} (hread : (s.ctx s.cur).readable [(sRef o.a, o.ka)] = true) (hq : s.queuesOk [sRef o.a] = true)
    (h : s.mayLoop o.lv o.last.toNat (o.last.signExtend 64) (s.frontWord (sRef o.a)) = true) :
    exec (.loop o) s = .next ((s.took (sRef o.a) o.ka).looped o.lv (o.last.signExtend 64) (s.frontWord (sRef o.a))) := by
  have hrun := loopWord_run (count := none) (checkRead_run (readable1 hread)) (loopTake_run o.ka hq) rfl h
  refine finish_loopEffect ?_ (s.took_cur _ _) (s.took_curSt _ _)
  rw [State.took_cur, State.pcOf_took, State.ctx_took_keeps Ctx.popped_hnd, State.ctx_took_keeps Ctx.popped_ss]
  exact hrun

theorem loopi_run {o : SLI} {s : State}
    (h : s.mayLoop o.lv o.last.toNat (o.last.signExtend 64) (o.count.setWidth 64) = true) :
    exec (.loopi o) s = .next (s.looped o.lv (o.last.signExtend 64) (o.count.setWidth 64)) :=
  finish_loopEffect (loopWord_run rfl rfl rfl h) rfl rfl

/-! ## LOOPM (R183) -/

/-- Where a modulo loop may start, each of the checks of R183 and R186 goes on. -/
theorem State.mayLoopm_iff (s : State) (o : SLM) (n : Word) : s.mayLoopm o n = true ↔
    (!o.j || !(s.inBundle && s.nops)) = false ∧ decide (16777208 < n.toNat) = false ∧
    ((s.ctx s.cur).liiAct || (s.ctx s.cur).ss.lc0 != 0 || (s.ctx s.cur).sv.lc0 != 0 || (s.ctx s.cur).sm.lc0 != 0 ||
      (s.ctx s.cur).sx.lc0 != 0) = false ∧
    (level1Inside (s.ctx s.cur).ss (o.ii.toNat + 1) || level1Inside (s.ctx s.cur).sv (o.ii.toNat + 1) ||
      level1Inside (s.ctx s.cur).sm (o.ii.toNat + 1) || level1Inside (s.ctx s.cur).sx (o.ii.toNat + 1)) = false ∧
    (n != 0 && [Stream.s, .v, .m, .x].any fun st => s.bodyEndsInPair s.cur st (o.ii.toNat + 1)) = false := by
  have hnest : (Stream.all.all fun st => !level1Inside ((s.ctx s.cur).str st) (o.ii.toNat + 1)) = true ↔
      (level1Inside (s.ctx s.cur).ss (o.ii.toNat + 1) || level1Inside (s.ctx s.cur).sv (o.ii.toNat + 1) ||
        level1Inside (s.ctx s.cur).sm (o.ii.toNat + 1) || level1Inside (s.ctx s.cur).sx (o.ii.toNat + 1)) = false := by
    simp [Stream.all, Ctx.str, and_assoc]
  have hpair : (n == 0 || Stream.all.all fun st => !s.bodyEndsInPair s.cur st (o.ii.toNat + 1)) = true ↔
      (n != 0 && [Stream.s, .v, .m, .x].any fun st => s.bodyEndsInPair s.cur st (o.ii.toNat + 1)) = false := by
    rw [← List.not_any_eq_all_not]
    exact or_not_iff_not_and _ _
  rw [← hnest, ← hpair]
  simp [State.mayLoopm, and_assoc]

theorem loopm_run {o : SLM} {s : State} (hread : (s.ctx s.cur).readable [(sRef o.a, o.ka)] = true)
    (hq : s.queuesOk [sRef o.a] = true) (h : s.mayLoopm o (s.frontWord (sRef o.a)) = true) :
    exec (.loopm o) s = .next (((s.took (sRef o.a) o.ka).changed fun c =>
      c.startModulo o (s.frontWord (sRef o.a)).toNat).issuedOnly) := by
  obtain ⟨hbundle, hcount, hactive, hnest, hpair⟩ := (s.mayLoopm_iff o _).mp h
  refine finish_done ?_
  rw [Act.bind_ok (checkRead_run (readable1 hread)), Act.bind_ok (cx_run s), Act.bind_ok (curPc_eq_pcOf s), frontWord_eq,
    Act.bind_ok rfl, Act.bind_ok (trapIf_run _ _ s hbundle), Act.bind_ok (trapIf_run _ _ s hcount), Act.bind_ok (trapIf_run _ _ s hactive),
    Act.bind_ok (trapIf_run _ _ s hnest), Act.bind_ok rfl, Act.bind_ok (trapIf_run _ _ s hpair),
    Act.bind_ok (takeQ_run _ o.ka s), Act.bind_ok (outwardQs_run _ ((s.queuesOk_took _ o.ka _).trans hq)),
    Act.bind_ok (modCx_run _ _)]
  rfl

/-- Settles O14: each word's checks go on, its operand is read, and its effect is taken in the state after that read, which has the
levels and the pc of the state before it. -/
theorem loopWordsArm : Obligations.LoopWordsArm := by
  unfold Obligations.LoopWordsArm
  exact ⟨fun _ _ => loop_run, fun _ _ => loopi_run, fun _ _ => loopm_run⟩

end Sys2Proof.Machine

/-!
SUPPORT. The checks and the steps of a word that codes symbols, the state that it leaves, and the statement on the coding words (10 R228,
R230, R233 to R235).
-/
namespace Sys2Proof.Table

theorem set_set {α : Type} (t : Table α) (k : Nat) (v w : α) : set (set t k v) k w = set t k w := by
  induction t with
  | nil => simp [set]
  | cons p r ih =>
    obtain ⟨k', v'⟩ := p
    by_cases he : k = k'
    · simp [set, he]
    · by_cases hl : k < k'
      · simp [set, he, hl]
      · simp [set, he, hl, ih]

end Sys2Proof.Table

namespace Sys2Proof.Machine

/-! ## Changes of the context that issues -/

theorem State.changed_changed (s : State) (f g : Ctx → Ctx) : (s.changed f).changed g = s.changed fun c => g (f c) := by
  show (s.modCtx s.cur f).modCtx s.cur g = _
  unfold State.modCtx
  rw [State.ctx_setCtx_same]
  exact congrArg (fun t => ({ s with ctxs := t } : State)) (Table.set_set _ _ _ _)

@[simp] theorem State.changed_cur (s : State) (f : Ctx → Ctx) : (s.changed f).cur = s.cur := rfl

@[simp] theorem State.changed_curSt (s : State) (f : Ctx → Ctx) : (s.changed f).curSt = s.curSt := rfl

@[simp] theorem State.ctx_changed (s : State) (f : Ctx → Ctx) : (s.changed f).ctx s.cur = f (s.ctx s.cur) :=
  State.ctx_modCtx_same s s.cur f

theorem State.retired_changed_id (s : State) (n : Nat) : (s.changed id).retired n = s.retired n :=
  congrArg (·.noted .retired) (s.changed_changed id fun c => c.retireSeq s.curSt n)

theorem State.launched_changed_id (s : State) (d : Dest) (v : Option Vec) (lat : Option Nat) :
    (s.changed id).launched d v lat = s.launched d v lat :=
  ({ s with nextId := s.nextId + 1 } : State).changed_changed id _

/-- A state and the same with its context written back leave the same after a result and the retirement. -/
theorem State.pushed_changed_id (s : State) (q : QRef) (v : Option Vec) (lat : Option Nat) (n : Nat) :
    ((s.changed id).pushed q v lat).retired n = (s.pushed q v lat).retired n := by
  cases hq : q.dest with
  | none =>
    simp only [State.pushed, hq]
    exact s.retired_changed_id n
  | some d =>
    simp only [State.pushed, hq]
    rw [s.launched_changed_id]

/-! ## The checks of a coding word (10 R230) -/

theorem waitIf_run {b : Bool} (w : Wait) (s : State) (h : b = false) : waitIf b w s = .ok ((), s) := h ▸ waitIf_false w s

/-- A V word whose mask is known and whose body goes on retires in sequence. -/
theorem vword_run {gm : BitVec 4} {body : Mask → Act Unit} {s t : State} {m : Mask} (hm : s.lanes gm = some m)
    (h : body m (s.begun .v gm) = .ok ((), t)) (hc : t.cur = s.cur) (hs : t.curSt = s.curSt) :
    vword gm body s = .next (t.retired 1) := by
  refine finish_seq ?_ hc hs
  rw [Act.bind_ok (vMask_run hm)]
  exact Act.bind_ok h

/-- A push is checked in the context that issues, whatever the word has read. -/
theorem checkPush_of_cur {q : QRef} {s u : State} (hc : u.cur = s.cur) (room : (u.ctx s.cur).room q = true) :
    checkPush q u = .ok ((), u) :=
  checkPush_run (by rw [hc]; exact room)

theorem State.ctx_begun_cur (s : State) (gm : BitVec 4) : (s.begun .v gm).ctx (s.begun .v gm).cur = s.ctx s.cur := by
  rw [State.begun_v_cur, State.ctx_begun_v]

section
variable {s : State} {gm : BitVec 4}

theorem read1_vRead {q : QRef} {k : Bool} (h : (s.ctx s.cur).readable [(q, k)] = true) :
    read1 q k (s.begun .v gm) = .ok (((s.vValues gm [(q, k)]).getD 0 0).setWidth 64, s.vRead gm [(q, k)]) :=
  read1_run (by rw [State.ctx_begun_cur]; exact h)

theorem readV_vRead {a : BitVec 4} {k : Bool} (h : (s.ctx s.cur).readable [(vRef a, k)] = true) :
    readV a k (s.begun .v gm) = .ok ((s.vValues gm [(vRef a, k)]).getD 0 0, s.vRead gm [(vRef a, k)]) :=
  readV_run (by rw [State.ctx_begun_cur]; exact h)

theorem readVV_vRead {a b : BitVec 4} {ka kb : Bool} (h : (s.ctx s.cur).readable [(vRef a, ka), (vRef b, kb)] = true) :
    readVV a b ka kb (s.begun .v gm) = .ok (((s.vValues gm [(vRef a, ka), (vRef b, kb)]).getD 0 0,
      (s.vValues gm [(vRef a, ka), (vRef b, kb)]).getD 1 0), s.vRead gm [(vRef a, ka), (vRef b, kb)]) := by
  rw [← s.ctx_begun_cur gm] at h
  unfold readVV
  rw [Act.bind_ok (checkReads_run _ _ _ h), Act.bind_ok (takeQ_run (vRef a) ka _), Act.bind_ok (takeQ_run (vRef b) kb _)]
  rfl

end

theorem tablesReady_run {l : List Nat} {s : State} (h : s.tablesFree l = true) : tablesReady l s = .ok ((), s) := by
  unfold tablesReady
  rw [Act.bind_ok (cx_run s)]
  refine waitIf_run _ s ?_
  simpa [State.tablesFree] using h

theorem consumeNow_nil (sp : Space) (s : State) : consumeNow sp [] s = .ok (false, s) := rfl

/-- Nothing is needed of memory: the word goes on. -/
theorem codeNeeds_run {needs : List (List CodeNeed)} {s : State} (h : needs.flatten = []) : codeNeeds needs s = .ok (false, s) := by
  have hcome : ([] : List CodeNeed).contains .missing = false := rfl
  unfold codeNeeds
  rw [Act.bind_ok (cx_run s), h, Act.bind_ok (waitIf_run _ s hcome), Act.bind_ok (curStream_run s), Act.bind_ok rfl]
  exact consumeNow_nil .vm s

/-! ## The lanes of a coding word (10 R228, R230) -/

theorem State.changed_congr {s : State} {f g : Ctx → Ctx} (h : f (s.ctx s.cur) = g (s.ctx s.cur)) : s.changed f = s.changed g :=
  congrArg (s.setCtx s.cur) h

/-- The context after a sticky flag of `RCSR` has been set where it is due (10 R227). -/
def Ctx.rcsrIf (b : Bool) (n : Nat) (c : Ctx) : Ctx := { c with rcsr := c.rcsr ||| if b then BitVec.ofNat 64 (2 ^ n) else 0 }

theorem Ctx.rcsrIf_false (n : Nat) (c : Ctx) : c.rcsrIf false n = c := by
  simp [Ctx.rcsrIf]

/-- A flag set after another change of the context. -/
theorem setRcsr_if_run (b : Bool) (n : Nat) (f : Ctx → Ctx) (s : State) :
    (if b then setRcsr n else pure ()) (s.changed f) = .ok ((), s.changed fun c => (f c).rcsrIf b n) := by
  cases b with
  | false =>
    simp only [Ctx.rcsrIf_false]
    rfl
  | true =>
    show Except.ok ((), (s.changed f).changed (Ctx.rcsrIf true n)) = _
    rw [State.changed_changed]

/-- One lane takes its step in the context that issues. -/
theorem codeLane_run (rank : Nat) (l : CodeLane) (s : State) :
    codeLane rank l s = .ok ((l.step rank (s.ctx s.cur)).2, s.changed fun c => (l.step rank c).1) := by
  unfold codeLane CodeLane.step
  rw [Act.bind_ok (cx_run s)]
  cases l.sym with
  | some k => rfl
  | none =>
    dsimp only
    rw [Act.bind_ok (modCx_run _ s), Act.bind_ok (setRcsr_if_run _ 1 _ s), Act.bind_ok (setRcsr_if_run _ 2 _ s)]
    rfl

/-- All lanes take their steps. Where there is none the context is not written at all. -/
theorem codeEach_run (rank : Nat) (l : List CodeLane) (s : State) :
    ∃ t, codeEach rank l s = .ok ((codeSteps rank l (s.ctx s.cur)).2, t) ∧
      t.changed id = s.changed fun c => (codeSteps rank l c).1 := by
  induction l generalizing s with
  | nil => exact ⟨s, rfl, rfl⟩
  | cons x r ih =>
    obtain ⟨t, hrun, ht⟩ := ih (s.changed fun c => (x.step rank c).1)
    rw [State.changed_cur, State.ctx_changed] at hrun
    refine ⟨t, ?_, ht.trans (s.changed_changed _ _)⟩
    show (codeLane rank x >>= fun k => codeEach rank r >>= fun ks => pure (k :: ks)) s = _
    rw [Act.bind_ok (codeLane_run rank x s), Act.bind_ok hrun]
    rfl

/-- None of the checks of R230 stops a lane. -/
structure State.CanCode (s : State) (l : CodeLane) : Prop where
  idle : (s.ctx s.cur).slotBusy l.slot = false
  bound : l.bindFault (s.ctx s.cur) = none
  likely : l.probFault = none
  pending : l.pendFault (s.ctx s.cur) = none
  fits : l.capFault (s.ctx s.cur) = none
  inside : l.endFault (s.ctx s.cur) = none
  needless : s.laneNeeds s.cur l = []

theorem State.canCode_of_mayCode {s : State} {l : List CodeLane} (h : s.mayCode l = true) {x : CodeLane} (hx : x ∈ l) : s.CanCode x := by
  simp only [State.mayCode, Bool.and_eq_true, List.all_eq_true, Bool.not_eq_true', Option.isNone_iff_eq_none, List.isEmpty_iff] at h
  obtain ⟨⟨⟨⟨⟨⟨hidle, hbound⟩, hprob⟩, hpend⟩, hcap⟩, hend⟩, hneeds⟩ := h.1 x hx
  exact ⟨hidle, hbound, hprob, hpend, hcap, hend, hneeds⟩

theorem State.outwardOk_of_mayCode {s : State} {l : List CodeLane} (h : s.mayCode l = true) : s.outwardOk = true :=
  (Bool.and_eq_true_iff.mp h).2

/-- A fault that no lane has is not raised. -/
theorem trapSome_lanes_run (c : Cause) {l : List CodeLane} {f : CodeLane → Option Word} (s : State) (h : ∀ x ∈ l, f x = none) :
    trapSome c (l.findSome? f) s = .ok ((), s) := by
  rw [List.findSome?_eq_none_iff.mpr h]
  rfl

/-- Where every lane can take its step, a coding word passes its checks in turn, counts its lanes and takes every step. -/
theorem code_run {l : List CodeLane} {s : State} (h : s.mayCode l = true) :
    ∃ t, code l s = .ok (some (s.symbols l), t) ∧ t.changed id = s.coded l := by
  have hl : ∀ x ∈ l, s.CanCode x := fun _ => State.canCode_of_mayCode h
  have hidle : (l.any fun x => (s.ctx s.cur).slotBusy x.slot) = false :=
    List.any_eq_false.mpr fun x hx => by simp [(hl x hx).idle]
  have hneeds : (l.map (s.laneNeeds s.cur)).flatten = [] := by
    simpa using fun x hx => (hl x hx).needless
  obtain ⟨t, hrun, ht⟩ := codeEach_run s.nextId l (({ s with nextId := s.nextId + 1 }).modCell s.cur.cell fun x => x.count 9 l.length)
  refine ⟨t, ?_, ht⟩
  unfold code
  rw [Act.bind_ok (cx_run s), Act.bind_ok (waitIf_run _ s hidle), Act.bind_ok (trapSome_lanes_run _ s fun x hx => (hl x hx).bound),
    Act.bind_ok (trapSome_lanes_run _ s fun x hx => (hl x hx).likely), Act.bind_ok (trapSome_lanes_run _ s fun x hx => (hl x hx).pending),
    Act.bind_ok (trapSome_lanes_run _ s fun x hx => (hl x hx).fits), Act.bind_ok (trapSome_lanes_run _ s fun x hx => (hl x hx).inside),
    Act.bind_ok rfl, Act.bind_ok (codeNeeds_run hneeds), if_neg (by decide), Act.bind_ok (outward_run (State.outwardOk_of_mayCode h)),
    Act.bind_ok (freshId_run s), Act.bind_ok rfl, Act.bind_ok hrun]
  rfl

/-! ## Coding changes no queue -/

theorem CodeLane.step_room (rank : Nat) (l : CodeLane) (c : Ctx) (q : QRef) : (l.step rank c).1.room q = c.room q := by
  unfold CodeLane.step
  cases l.sym with
  | none => cases q <;> rfl
  | some k => cases q <;> rfl

theorem codeSteps_room (rank : Nat) (l : List CodeLane) (c : Ctx) (q : QRef) : (codeSteps rank l c).1.room q = c.room q := by
  induction l generalizing c with
  | nil => rfl
  | cons x r ih => exact (ih _).trans (x.step_room rank c q)

theorem State.ctx_coded (s : State) (l : List CodeLane) : (s.coded l).ctx s.cur = (codeSteps s.nextId l (s.ctx s.cur)).1 :=
  State.ctx_modCtx_same _ _ _

theorem State.cur_of_coded {s t : State} {l : List CodeLane} (h : t.changed id = s.coded l) : t.cur = s.cur :=
  (congrArg State.cur h : (t.changed id).cur = (s.coded l).cur)

theorem State.curSt_of_coded {s t : State} {l : List CodeLane} (h : t.changed id = s.coded l) : t.curSt = s.curSt :=
  (congrArg State.curSt h : (t.changed id).curSt = (s.coded l).curSt)

/-- A state that a coding word has left has the queues of the state before it. -/
theorem State.room_of_coded {s t : State} {l : List CodeLane} (h : t.changed id = s.coded l) (q : QRef) :
    (t.ctx t.cur).room q = (s.ctx s.cur).room q := by
  have hctx : t.ctx t.cur = (s.coded l).ctx s.cur := by
    rw [← h, ← State.cur_of_coded h, State.ctx_changed]
    rfl
  rw [hctx, State.ctx_coded, codeSteps_room]

theorem Ctx.room_congr {c d : Ctx} {q : QRef} (he : c.entries q = d.entries q) (hp : c.pendingQ q = d.pendingQ q) :
    c.room q = d.room q := by
  unfold Ctx.room
  rw [he, hp]

/-- A result in flight to another place is no pending push of this one. -/
theorem Ctx.pending_append_ne (c : Ctx) {f : Flight} {d : Dest} (h : f.dest ≠ d) :
    ({ c with flights := c.flights ++ [f] } : Ctx).pending d = c.pending d := by
  have hnone : [f].filter (fun g => g.dest == d) = [] := List.filter_cons_of_neg fun e => h (eq_of_beq e)
  unfold Ctx.pending
  rw [List.filter_append, hnone, List.append_nil]

/-- A slot in flight takes no room in a queue. -/
theorem State.room_launched_slot (s : State) (n : Nat) (v : Option Vec) (lat : Option Nat) (q : QRef) :
    ((s.launched (.slot n) v lat).ctx s.cur).room q = (s.ctx s.cur).room q := by
  rw [State.launched_ctx]
  cases q with
  | zero => rfl
  | loc k => exact Ctx.room_congr rfl (Ctx.pending_append_ne _ (d := .dq k) nofun)
  | chan k => exact Ctx.room_congr rfl (Ctx.pending_append_ne _ (d := .chan k) nofun)
  | vec k => exact Ctx.room_congr rfl (Ctx.pending_append_ne _ (d := .vq k) nofun)

/-! ## The fields of the coding words -/

theorem activeLanes_eq (m : Mask) (n : Nat) : activeLanes m n = lanesBelow m n := by
  simp only [activeLanes, lanesBelow, lane, bitOf_eq_getLsbD]

theorem tableOfLane_eq (o : VC) : tableOfLane o = fun j => if o.mode.getLsbD 0 then o.fr.toNat else j := by
  funext j
  rw [tableOfLane, bitOf_eq_getLsbD]

/-- MODE[4:0] plus one. -/
theorem lanes_of_mode (o : VC) : (o.mode &&& 31#7).toNat + 1 = laneCount o := by
  rw [laneCount, BitVec.toNat_and, BitVec.extractLsb'_toNat]
  exact congrArg (· + 1) (Nat.and_two_pow_sub_one_eq_mod o.mode.toNat 5)

theorem binLanes_eq (o : VC) (m : Mask) (q : Vec) (sym : Nat → Option Nat) :
    binLanes o m q sym = (lanesBelow m (laneCount o)).map fun j => binLane o q (sym j) j := by
  rw [binLanes, lanes_of_mode, activeLanes_eq]
  rfl

/-- The first pair with a key stands at the key's first place. -/
theorem find?_zip_getD (js ks : List Nat) (j : Nat) :
    (match (js.zip ks).find? fun p => p.1 == j with
      | some p => p.2
      | none => 0) = if js.contains j then ks.getD (js.idxOf j) 0 else 0 := by
  induction js generalizing ks with
  | nil => rfl
  | cons i js ih =>
    cases ks with
    | nil => exact (ite_self 0).symm
    | cons k ks =>
      rw [List.zip_cons_cons, List.find?_cons, List.contains_cons, List.idxOf_cons]
      by_cases h : i = j
      · subst h
        rw [beq_self_eq_true]
        rfl
      · have hi : (i == j) = false := beq_eq_false_iff_ne.mpr h
        have hj : (j == i) = false := beq_eq_false_iff_ne.mpr (Ne.symm h)
        rw [hi, hj, Bool.false_or]
        exact ih ks

theorem laneVec_eq (js ks : List Nat) : laneVec js ks = scattered js ks :=
  congrArg (vecOfN 4 64) (funext fun j => find?_zip_getD js ks j)

/-! ## What no operand read changes for a coding word -/

theorem tableLane_popped (c : Ctx) (it : Option Nat) (q : QRef) : tableLane (c.popped it q) = tableLane c := by
  cases it <;> cases q <;> rfl

theorem State.tableLane_vRead (s : State) (gm : BitVec 4) (rs : List (QRef × Bool)) :
    tableLane ((s.vRead gm rs).ctx (s.vRead gm rs).cur) = tableLane (s.ctx s.cur) := by
  rw [State.vRead_cur]
  exact s.ctx_vRead_keeps tableLane_popped gm rs

/-! ## The words -/

/-- A V word that codes lanes `l` in the state `u` after its reads, and goes on with the symbols. -/
theorem vword_code_run {gm : BitVec 4} {body : Mask → Act Unit} {k : Option (List Nat) → Act Unit} {s u v : State} {m : Mask}
    {l : List CodeLane} (hm : s.lanes gm = some m) (hc : u.cur = s.cur) (hs : u.curSt = s.curSt)
    (hbody : body m (s.begun .v gm) = (code l >>= k) u) (hl : u.mayCode l = true)
    (hk : ∀ t, t.changed id = u.coded l →
      ∃ w, k (some (u.symbols l)) t = .ok ((), w) ∧ w.cur = t.cur ∧ w.curSt = t.curSt ∧ w.retired 1 = v.retired 1) :
    vword gm body s = .next (v.retired 1) := by
  obtain ⟨t, hrun, ht⟩ := code_run hl
  obtain ⟨w, hw, hwc, hws, hv⟩ := hk t ht
  rw [← hv]
  exact vword_run hm (hbody.trans ((Act.bind_ok hrun).trans hw)) (hwc.trans ((State.cur_of_coded ht).trans hc))
    (hws.trans ((State.curSt_of_coded ht).trans hs))

/-- A word that encodes pushes nothing. -/
theorem vword_encode_run {gm : BitVec 4} {body : Mask → Act Unit} {s u : State} {m : Mask} {l : List CodeLane}
    (hm : s.lanes gm = some m) (hc : u.cur = s.cur) (hs : u.curSt = s.curSt)
    (hbody : body m (s.begun .v gm) = (code l >>= fun _ => pure ()) u) (hl : u.mayCode l = true) :
    vword gm body s = .next ((u.coded l).retired 1) :=
  vword_code_run hm hc hs hbody hl fun t ht => ⟨t, rfl, rfl, rfl, by rw [← ht, State.retired_changed_id]⟩

/-- The push of the symbols of decoded lanes; nothing of a word that poison discards. -/
def pushSymbols (q : QRef) (js : List Nat) : Option (List Nat) → Act Unit
  | none => pure ()
  | some ks => pushSoon q (laneVec js ks)

/-- A word that decodes lanes pushes their symbols. -/
theorem vword_decode_run {gm : BitVec 4} {body : Mask → Act Unit} {s u : State} {m : Mask} {l : List CodeLane} {q : QRef} {js : List Nat}
    (hm : s.lanes gm = some m) (hc : u.cur = s.cur) (hs : u.curSt = s.curSt)
    (hbody : body m (s.begun .v gm) = (code l >>= pushSymbols q js) u) (room : (u.ctx s.cur).room q = true) (hl : u.mayCode l = true) :
    vword gm body s = .next (((u.coded l).pushed q (some (scattered js (u.symbols l))) none).retired 1) := by
  refine vword_code_run hm hc hs hbody hl fun t ht => ⟨_, pushSoon_run _ ?_, t.pushed_cur _ _ _, t.pushed_curSt _ _ _, ?_⟩
  · rw [State.room_of_coded ht, hc]
    exact room
  · rw [laneVec_eq, ← ht, State.pushed_changed_id]

/-- The result of RCDEC: its slot and its symbol are due in 8 cycles (10 R233). -/
def pushDecoded (slot : Nat) (q : QRef) : Option (List Nat) → Act Unit
  | none => pure ()
  | some ks => do
    let _ ← launchFlight (.slot slot) (some 0) (some 8)
    pushLat q (BitVec.ofNat 2048 (ks.headD 0)) 8

theorem pushDecoded_run {slot : Nat} {q : QRef} {s : State} (ks : List Nat) (room : (s.ctx s.cur).room q = true) :
    pushDecoded slot q (some ks) s = .ok ((), (s.launched (.slot slot) (some 0) (some 8)).pushed q
      (some (BitVec.ofNat 2048 (ks.headD 0))) (some 8)) := by
  show (launchFlight (.slot slot) (some 0) (some 8) >>= fun _ => pushLat q (BitVec.ofNat 2048 (ks.headD 0)) 8) s = _
  rw [Act.bind_ok (launchFlight_run _ _ _ s)]
  exact pushLat_run _ 8 ((s.room_launched_slot slot _ _ q).trans room)

/-- Settles O32: each word reads and checks as its statement asks, and its lanes, which have the tables of the state before the reads,
take their steps in the state after them. -/
theorem codingWords : Obligations.CodingWords := by
  unfold Obligations.CodingWords
  refine ⟨fun o s m => ?rcenc, fun o s m => ?rcdec, fun o s m => ?rcencv, fun o s m => ?rcdecv, fun o s m => ?rcbinv,
    fun o s m => ?rcbinvEnc⟩
  case rcenc =>
    intro rs u k l ⟨hm, hread, _, _⟩ htab hl
    refine vword_encode_run hm (s.vRead_cur _ _) (s.vRead_curSt _ _) ?_ hl
    rw [Act.bind_ok (read1_vRead hread), Act.bind_ok (tablesReady_run htab), Act.bind_ok (cx_run _), s.tableLane_vRead]
  case rcdec =>
    intro u l ⟨hm, _, room, _⟩ htab hl
    refine vword_code_run (k := pushDecoded o.e.toNat (aRef .v o.x)) hm (s.begun_v_cur _) (s.begun_v_curSt _) ?_ hl
      fun t ht => ⟨_, pushDecoded_run _ ?_, State.pushed_cur _ _ _ _, State.pushed_curSt _ _ _ _, ?_⟩
    · rw [Act.bind_ok (checkPush_of_cur (s.begun_v_cur _) room), Act.bind_ok (tablesReady_run htab), Act.bind_ok (cx_run _),
        s.ctx_begun_cur]
      rfl
    · rw [State.room_of_coded ht, s.begun_v_cur]
      exact room
    · rw [← ht, State.launched_changed_id]
  case rcencv =>
    intro rs u tb l ⟨hm, hread, _, _⟩ htab hl
    have htables : tableLane (u.ctx u.cur) = tableLane (s.ctx s.cur) := s.tableLane_vRead o.gm rs
    refine vword_encode_run hm (s.vRead_cur _ _) (s.vRead_curSt _ _) ?_ hl
    rw [Act.bind_ok (readV_vRead hread), activeLanes_eq, tableOfLane_eq, Act.bind_ok (tablesReady_run htab), Act.bind_ok (cx_run _)]
    simp only [htables]
    rfl
  case rcdecv =>
    intro u tb l ⟨hm, _, room, _⟩ htab hl
    refine vword_decode_run hm (s.begun_v_cur _) (s.begun_v_curSt _) ?_ room hl
    rw [Act.bind_ok (checkPush_of_cur (s.begun_v_cur _) room), activeLanes_eq, tableOfLane_eq, Act.bind_ok (tablesReady_run htab),
      Act.bind_ok (cx_run _), s.ctx_begun_cur]
    rfl
  case rcbinv =>
    intro rs u js l ⟨hm, hread, room, _⟩ hl
    refine vword_decode_run hm (s.vRead_cur _ _) (s.vRead_curSt _ _) ?_ room hl
    rw [Act.bind_ok (readV_vRead hread), Act.bind_ok (checkPush_of_cur (s.vRead_cur _ _) room), binLanes_eq, lanes_of_mode, activeLanes_eq]
    rfl
  case rcbinvEnc =>
    intro rs u v l ⟨hm, hread, _, _⟩ hl
    refine vword_encode_run hm (s.vRead_cur _ _) (s.vRead_curSt _ _) ?_ hl
    rw [Act.bind_ok (readVV_vRead hread)]
    exact congrArg (fun x => (code x >>= fun _ => pure ()) u) (binLanes_eq ..)

end Sys2Proof.Machine

/-!
SUPPORT. RCINIT in a rollback-eligible loop, and the statement on the words of tables and slots (08 R188, 10 R232, R239).
-/
namespace Sys2Proof.Machine

theorem outward_stops {s : State} (h : s.outwardOk = false) : outward s = trapNow .looperr s.pcOf s := by
  have h' : (s.ctx s.cur).inwardOnly s.curSt s.curG = true := by simpa [State.outwardOk] using h
  show (if _ then _ else _) = _
  rw [if_pos h']
  rfl

/-- No poisoned unit: the word goes on whatever the mode. -/
theorem initPoison_nil (s : State) : initPoison [] s = .ok (false, s) := by
  unfold initPoison
  rw [Act.bind_ok (cx_run s), Act.bind_ok rfl]
  split
  · exact consumeNow_nil .vm s
  · rfl

/-- The descriptor `r` of an RCINIT has come, its slot may be bound, and it binds an encoder (10 R220, R232). -/
structure State.BindsEncoder (s : State) (o : VC) (r : InitRead) : Prop where
  readable : (s.ctx s.cur).readable [(aRef .v o.x, o.kx)] = true
  aligned : alignedIf true (s.frontWord (aRef .v o.x)) 32 = true
  idle : (s.ctx s.cur).slotBusy o.e.toNat = false
  written : s.emissionOut s.cur o.e.toNat = false
  emitted : ((s.ctx s.cur).slot o.e.toNat).emits = false
  initRead : (s.ctx s.cur).initRead = some r
  full : r.full = true
  clean : badUnits (s.frontWord (aRef .v o.x)).toNat (r.bytes 0 32) = []
  mbz : r.desc.v / 2 ^ 130 = 0
  base : bitsN r.desc.v 55 9 = 0
  encodes : r.desc.decodes = false
  position : bitsN r.desc.v 96 32 ≤ bitsN r.desc.v 64 32

section
variable {s : State} {o : VC} {r : InitRead} (h : s.BindsEncoder o r)
include h

theorem State.BindsEncoder.descCheck_run (n : Nat) : descCheck n r.desc s = .ok ((), s) := by
  have hcap : (!r.desc.decodes && decide (bitsN r.desc.v 64 32 < bitsN r.desc.v 96 32)) = false := by
    simpa [h.encodes] using h.position
  have hmbz : (r.desc.v / 2 ^ 130 != 0) = false := by rw [h.mbz]; rfl
  unfold descCheck
  rw [Act.bind_ok (trapIf_run _ _ s hmbz), Act.bind_ok (trapIf_run _ _ s hcap), h.base]
  rfl

/-- The try comes to its outward effect. -/
theorem State.BindsEncoder.initTry_run : initTry o s = initBinds (r.desc.slot (s.frontWord (aRef .v o.x))).encodeInit [] s := by
  have halign : ((s.frontWord (aRef .v o.x)).toNat % 32 != 0) = false := by simpa [alignedIf] using h.aligned
  have hemit : (s.emissionOut s.cur o.e.toNat || ((s.ctx s.cur).slot o.e.toNat).emits) = false := by rw [h.written, h.emitted]; rfl
  have hfull : ¬ (!r.full) = true := by simp [h.full]
  have hdec : ¬ (r.desc.slot (s.frontWord (aRef .v o.x))).decodes = true := by
    rw [show (r.desc.slot (s.frontWord (aRef .v o.x))).decodes = r.desc.decodes from rfl, h.encodes]
    decide
  unfold initTry
  rw [Act.bind_ok (checkRead_run (readable1 h.readable)), Act.bind_ok (cx_run s), frontWord_eq,
    Act.bind_ok (trapIf_run _ _ s halign), Act.bind_ok rfl, Act.bind_ok (waitIf_run _ s h.idle), Act.bind_ok (waitIf_run _ s hemit),
    h.initRead]
  simp only [h.clean, if_neg hfull, if_neg hdec]
  rw [Act.bind_ok (initPoison_nil s), if_neg (by decide), Act.bind_ok (h.descCheck_run _)]

/-- Where outward effects are forbidden it traps LOOPERR. -/
theorem State.BindsEncoder.initTry_stops (ho : s.outwardOk = false) : initTry o s = trapNow .looperr s.pcOf s := by
  rw [h.initTry_run]
  exact Act.bind_error (outward_stops ho)

end

/-- An RCINIT that would bind an encoder in the body of a rollback-eligible loop, outside its last stage, traps LOOPERR (08 R188, 10
R239). -/
theorem rcinit_looperr {s : State} {o : VC} {r : InitRead} (hm : (s.lanes o.gm).isSome = true) (h : (s.begun .v o.gm).BindsEncoder o r)
    (ho : (s.begun .v o.gm).outwardOk = false) : exec (.rcinit o) s = .next (s.trapped .looperr (s.begun .v o.gm).pcOf) := by
  obtain ⟨m, hm⟩ := Option.isSome_iff_exists.mp hm
  have hstop := h.initTry_stops ho
  rw [trapNow_congr (s.begun_v_curSt o.gm)] at hstop
  refine finish_trap ?_
  rw [Act.bind_ok (vMask_run hm)]
  exact Act.bind_error hstop

/-- A trap is no retirement. -/
theorem State.trapped_ne_retired (s t : State) (c : Cause) (a : Word) (n : Nat) : s.trapped c a ≠ t.retired n := by
  intro h
  have hissue : (s.trapped c a).lastIssue = (t.retired n).lastIssue := congrArg State.lastIssue h
  exact nomatch hissue

theorem State.frontWord_zero (s : State) : s.frontWord .zero = 0#64 := by
  simp [State.frontWord, State.front, Ctx.front]

namespace RcinitInLoop

/-- `RCINIT e2, [a0]`. -/
def rcinit : VC := { j := false, e := 2, fr := 0, x := 0, kx := false, gm := 0, mode := 0 }

/-- The descriptor at address 0 has come: 32 bytes of 0, an encoder of capacity 0 at address 0. -/
def descRead : InitRead := { id := 0, addr := 0, code := false, len := 32, got := (List.range 32).map fun k => (k, (0, false)) }

/-- Context A of cell 0, whose stream V stands in a rollback-eligible modulo loop of the one word at address 0: `LII.ACT` and `LII.RB`
are 1. -/
def start : State := { State.reset with ctxs := [(0, { Ctx.init with lii := 0x180, initRead := some descRead })], curSt := .v }

theorem frontWord_a0 : start.frontWord (aRef .v rcinit.x) = 0#64 := start.frontWord_zero

theorem start_binds : start.BindsEncoder rcinit descRead where
  readable := by decide
  aligned := by rw [frontWord_a0]; decide
  idle := by decide
  written := by decide
  emitted := by decide
  initRead := rfl
  full := by decide
  clean := by rw [frontWord_a0]; decide
  mbz := by decide
  base := by decide
  encodes := by decide
  position := by decide

theorem start_inward : start.outwardOk = false := by decide

end RcinitInLoop

open RcinitInLoop in
/-- Refutes O33, in its clause of RCINIT: in a rollback-eligible loop RCINIT traps LOOPERR as an outward effect (08 R188, 10 R239), and
the clause, which unlike those of the other coder words does not ask that outward effects are allowed, has it retire. -/
theorem not_coderTableAndSlotWords : ¬ Obligations.CoderTableAndSlotWords := by
  unfold Obligations.CoderTableAndSlotWords
  rintro ⟨-, -, hrcinit, -⟩
  have hb : start.BindsEncoder rcinit descRead := start_binds
  obtain ⟨hencoder, -⟩ := hrcinit rcinit start descRead rfl hb.readable hb.aligned hb.idle hb.written hb.emitted hb.initRead hb.full
    hb.clean hb.mbz hb.base
  have hretires := hencoder hb.encodes hb.position
  rw [rcinit_looperr (s := start) (o := rcinit) rfl hb start_inward] at hretires
  exact State.trapped_ne_retired _ _ _ _ _ (Host.Outcome.next.inj hretires)

end Sys2Proof.Machine

/-!
SUPPORT. TRET, the record that a trap leaves and where its context goes, and firmware's three answers (12 R244 to R251).
-/
namespace Sys2Proof.Machine

/-! ## TRET (12 R250) -/

@[simp] theorem Ctx.resumeAt_str (c : Ctx) (st : Stream) : c.resumeAt.str st = { c.str st with pc := (c.str st).tpc } :=
  Ctx.str_eachStr c _ st

/-- The context after TRET: its streams go on from their `TPC`, outside the handler, from the next cycle. -/
def Ctx.trapReturned (c : Ctx) : Ctx := { c.resumeAt with tcause := setBits c.tcause 15 1 0, slots0 := allSlots }

@[simp] theorem Ctx.trapReturned_str (c : Ctx) (st : Stream) : c.trapReturned.str st = { c.str st with pc := (c.str st).tpc } :=
  c.resumeAt_str st

@[simp] theorem Ctx.trapReturned_hnd (c : Ctx) : c.trapReturned.hnd = false :=
  bitOf_setBits_same c.tcause 0 (by omega)

theorem tret_returns {o : SX} {s : State} (h : (s.ctx s.cur).hnd = true) :
    exec (.tret o) s = .next (s.changed Ctx.trapReturned).issuedOnly := by
  refine finish_done ?_
  rw [Act.bind_ok (cx_run s), h]
  rfl

theorem tret_traps {o : SX} {s : State} (h : (s.ctx s.cur).hnd = false) :
    exec (.tret o) s = .next (s.trapped .illop (if o.j then 0x80000018#64 else 0x18#64)) := by
  refine finish_trap ?_
  rw [Act.bind_ok (cx_run s), h]
  rfl

/-- Settles O17: TRET changes the context that issues it and nothing else. -/
theorem trapReturn : Obligations.TrapReturn := by
  unfold Obligations.TrapReturn
  refine fun o s => ⟨fun h => ⟨_, tret_returns h, rfl, ?_⟩, tret_traps⟩
  have hother : ∀ c, c ≠ s.cur → (s.changed Ctx.trapReturned).issuedOnly.ctx c = s.ctx c :=
    fun c hc => State.ctx_modCtx_ne s _ hc
  have hself : (s.changed Ctx.trapReturned).issuedOnly.ctx s.cur = (s.ctx s.cur).trapReturned := State.ctx_modCtx_same s _ _
  rw [hself]
  exact ⟨Ctx.trapReturned_hnd _, fun st => by rw [Ctx.trapReturned_str], rfl, rfl, rfl, rfl, hother, rfl, rfl, rfl⟩

/-! ## ASYNC_FAULT (12 R244) -/

theorem Ctx.open_of_unheld {x : Ctx} (h : x.unheld) : x.open_ = true := by
  obtain ⟨hhold, hcut, hhnd⟩ := h
  simp [Ctx.open_, Ctx.holdsOps, hhold, hcut, hhnd]

/-- A cause that was kept over a handler comes before the fault of an operation. -/
theorem asyncFault_late {c : CtxRef} {op : Nat} {t : Trap} {r : List Trap} {s : State} (hu : (s.ctx c).unheld)
    (hl : (s.ctx c).late = t :: r) :
    exec (.asyncFault c op) s = .next ((s.setCtx c { s.ctx c with late := r }).raise c t) := by
  have ho := Ctx.open_of_unheld hu
  simp [execAsyncFault, Ctx.hasPending, State.raisePending, ho, hl]

theorem asyncFault_stopped {c : CtxRef} {op : Nat} {t : Trap} {s : State} (hu : (s.ctx c).unheld) (hl : (s.ctx c).late = [])
    (hs : (s.ctx c).stops.head? = some t) : exec (.asyncFault c op) s = .next (s.raise c t) := by
  have ho := Ctx.open_of_unheld hu
  have hne : (s.ctx c).stops ≠ [] := fun h => by simp [h] at hs
  simp [execAsyncFault, Ctx.hasPending, State.raisePending, ho, hl, hs, hne]

/-! ## `TCAUSE` (12 R245) -/

theorem Cause.code_lt (c : Cause) : c.code < 2 ^ 8 := by cases c <;> decide

theorem slotNo_lt (st : Stream) : slotNo st < 2 ^ 2 := by cases st <;> decide

/-- The fields of `TCAUSE` do not overlap. -/
theorem tcauseOf_toNat (t : Trap) (spl : Bool) : (tcauseOf t spl).toNat =
    t.cause.code + 2 ^ 10 * slotNo t.st + 2 ^ 13 * spl.toNat + 2 ^ 14 * t.async.toNat + 2 ^ 15 * (!t.cause.system).toNat := by
  have hcode := t.cause.code_lt
  have hslot := slotNo_lt t.st
  have hspl := spl.toNat_le
  have hasync := t.async.toNat_le
  have hlocal := (!t.cause.system).toNat_le
  rw [tcauseOf, BitVec.toNat_ofNat]
  exact Nat.mod_eq_of_lt (by omega)

section
variable (t : Trap) (spl : Bool)

theorem tcauseOf_code : bits (tcauseOf t spl) 0 8 = t.cause.code := by
  have hcode := t.cause.code_lt
  rw [bits, bitsN, tcauseOf_toNat]
  omega

theorem tcauseOf_stream : bits (tcauseOf t spl) 10 2 = slotNo t.st := by
  have hcode := t.cause.code_lt
  have hslot := slotNo_lt t.st
  rw [bits, bitsN, tcauseOf_toNat]
  omega

theorem tcauseOf_async : bitOf (tcauseOf t spl) 14 = t.async := by
  have hcode := t.cause.code_lt
  have hslot := slotNo_lt t.st
  have hspl := spl.toNat_le
  have hasync := t.async.toNat_le
  have hbit : bits (tcauseOf t spl) 14 1 = t.async.toNat := by
    rw [bits, bitsN, tcauseOf_toNat]
    omega
  rw [bitOf, hbit]
  cases t.async <;> rfl

theorem tcauseOf_hnd : bitOf (tcauseOf t spl) 15 = !t.cause.system := by
  have hcode := t.cause.code_lt
  have hslot := slotNo_lt t.st
  have hspl := spl.toNat_le
  have hasync := t.async.toNat_le
  have hlocal := (!t.cause.system).toNat_le
  have hbit : bits (tcauseOf t spl) 15 1 = (!t.cause.system).toNat := by
    rw [bits, bitsN, tcauseOf_toNat]
    omega
  rw [bitOf, hbit]
  cases t.cause.system <;> rfl

end

/-! ## The record of a trap (12 R245, R246) -/

/-- The context with the record of a trap, before it goes anywhere: `org` is the original place of a spliced word, `rank` the rank of the
cut. -/
def Ctx.recorded (x : Ctx) (t : Trap) (org : Option (Nat × Nat × Nat)) (rank : Nat) : Ctx :=
  let y := x.forgetIterations
  { y.eachStr (fun _ r => { r with tpc := codeAddr (y.nextWord r), tseq := r.seq }) with
    tcause := tcauseOf t org.isSome, taddr := t.addr, torig := torigOf org, tinfl := y.inflight, cut := none,
    halting := false, atFence := false, hndRank := rank, initRead := none, xcpy2 := none, rwpost := none, lqWait := false,
    hubRank := none }

theorem Ctx.recorded_str (x : Ctx) (t : Trap) (org : Option (Nat × Nat × Nat)) (rank : Nat) (st : Stream) :
    (x.recorded t org rank).str st = { x.str st with tpc := codeAddr (x.nextWord (x.str st)), tseq := (x.str st).seq } := by
  cases st <;> rfl

theorem Ctx.recorded_saved (x : Ctx) (t : Trap) (org : Option (Nat × Nat × Nat)) (rank : Nat) :
    TrapSaved x (x.recorded t org rank) t (!t.cause.system) where
  pcs st := by rw [Ctx.recorded_str]
  seqs st := by rw [Ctx.recorded_str]
  code := tcauseOf_code t _
  from_ := tcauseOf_stream t _
  async := tcauseOf_async t _
  hnd := tcauseOf_hnd t _
  addr := rfl
  cut := rfl

/-- Who holds the context is not part of the record. -/
theorem TrapSaved.held {x y : Ctx} {t : Trap} {b : Bool} (h : TrapSaved x y t b) (k : Hold) : TrapSaved x { y with hold := k } t b :=
  ⟨h.pcs, h.seqs, h.code, h.from_, h.async, h.hnd, h.addr, h.cut⟩

/-- Nor is the pc of S, which goes to the handler. -/
theorem TrapSaved.goesTo {x y : Ctx} {t : Trap} {b : Bool} (h : TrapSaved x y t b) (a : Word) :
    TrapSaved x (y.modStr .s fun r => { r with pc := a }) t b where
  pcs st := by rw [← h.pcs st]; cases st <;> rfl
  seqs st := by rw [← h.seqs st]; cases st <;> rfl
  code := h.code
  from_ := h.from_
  async := h.async
  hnd := h.hnd
  addr := h.addr
  cut := h.cut

/-! ## TRAP_ENTRY (12 R246, R248) -/

@[simp] theorem State.rollbackNow_cells (s : State) (c : CtxRef) : (s.rollbackNow c).cells = s.cells := by
  unfold State.rollbackNow
  split <;> rfl

@[simp] theorem State.rollbackNow_hub (s : State) (c : CtxRef) : (s.rollbackNow c).hub = s.hub := by
  unfold State.rollbackNow
  split <;> rfl

/-- A trap is counted in its cell, once the rollback that was due has taken place. -/
def State.trapCounted (s : State) (c : CtxRef) : State := (s.rollbackNow c).modCell c.cell fun l => l.count 15 1

theorem State.trapCounted_ctx (s : State) (c d : CtxRef) : (s.trapCounted c).ctx d = (s.rollbackNow c).ctx d := rfl

theorem State.trapCounted_hub (s : State) (c : CtxRef) : (s.trapCounted c).hub = s.hub := s.rollbackNow_hub c

/-- Counting a trap leaves the debugger attached where it is. -/
theorem State.trapCounted_invasive (s : State) (c : CtxRef) : (s.trapCounted c).invasive c = s.invasive c := by
  have hcell : (s.trapCounted c).cell c.cell = (s.cell c.cell).count 15 1 := by
    rw [State.trapCounted, State.cell_modCell_same, State.cell, State.rollbackNow_cells, State.cell]
  simp only [State.invasive, State.partOf, hcell, State.trapCounted_hub]
  rfl

/-- The record that TRAP_ENTRY writes: of the context after the rollback that was due. -/
def State.trapRecord (s : State) (c : CtxRef) (t : Trap) : Ctx :=
  let u := s.rollbackNow c
  (u.ctx c).recorded t (spliceOrigin u c (t.word.getD ((u.ctx c).str t.st).pc)) u.nextId

theorem State.trapRecord_saved (s : State) (c : CtxRef) (t : Trap) :
    TrapSaved ((s.rollbackNow c).ctx c) (s.trapRecord c t) t (!t.cause.system) :=
  Ctx.recorded_saved _ t _ _

/-- The fault record that firmware gets. -/
def State.faultRec (s : State) (c : CtxRef) (t : Trap) : FaultRec :=
  let y := t.syn.getD (s.synOf c .read t.addr)
  { c := c, use := y.use, cause := t.cause, pc := t.word.getD ((s.ctx c).str t.st).pc, addr := t.addr, level := y.level, entry := y.entry }

theorem State.report_hub_faults (s : State) (c : CtxRef) (t : Trap) :
    (s.report c t).hub.faults = s.hub.faults ++ [s.faultRec c t] := rfl

section
variable {c : CtxRef} {t : Trap} {s : State}

/-- In a handler nothing is recorded: firmware hears of the second cause. -/
theorem State.takeTrap_handler (h : ((s.rollbackNow c).ctx c).hnd = true) : s.takeTrap c t =
    (((s.rollbackNow c).report c t).setCtx c
      { (s.rollbackNow c).ctx c with hold := .firmware, cut := none, atFence := false }).modCell c.cell fun l => l.count 15 1 :=
  if_pos h

/-- A local cause with a handler to go to. -/
theorem State.takeTrap_local (h : ((s.rollbackNow c).ctx c).hnd = false) (hbrk : t.cause = .brkpt → s.invasive c = false)
    (hsys : t.cause.system = false) (hvec : codeAddr ((s.rollbackNow c).ctx c).tvec ≠ 0) : s.takeTrap c t =
      (s.trapCounted c).setCtx c
        ((s.trapRecord c t).modStr .s fun r => { r with pc := codeAddr ((s.rollbackNow c).ctx c).tvec }) := by
  have hdbg : ¬(t.cause = .brkpt ∧ (s.trapCounted c).invasive c = true) := by
    rintro ⟨hc, hi⟩
    rw [State.trapCounted_invasive, hbrk hc] at hi
    exact absurd hi (by decide)
  have hhnd : ¬((s.rollbackNow c).ctx c).hnd = true := by simp [h]
  have hlocal : ¬t.cause.system = true := by simp [hsys]
  exact (if_neg hhnd).trans ((if_neg hdbg).trans ((if_neg hlocal).trans (if_neg hvec)))

/-- A system cause waits for firmware. -/
theorem State.takeTrap_system (h : ((s.rollbackNow c).ctx c).hnd = false) (hsys : t.cause.system = true) : s.takeTrap c t =
    ((s.trapCounted c).report c t).setCtx c { s.trapRecord c t with hold := .firmware } := by
  have hdbg : ¬(t.cause = .brkpt ∧ (s.trapCounted c).invasive c = true) := by
    rintro ⟨hc, -⟩
    rw [hc] at hsys
    exact absurd hsys (by decide)
  have hhnd : ¬((s.rollbackNow c).ctx c).hnd = true := by simp [h]
  exact (if_neg hhnd).trans ((if_neg hdbg).trans (if_pos hsys))

theorem trapEntry_enters (hcut : (s.ctx c).cut = some t) (hm : s.mayEnter c = true) :
    exec (.trapEntry c) s = .next (s.takeTrap c t) := by
  simp [execTrapEntry, hcut, hm]

theorem trapEntry_waits (hcut : (s.ctx c).cut = some t) (hm : s.mayEnter c = false) : exec (.trapEntry c) s = .next s := by
  simp [execTrapEntry, hcut, hm]

theorem trapEntry_local (hcut : (s.ctx c).cut = some t) (hm : s.mayEnter c = true) (h : ((s.rollbackNow c).ctx c).hnd = false)
    (hbrk : t.cause = .brkpt → s.invasive c = false) (hsys : t.cause.system = false)
    (hvec : codeAddr ((s.rollbackNow c).ctx c).tvec ≠ 0) :
    let x := (s.rollbackNow c).ctx c
    ∃ u, exec (.trapEntry c) s = .next u ∧ TrapSaved x (u.ctx c) t true ∧ (u.ctx c).ss.pc = codeAddr x.tvec ∧
      (u.ctx c).sv.pc = x.sv.pc ∧ (u.ctx c).sm.pc = x.sm.pc ∧ (u.ctx c).sx.pc = x.sx.pc := by
  intro x
  have hsaved : TrapSaved x (s.trapRecord c t) t true := by simpa [hsys] using s.trapRecord_saved c t
  refine ⟨_, by rw [trapEntry_enters hcut hm, State.takeTrap_local h hbrk hsys hvec], ?_⟩
  rw [State.ctx_setCtx_same]
  exact ⟨hsaved.goesTo _, rfl, rfl, rfl, rfl⟩

theorem trapEntry_system (hcut : (s.ctx c).cut = some t) (hm : s.mayEnter c = true) (h : ((s.rollbackNow c).ctx c).hnd = false)
    (hsys : t.cause.system = true) :
    let x := (s.rollbackNow c).ctx c
    ∃ u, exec (.trapEntry c) s = .next u ∧ TrapSaved x (u.ctx c) t false ∧ (u.ctx c).hold = .firmware ∧
      ∃ r, u.hub.faults = s.hub.faults ++ [r] ∧ r.c = c ∧ r.cause = t.cause ∧ r.addr = t.addr := by
  intro x
  have hsaved : TrapSaved x (s.trapRecord c t) t false := by simpa [hsys] using s.trapRecord_saved c t
  refine ⟨_, by rw [trapEntry_enters hcut hm, State.takeTrap_system h hsys], ?_, ?_, (s.trapCounted c).faultRec c t, ?_, rfl, rfl, rfl⟩
  · rw [State.ctx_setCtx_same]
    exact hsaved.held .firmware
  · rw [State.ctx_setCtx_same]
  · rw [State.setCtx_hub, State.report_hub_faults, State.trapCounted_hub]

theorem trapEntry_double (hcut : (s.ctx c).cut = some t) (hm : s.mayEnter c = true) (h : ((s.rollbackNow c).ctx c).hnd = true) :
    ∃ u, exec (.trapEntry c) s = .next u ∧
      u.ctx c = { (s.rollbackNow c).ctx c with hold := .firmware, cut := none, atFence := false } ∧
      ∃ r, u.hub.faults = s.hub.faults ++ [r] ∧ r.c = c ∧ r.cause = t.cause ∧ r.addr = t.addr := by
  refine ⟨_, by rw [trapEntry_enters hcut hm, State.takeTrap_handler h], ?_, (s.rollbackNow c).faultRec c t, ?_, rfl, rfl, rfl⟩
  · rw [State.ctx_modCell, State.ctx_setCtx_same]
  · rw [State.modCell_hub, State.setCtx_hub, State.report_hub_faults, State.rollbackNow_hub]

end

/-! ## Firmware's answers (12 R251) -/

theorem Ctx.allHalted_iff (x : Ctx) : x.allHalted = true ↔ ∀ st ∈ Stream.all, (x.str st).halted = true := by
  simp [Ctx.allHalted, Stream.all, Ctx.str, and_assoc]

/-- The context that firmware lets go: nothing stops the operation of the cause any more. -/
def Ctx.letGo (cause : Nat × Word) (x : Ctx) : Ctx :=
  { x.clearPending cause with hold := if x.allHalted then .finished else .free }

@[simp] theorem Ctx.letGo_str (cause : Nat × Word) (x : Ctx) (st : Stream) : (x.letGo cause).str st = x.str st := by
  cases st <;> rfl

/-- The context that firmware has resumed: outside a handler every stream goes on from its `TPC`. -/
def Ctx.resumed (cause : Nat × Word) (x : Ctx) : Ctx := if x.hnd then x.letGo cause else (x.letGo cause).resumeAt

theorem Ctx.resumed_hold (cause : Nat × Word) (x : Ctx) :
    (x.resumed cause).hold = if ∀ st ∈ Stream.all, (x.str st).halted = true then .finished else .free := by
  simp only [← Ctx.allHalted_iff]
  unfold Ctx.resumed
  split <;> rfl

theorem Ctx.resumed_pc (cause : Nat × Word) (x : Ctx) (st : Stream) :
    ((x.resumed cause).str st).pc = if x.hnd then (x.str st).pc else (x.str st).tpc := by
  unfold Ctx.resumed
  split <;> simp

@[simp] theorem State.failNode_ctx (s : State) (c : CtxRef) (f : Failure) :
    (s.failNode c f).ctx c = { s.ctx c with hold := .failed, cut := none } := by
  simp only [State.failNode]
  split
  · rw [State.ctx_setCtx_same]
  · rw [State.ctx_modHub, State.ctx_setCtx_same]

theorem State.failNode_fails {s : State} {c : CtxRef} {r : Running} (f : Failure) (h : (s.ctx c).running = some r) :
    (s.failNode c f).hub.fails = s.hub.fails ++ [(r.node, f)] := by
  simp only [State.failNode, h]
  rfl

theorem State.systemCause_recorded {s : State} {c : CtxRef} (h : (s.ctx c).hnd = false) :
    s.systemCause c = (bits (s.ctx c).tcause 0 8, (s.ctx c).taddr) := by
  simp [State.systemCause, h]

section
variable {c : CtxRef} {s : State}

theorem firmwareResume_run (hf : s.firmwareRuns = true) (hh : (s.ctx c).hold = .firmware) : exec (.firmwareResume c) s =
    .next ((s.modCtx c (Ctx.resumed (s.systemCause c))).retryAccs c (s.systemCause c).2) := by
  rw [exec_firmwareResume, execFirmwareResume, State.byFirmware_on _ hf, if_pos hh]
  rfl

theorem firmwareFail_run (hf : s.firmwareRuns = true) (hh : (s.ctx c).hold = .firmware) : exec (.firmwareFail c) s =
    .next (s.failNode c { (s.ctx c).trapFailure 2 with cause := (s.systemCause c).1, detail := (s.systemCause c).2 }) := by
  rw [exec_firmwareFail, execFirmwareFail, State.byFirmware_on _ hf, if_pos hh]

theorem firmwareRerun_run {r : Running} (hf : s.firmwareRuns = true) (hh : (s.ctx c).hold = .firmware)
    (hr : (s.ctx c).running = some r) : exec (.firmwareRerun c) s = .next (s.runAgain r.node) := by
  rw [exec_firmwareRerun, execFirmwareRerun, State.byFirmware_on _ hf, if_pos hh, hr]

/-- Firmware answers a context that waits for it, and no other. -/
theorem firmware_unasked (hh : (s.ctx c).hold ≠ .firmware) : exec (.firmwareResume c) s = .next s ∧
    exec (.firmwareFail c) s = .next s ∧ exec (.firmwareRerun c) s = .next s := by
  simp [execFirmwareResume, execFirmwareFail, execFirmwareRerun, State.byFirmware, hh]

end

/-- Settles O42, from the lemmas of each step. -/
theorem trapsAreTakenAndAnswered : Obligations.TrapsAreTakenAndAnswered := by
  unfold Obligations.TrapsAreTakenAndAnswered
  refine ⟨fun c op t s hu => ⟨fun r => asyncFault_late hu, asyncFault_stopped hu⟩,
    fun c t s hcut hm h hbrk => ⟨trapEntry_local hcut hm h hbrk, trapEntry_system hcut hm h⟩,
    fun c t s => trapEntry_double, fun c t s => trapEntry_waits, fun c s => ⟨fun hf hh => ⟨?_, ?_, ?_⟩, ?_⟩⟩
  · refine ⟨_, firmwareResume_run hf hh, ?_⟩
    have hctx : ((s.modCtx c (Ctx.resumed (s.systemCause c))).retryAccs c (s.systemCause c).2).ctx c =
      (s.ctx c).resumed (s.systemCause c) := State.ctx_modCtx_same s c _
    rw [hctx]
    exact ⟨Ctx.resumed_hold _ _, Ctx.resumed_pc _ _⟩
  · intro r hr
    refine ⟨_, _, firmwareFail_run hf hh, by rw [State.failNode_ctx], State.failNode_fails _ hr, rfl, fun h => ?_⟩
    rw [State.systemCause_recorded h]
    exact ⟨rfl, rfl⟩
  · exact fun r => firmwareRerun_run hf hh
  · rintro (hh | hf)
    · exact firmware_unasked hh
    · exact ⟨firmwareStep_off (.resume c) hf, firmwareStep_off (.fail c) hf, firmwareStep_off (.rerun c) hf⟩

end Sys2Proof.Machine

/-!
SUPPORT. A new operation in the record, the checks of an M word, its operand reads, and the statements on the words that set formats, fill
planes and start streams (14 R277, 15 R281 to R296).
-/
namespace Sys2Proof.Machine

/-! ## A new operation (14 R277) -/

/-- The spans of ranges lie in the same spaces as the ranges. -/
theorem spanSegs_any_space (f : Space → Bool) (l : List Seg) :
    ((spanSegs l).any fun g => f g.space) = l.any fun g => f g.space := by
  induction l with
  | nil => rfl
  | cons g r ih =>
    rw [List.any_cons, ← ih, spanSegs]
    cases hfind : (spanSegs r).find? fun h => h.space == g.space with
    | none => rfl
    | some h =>
      rw [Bool.eq_iff_iff]
      simp only [List.any_cons, List.any_filter, Bool.or_eq_true, List.any_eq_true, Bool.and_eq_true, bne_iff_ne, Seg.span]
      constructor
      · rintro (hg | ⟨x, hx, -, hfx⟩)
        · exact .inl hg
        · exact .inr ⟨x, hx, hfx⟩
      · rintro (hg | ⟨x, hx, hfx⟩)
        · exact .inl hg
        · by_cases he : x.space = g.space
          · exact .inl (he ▸ hfx)
          · exact .inr ⟨x, hx, he, hfx⟩

/-- Where the record has room for the ranges of a new operation, the operation does not wait for it. -/
theorem recordFree_run {o : EngineOp} {reads writes : List Seg} {s : State} (hst : o.st = s.curSt) (hr : o.reads = spanSegs reads)
    (hw : o.writes = spanSegs writes) (h : s.recordRoom (reads ++ writes) = true) : recordFree o s = .ok ((), s) := by
  have hspace : ((o.reads ++ o.writes).any fun g => g.space != .vm) = (reads ++ writes).any fun g => g.space != .vm := by
    rw [hr, hw, List.any_append, List.any_append, spanSegs_any_space (· != .vm), spanSegs_any_space (· != .vm)]
  simp only [State.recordRoom, ← hspace, ← hst, Bool.and_eq_true, Bool.or_eq_true, Bool.not_eq_true', decide_eq_true_eq] at h
  obtain ⟨hall, hx⟩ := h
  have hall' : (o.recorded && decide (32 ≤ ((s.ctx s.cur).ops.filter EngineOp.recorded).length)) = false := by
    rw [Bool.and_eq_false_iff, decide_eq_false_iff_not, Nat.not_le]
    exact hall
  have hx' : (o.st == .x && decide (16 ≤ ((s.ctx s.cur).ops.filter fun p => p.st == .x).length)) = false := by
    rw [Bool.and_eq_false_iff, decide_eq_false_iff_not, Nat.not_le, beq_eq_false_iff_ne, ← bne_iff_ne]
    exact hx
  unfold recordFree
  rw [Act.bind_ok (cx_run s), Act.bind_ok (waitIf_run _ s hall')]
  exact waitIf_run _ s hx'

theorem newOp_run {reads writes : List Seg} {s : State} (kind : OpKind) (parts : List Part)
    (h : s.recordRoom (reads ++ writes) = true) :
    newOp kind reads writes parts s = .ok (s.nextId, s.recorded kind reads writes parts) := by
  unfold newOp
  rw [Act.bind_ok (cx_run s), Act.bind_ok (curStream_run s), Act.bind_ok (curCell_run s), Act.bind_ok (freshId_run s),
    Act.bind_ok (recordFree_run (s := { s with nextId := s.nextId + 1 }) rfl rfl rfl h), Act.bind_ok rfl]
  rfl

/-- An operation is recorded, and nothing more. -/
theorem newOp_starts_run {reads writes : List Seg} {s : State} (kind : OpKind) (h : s.recordRoom (reads ++ writes) = true) :
    newOp kind reads writes [] s = .ok (s.nextId, s.starts kind reads writes) := newOp_run kind [] h

/-! ## The checks of an M word (02 R30, 14 R262, 15 R282, R292) -/

theorem soloB_run {sp : Space} {s : State} (a : Word) (h : s.mayName sp = true) : soloB sp a s = .ok ((), s) := by
  unfold soloB
  refine if_neg ?_
  unfold State.mayName at h
  cases hb : s.cur.bank with
  | a => simp
  | b => cases sp <;> simp_all

theorem soloM_run {s : State} (a : Word) (h : s.mayName .ab = true) : soloM a s = .ok ((), s) := soloB_run a h

theorem inLimit_run {sp : Space} {a n : Nat} {s : State} (t : Word) (h : a + n ≤ s.limit s.cur sp) : inLimit sp a n t s = .ok ((), s) :=
  if_pos h

theorem align_run {x m : Nat} (t : Word) (s : State) (h : x % m = 0) : trapIf (x % m != 0) .align t s = .ok ((), s) :=
  trapIf_run _ _ s (bne_eq_false_iff_eq.mpr h)

/-- An alignment that one format alone asks for. -/
theorem align_of_run {f k x m : Nat} (t : Word) (s : State) (h : f = k → x % m = 0) :
    trapIf (f == k && x % m != 0) .align t s = .ok ((), s) :=
  trapIf_run _ _ s (by simpa using h)

/-- A check that is made under a condition goes on where it goes on under the condition. -/
theorem ite_check_run {p : Prop} [Decidable p] {a : Act Unit} {s : State} (h : p → a s = .ok ((), s)) :
    (if p then a else pure ()) s = .ok ((), s) := by
  split
  · next hp => exact h hp
  · rfl

theorem fmtMix_run {b : Bool} (s : State) (h : b = false) : fmtMix b s = .ok ((), s) := by
  unfold fmtMix
  rw [Act.bind_ok (cx_run s)]
  exact trapIf_run _ _ s h

theorem fmtMix_traps {b : Bool} (s : State) (h : b = true) : fmtMix b s =
    trapNow .fmtmix (BitVec.ofNat 64 (16 * (s.ctx s.cur).issCf.toNat + (s.ctx s.cur).issAct.toNat)) s := by
  unfold fmtMix
  rw [Act.bind_ok (cx_run s), h]
  rfl

theorem wdFree_run {n : Nat} {s : State} (h : s.windowFree n = true) : wdFree n s = .ok ((), s) := by
  unfold wdFree
  rw [Act.bind_ok (cx_run s)]
  exact waitIf_run _ s (by simpa only [State.windowFree, Bool.not_eq_true'] using h)

theorem useWd_run {n eb : Nat} {modes : List Nat} {group : Option Nat} {s : State}
    (h : Wd.fails (Table.get (s.ctx s.cur).wd 0 n) (s.limit s.cur .ab) modes eb group = none) :
    useWd n modes eb group s = .ok (Table.get (s.ctx s.cur).wd 0 n, s) := by
  unfold useWd
  rw [Act.bind_ok (cx_run s), Act.bind_ok rfl]
  simp only [h]
  rfl

/-! ## What the operand reads of an M word leave -/

theorem Ctx.popped_issCf (c : Ctx) (it : Option Nat) (q : QRef) : (c.popped it q).issCf = c.issCf := by
  cases it <;> cases q <;> rfl

theorem Ctx.popped_issAct (c : Ctx) (it : Option Nat) (q : QRef) : (c.popped it q).issAct = c.issAct := by
  cases it <;> cases q <;> rfl

theorem Ctx.popped_accOvf (c : Ctx) (it : Option Nat) (q : QRef) : (c.popped it q).accOvf = c.accOvf := by
  cases it <;> cases q <;> rfl

theorem Ctx.popped_wd (c : Ctx) (it : Option Nat) (q : QRef) : (c.popped it q).wd = c.wd := by
  cases it <;> cases q <;> rfl

theorem Ctx.popped_ops (c : Ctx) (it : Option Nat) (q : QRef) : (c.popped it q).ops = c.ops := by
  cases it <;> cases q <;> rfl

theorem Ctx.popped_sops (c : Ctx) (it : Option Nat) (q : QRef) : (c.popped it q).sops = c.sops := by
  cases it <;> cases q <;> rfl

theorem State.cell_tookAll (s : State) (rs : List (QRef × Bool)) (n : Nat) : (s.tookAll rs).cell n = s.cell n := by
  induction rs generalizing s with
  | nil => rfl
  | cons p rs ih =>
    obtain ⟨q, k⟩ := p
    exact (ih _).trans (by cases k <;> rfl)

section
variable (s : State) (g : BitVec 4) (rs : List (QRef × Bool))

@[simp] theorem State.maRead_cur : (s.maRead g rs).cur = s.cur := State.tookAll_cur _ rs

@[simp] theorem State.maRead_curSt : (s.maRead g rs).curSt = s.curSt := State.tookAll_curSt _ rs

@[simp] theorem State.cell_maRead (n : Nat) : (s.maRead g rs).cell n = s.cell n := State.cell_tookAll _ rs n

theorem State.ctx_maRead_keeps {α : Type} {f : Ctx → α} (hf : ∀ c it q, f (Ctx.popped c it q) = f c) :
    f ((s.maRead g rs).ctx s.cur) = f (s.ctx s.cur) := State.ctx_tookAll_keeps hf (s.entered g) rs

@[simp] theorem State.maRead_issCf : ((s.maRead g rs).ctx s.cur).issCf = (s.ctx s.cur).issCf :=
  s.ctx_maRead_keeps g rs Ctx.popped_issCf

@[simp] theorem State.maRead_issAct : ((s.maRead g rs).ctx s.cur).issAct = (s.ctx s.cur).issAct :=
  s.ctx_maRead_keeps g rs Ctx.popped_issAct

@[simp] theorem State.maRead_accOvf : ((s.maRead g rs).ctx s.cur).accOvf = (s.ctx s.cur).accOvf :=
  s.ctx_maRead_keeps g rs Ctx.popped_accOvf

@[simp] theorem State.maRead_wd : ((s.maRead g rs).ctx s.cur).wd = (s.ctx s.cur).wd :=
  s.ctx_maRead_keeps g rs Ctx.popped_wd

theorem State.limit_maRead (sp : Space) : (s.maRead g rs).limit (s.maRead g rs).cur sp = s.limit s.cur sp := by
  simp [State.limit]

@[simp] theorem State.mayName_maRead (sp : Space) : (s.maRead g rs).mayName sp = s.mayName sp := by
  simp [State.mayName]

@[simp] theorem State.windowFree_maRead (n : Nat) : (s.maRead g rs).windowFree n = s.windowFree n := by
  simp only [State.windowFree, Ctx.wdPending, State.maRead_cur, s.ctx_maRead_keeps g rs Ctx.popped_ops,
    s.ctx_maRead_keeps g rs Ctx.popped_sops]

/-! The checks go on after the reads where they would go on before them. -/

theorem soloM_maRead_run (a : Word) (h : s.mayName .ab = true) : soloM a (s.maRead g rs) = .ok ((), s.maRead g rs) :=
  soloM_run a ((s.mayName_maRead g rs .ab).trans h)

theorem inLimit_maRead_run {sp : Space} {a n : Nat} (t : Word) (h : a + n ≤ s.limit s.cur sp) :
    inLimit sp a n t (s.maRead g rs) = .ok ((), s.maRead g rs) :=
  inLimit_run t ((s.limit_maRead g rs sp).symm ▸ h)

end

/-! ## M words that read operands -/

section
variable {s t : State} {g : BitVec 4} {a b : QRef} {ka kb : Bool}

/-- A guarded word of two operands whose body goes on after its reads. -/
theorem word_read2_run {body : Word × Word → Act Unit} (h : s.maReady g [(a, ka), (b, kb)] = true)
    (hb : body (s.maArg g [(a, ka), (b, kb)] 0, s.maArg g [(a, ka), (b, kb)] 1) (s.maRead g [(a, ka), (b, kb)]) = .ok ((), t))
    (hc : t.cur = s.cur) (hs : t.curSt = s.curSt) : word g (read2 a ka b kb >>= body) s = .next (t.retired 1) := by
  obtain ⟨hg, hr⟩ := Bool.and_eq_true_iff.mp h
  exact word_run hg ((Act.bind_ok (read2_run (s := s.entered g) hr)).trans hb) hc hs

/-- The same of a word of three operands. -/
theorem word_read3_run {o : MA} {st : Stream} {body : Word × Word × Word → Act Unit} (h : s.maReady o.g (maReads st o) = true)
    (hb : body (s.maArg o.g (maReads st o) 0, s.maArg o.g (maReads st o) 1, s.maArg o.g (maReads st o) 2) (s.maRead o.g (maReads st o)) =
      .ok ((), t))
    (hc : t.cur = s.cur) (hs : t.curSt = s.curSt) : word o.g (readMA st o >>= body) s = .next (t.retired 1) := by
  obtain ⟨hg, hr⟩ := Bool.and_eq_true_iff.mp h
  exact word_run hg ((Act.bind_ok (read3_run (s := s.entered o.g) hr)).trans hb) hc hs

end

/-! ## MFMT, MFMT.t and MSWAP (15 R285, R287) -/

/-- The formats that MFMT.t does not exchange: no format, the block formats, and formats of another element width. -/
def fmtsDiffer (t f : Nat) : Bool := t == 0 || t == 5 || t == 6 || f == 5 || f == 6 || fmtWidth t != fmtWidth f

theorem fmtsDiffer_iff (t f : Nat) : fmtsDiffer t f = true ↔ t ∈ [0, 5, 6] ∨ f ∈ [5, 6] ∨ fmtWidth t ≠ fmtWidth f := by
  simp [fmtsDiffer, or_assoc]

section
variable {o : MA} {s : State} (hg : s.guardOpen o.g = true) (hn : s.mayName .ab = true)
include hg hn

theorem mfmt_run : exec (.mfmt o) s = .next (((s.entered o.g).changed fun c =>
    { c with cf := o.mode.extractLsb' 0 4, issCf := o.mode.extractLsb' 0 4 }).retired 1) := by
  refine word_run hg ?_ rfl rfl
  rw [Act.bind_ok (soloM_run (s := s.entered o.g) 0 hn)]
  exact modCx_run _ _

theorem mfmtT_run (h : fmtsDiffer (s.ctx s.cur).issAct.toNat (o.mode.extractLsb' 0 4).toNat = false) :
    exec (.mfmtT o) s = .next (((s.entered o.g).changed fun c =>
      { c.retag (o.mode.extractLsb' 0 4) with
        cf := o.mode.extractLsb' 0 4, issCf := o.mode.extractLsb' 0 4, issAct := o.mode.extractLsb' 0 4 }).retired 1) := by
  refine word_run hg ?_ rfl rfl
  rw [Act.bind_ok (soloM_run (s := s.entered o.g) 0 hn), Act.bind_ok (cx_run _)]
  exact (Act.bind_ok (fmtMix_run (s.entered o.g) h)).trans (modCx_run _ _)

theorem mfmtT_traps (h : fmtsDiffer (s.ctx s.cur).issAct.toNat (o.mode.extractLsb' 0 4).toNat = true) :
    exec (.mfmtT o) s = .next (s.trapped .fmtmix
      (BitVec.ofNat 64 (16 * (s.ctx s.cur).issCf.toNat + (s.ctx s.cur).issAct.toNat))) := by
  refine word_trap hg ?_
  rw [Act.bind_ok (soloM_run (s := s.entered o.g) 0 hn), Act.bind_ok (cx_run _)]
  exact Act.bind_error (fmtMix_traps (s.entered o.g) h)

theorem mswap_run (ho : (s.entered o.g).outwardOk = true) (hroom : (s.entered o.g).recordRoom [] = true) :
    let c := s.ctx s.cur
    let sh := if (s.cell s.cur.cell).pair then c.issSh else c.issAct
    exec (.mswap o) s = .next ((((s.entered o.g).starts (.mswap c.issSh sh) [] []).changed fun x =>
      { x with issAct := c.issSh, issSh := sh, ldSince := false }).retired 1) := by
  refine word_run hg ?_ rfl rfl
  rw [Act.bind_ok (soloM_run (s := s.entered o.g) 0 hn), Act.bind_ok (outward_run ho), Act.bind_ok (cx_run _), Act.bind_ok (curCell_run _),
    Act.bind_ok (newOp_starts_run _ hroom)]
  exact modCx_run _ _

end

/-! ## MLDW and MZERO (15 R286, R288) -/

theorem mldw_run {o : MA} {s : State} :
    let rs := [(aRef .m o.a, o.k1), (aRef .m o.b, o.k2)]
    let u := s.maRead o.g rs
    let a := (s.maArg o.g rs 0).toNat
    let b := (s.maArg o.g rs 1).toNat
    let f := (s.ctx s.cur).issCf.toNat
    let side := sidePlane f
    let reads := seg .wb a planeSize ++ seg .wb b side
    s.maReady o.g rs = true → s.mayName .ab = true → u.outwardOk = true → f ≠ 0 → a % 256 = 0 →
    a + planeSize ≤ s.limit s.cur .wb → (side ≠ 0 → b + side ≤ s.limit s.cur .wb) → (f = 6 → b % 4 = 0) →
    u.recordRoom reads = true →
    exec (.mldw o) s = .next (((u.starts (.mldw f a b) reads []).changed fun c =>
      { c with issSh := c.issCf, issAct := if (s.cell s.cur.cell).pair then 0 else c.issAct, ldSince := true }).retired 1) := by
  intro rs u a b f side reads hready hn ho hf halign hplane hside hword hroom
  refine word_read2_run hready ?_ (s.maRead_cur _ _) (s.maRead_curSt _ _)
  dsimp only
  rw [Act.bind_ok (soloM_maRead_run s _ _ _ hn), Act.bind_ok (cx_run _), State.maRead_cur, State.maRead_issCf,
    Act.bind_ok (fmtMix_run _ (beq_eq_false_iff_ne.mpr hf)), Act.bind_ok (align_run _ _ halign),
    Act.bind_ok (inLimit_maRead_run s _ _ _ hplane),
    Act.bind_ok (ite_check_run fun h => inLimit_maRead_run s _ _ _ (hside (Nat.ne_of_gt h))),
    Act.bind_ok (align_of_run _ _ hword), Act.bind_ok (outward_run ho), Act.bind_ok (curCell_run _),
    Act.bind_ok (newOp_starts_run _ (by rw [List.append_nil]; exact hroom)), State.maRead_cur, State.cell_maRead]
  exact modCx_run _ _

theorem mzero_run {o : MA} {s : State} :
    let rs := [(aRef .m o.a, o.k1), (aRef .m o.b, o.k2)]
    let u := s.maRead o.g rs
    let a := (s.maArg o.g rs 0).toNat
    let n := (s.maArg o.g rs 1).toNat % 2 ^ 11
    s.maReady o.g rs = true → s.mayName .ab = true → u.outwardOk = true → a % 1024 = 0 → a + 1024 * n ≤ s.limit s.cur .cb →
    u.recordRoom (seg .cb a (1024 * n)) = true →
    exec (.mzero o) s = .next ((u.starts .mzero [] (seg .cb a (1024 * n))).retired 1) := by
  intro rs u a n hready hn ho halign hrows hroom
  refine word_read2_run hready ?_ (s.maRead_cur _ _) (s.maRead_curSt _ _)
  dsimp only
  rw [Act.bind_ok (soloM_maRead_run s _ _ _ hn), Act.bind_ok (align_run _ _ halign),
    Act.bind_ok (inLimit_maRead_run s _ _ _ hrows), Act.bind_ok (outward_run ho), Act.bind_ok (newOp_starts_run _ hroom)]
  rfl

/-- Settles O34, word by word: the words without operands run in the state under their guard, MLDW and MZERO in the state after their
reads, which has the formats and limits of the state before them. -/
theorem matrixFormatsAndPlanes : Obligations.MatrixFormatsAndPlanes := by
  unfold Obligations.MatrixFormatsAndPlanes
  refine ⟨fun o s hg hn => ⟨mfmt_run hg hn, ⟨fun ht hf hw => mfmtT_run hg hn ?keeps, fun h => mfmtT_traps hg hn ?differs⟩,
    mswap_run hg hn⟩, fun o s hready hn ho => ⟨mldw_run hready hn ho, mzero_run hready hn ho⟩⟩
  case keeps =>
    rw [← Bool.not_eq_true, fmtsDiffer_iff]
    rintro (h | h | h)
    · exact ht h
    · exact hf h
    · exact h hw
  case differs => exact (fmtsDiffer_iff _ _).mpr h

/-! ## MSTR and MWIN (15 R289, R290, R296) -/

/-- The ranges that a MSTR with rows names lie within their buffers; one without rows names none. -/
def State.rowsFit (s : State) (f a c n pitch side : Nat) : Prop :=
  0 < n → a + ((n - 1) * pitch + 192) ≤ s.limit s.cur .ab ∧ c + 1024 * n ≤ s.limit s.cur .cb ∧
    (sidePer f ≠ 0 → side + n * sidePer f ≤ s.limit s.cur .ab)

theorem rowLimits_run {s : State} {f a c n pitch side : Nat} (ta tc ts : Word) (h : s.rowsFit f a c n pitch side) :
    (if 0 < n then do
        inLimit .ab a ((n - 1) * pitch + 192) ta
        inLimit .cb c (1024 * n) tc
        (if sidePer f = 0 then pure () else inLimit .ab side (n * sidePer f) ts)
      else pure () : Act Unit) s = .ok ((), s) := by
  refine ite_check_run fun hn => ?_
  obtain ⟨hab, hcb, hside⟩ := h hn
  rw [Act.bind_ok (inLimit_run ta hab), Act.bind_ok (inLimit_run tc hcb)]
  split
  · rfl
  · next hs => exact inLimit_run ts (hside hs)

/-- A word that has nothing to do in one case records its operation in the other. -/
theorem newOp_unless_run {p : Prop} [Decidable p] {reads writes : List Seg} {s : State} (kind : OpKind)
    (h : s.recordRoom (reads ++ writes) = true) :
    (if p then pure () else do let _ ← newOp kind reads writes []; pure () : Act Unit) s =
      .ok ((), if p then s else s.starts kind reads writes) := by
  split
  · rfl
  · exact (Act.bind_ok (newOp_starts_run kind h)).trans rfl

theorem mstr_run {o : MA} {s : State} :
    let rs := maReads .m o
    let u := s.maRead o.g rs
    let a := (s.maArg o.g rs 0).toNat
    let c := (s.maArg o.g rs 1).toNat
    let p := s.maArg o.g rs 2
    let x := s.ctx s.cur
    let f := x.issCf.toNat
    let n := (p.extractLsb' 0 11).toNat
    let pitch := (p.extractLsb' 12 20).toNat
    let side := (p.extractLsb' 32 21).toNat
    let acc := o.mode.getLsbD 0
    let rows := seg .cb c (1024 * n)
    let ab := if n = 0 then [] else seg .ab a ((n - 1) * pitch + 192) ++ seg .ab side (n * sidePer f)
    let reads := ab ++ if acc then rows else []
    s.maReady o.g rs = true → s.mayName .ab = true → x.issCf = x.issAct → f ≠ 0 → a % 64 = 0 → pitch % 64 = 0 →
    c % 1024 = 0 → (f = 6 → side % 4 = 0) → s.rowsFit f a c n pitch side → u.outwardOk = true →
    u.recordRoom (reads ++ rows) = true →
    exec (.mstr o) s = .next ((if n = 0 then u else u.starts (.mstr acc x.accOvf f a c n pitch side (klenOf (p.extractLsb' 53 8).toNat))
      reads rows).retired 1) := by
  intro rs u a c p x f n pitch side acc rows ab reads hready hn htag hf ha hpitch hc hside hfit ho hroom
  refine word_read3_run hready ?_ ?_ ?_
  · have hmix : (x.issCf != x.issAct || f == 0) = false := by
      rw [htag, bne_self_eq_false, beq_eq_false_iff_ne.mpr hf]
      rfl
    have hfit' : u.rowsFit f a c n pitch side := by simpa only [State.rowsFit, u, State.limit_maRead] using hfit
    dsimp only
    simp only [bits_eq_extractLsb', bitOf_eq_getLsbD]
    rw [Act.bind_ok (soloM_maRead_run s _ _ _ hn), Act.bind_ok (cx_run _), State.maRead_cur, State.maRead_issCf, State.maRead_issAct,
      State.maRead_accOvf, Act.bind_ok (fmtMix_run _ hmix), Act.bind_ok (align_run _ _ ha), Act.bind_ok (align_run _ _ hpitch),
      Act.bind_ok (align_run _ _ hc), Act.bind_ok (align_of_run _ _ hside), Act.bind_ok (rowLimits_run _ _ _ hfit'),
      Act.bind_ok (outward_run ho)]
    exact newOp_unless_run _ hroom
  · split <;> exact s.maRead_cur _ _
  · split <;> exact s.maRead_curSt _ _

/-- What MWIN does once nothing stops it: an empty window is marked, and another one is recorded and its cursor moves on. -/
def mwinEffect (acc ovf : Bool) (f k n c sl : Nat) (d : Wd) : Act Unit :=
  if d.empty then modCx fun y => { y with wd := Table.put y.wd 0 k (d.setEmpty true) }
  else do
    let rows := seg .cb c (1024 * n)
    let _ ← newOp (.mwin acc ovf f k d d.pix n c sl) (d.seg ++ if acc then rows else []) rows []
    modCx fun y => { y with wd := Table.put y.wd 0 k ((d.setEmpty false).setPix ((d.pix + n) % (d.ho * d.wo))) }

section
variable {acc : Bool} (ovf : Bool) (f k : Nat) {n c : Nat} (sl : Nat) {d : Wd} {s : State}

theorem mwinEffect_empty (h : d.empty = true) : mwinEffect acc ovf f k n c sl d s =
    .ok ((), s.changed fun y => { y with wd := Table.put y.wd 0 k (d.setEmpty true) }) := by
  unfold mwinEffect
  rw [if_pos h]
  exact modCx_run _ s

theorem mwinEffect_records (h : d.empty = false)
    (hroom : s.recordRoom ((d.seg ++ if acc then seg .cb c (1024 * n) else []) ++ seg .cb c (1024 * n)) = true) :
    mwinEffect acc ovf f k n c sl d s = .ok ((), (s.starts (.mwin acc ovf f k d d.pix n c sl)
      (d.seg ++ if acc then seg .cb c (1024 * n) else []) (seg .cb c (1024 * n))).changed fun y =>
        { y with wd := Table.put y.wd 0 k ((d.setEmpty false).setPix ((d.pix + n) % (d.ho * d.wo))) }) := by
  unfold mwinEffect
  rw [if_neg (Bool.not_eq_true _ ▸ h), Act.bind_ok (newOp_starts_run _ hroom)]
  exact modCx_run _ _

end

/-- A MWIN whose checks go on comes to its effect, in the state after its reads. -/
theorem mwin_run {o : MA} {s t : State} :
    let rs := maReads .m o
    let u := s.maRead o.g rs
    let c := (s.maArg o.g rs 0).toNat
    let n := ((s.maArg o.g rs 2).extractLsb' 0 11).toNat
    let x := s.ctx s.cur
    let f := x.issCf.toNat
    let k := (o.mode.extractLsb' 1 2).toNat
    let d : Wd := Table.get x.wd 0 k
    s.maReady o.g rs = true → s.windowFree k = true → s.mayName .ab = true → x.issCf = x.issAct → f ∉ [0, 5, 6] →
    d.fails (s.limit s.cur .ab) [0] (fmtWidth f) none = none → c % 1024 = 0 → c + 1024 * n ≤ s.limit s.cur .cb →
    u.outwardOk = true →
    mwinEffect (o.mode.getLsbD 0) x.accOvf f k n c ((s.maArg o.g rs 1).extractLsb' 0 16).toNat d u = .ok ((), t) →
    t.cur = s.cur → t.curSt = s.curSt → exec (.mwin o) s = .next (t.retired 1) := by
  intro rs u c n x f k d hready hfree hn htag hf hwd hc hrows ho heffect
  refine word_read3_run hready ?_
  have hmix : (x.issCf != x.issAct || f == 0 || f == 5 || f == 6) = false := by
    simpa [htag, and_assoc] using hf
  have hfree' : u.windowFree k = true := (s.windowFree_maRead _ _ _).trans hfree
  have hd : Table.get (u.ctx u.cur).wd 0 k = d := by rw [State.maRead_cur, State.maRead_wd]
  have hwd' : Wd.fails (Table.get (u.ctx u.cur).wd 0 k) (u.limit u.cur .ab) [0] (fmtWidth f) none = none := by
    rw [hd, State.limit_maRead]
    exact hwd
  dsimp only
  simp only [bits_eq_extractLsb', bitOf_eq_getLsbD]
  rw [Act.bind_ok (wdFree_run hfree'), Act.bind_ok (soloM_maRead_run s _ _ _ hn), Act.bind_ok (cx_run _), State.maRead_cur,
    State.maRead_issCf, State.maRead_issAct, State.maRead_accOvf, Act.bind_ok (fmtMix_run _ hmix), Act.bind_ok (useWd_run hwd'), hd,
    Act.bind_ok (align_run _ _ hc), Act.bind_ok (inLimit_maRead_run s _ _ _ hrows), Act.bind_ok (outward_run ho)]
  exact heffect

/-- Settles O35: the checks of each word go on in the state after its reads, which has the formats, limits and windows of the state before
them; MWIN then marks an empty window, or records its operation. -/
theorem matrixStreams : Obligations.MatrixStreams := by
  unfold Obligations.MatrixStreams
  refine ⟨fun o s => mstr_run, fun o s hready hfree hn htag hf hwd hc hrows ho => ?mwin⟩
  have hrun {t : State} := mwin_run (t := t) hready hfree hn htag hf hwd hc hrows ho
  exact ⟨fun he => hrun (mwinEffect_empty _ _ _ _ he) (s.maRead_cur _ _) (s.maRead_curSt _ _),
    fun he hroom => hrun (mwinEffect_records _ _ _ _ he hroom) (s.maRead_cur _ _) (s.maRead_curSt _ _)⟩

end Sys2Proof.Machine
